-- ==== Sys2Proof/Word.lean ====
section
/-! DEFINITION. The words of the block: 32-bit register words (spec/01 R12, R27), bytes of frames and
memories, and the plainest arithmetic on them. -/

namespace Sys2Proof

/-- A 32-bit register word. -/
abbrev Word := BitVec 32
/-- One byte. -/
abbrev Byte := BitVec 8
/-- A string of bytes, first byte first. -/
abbrev Bytes := List (BitVec 8)

/-- A natural number as a register word (modulo 2^32). -/
abbrev w32 (n : Nat) : Word := BitVec.ofNat 32 n
/-- A natural number as a byte (modulo 2^8). -/
abbrev b8 (n : Nat) : Byte := BitVec.ofNat 8 n

end Sys2Proof
end

