-- ==== Sys2Proof/Syntax.lean ====
section
/-! DEFINITION. The commands of the block: one constructor of `Instr` per row of spec/opcode_table.json, in
the table's order. The table gives the rows no fields; the operands are the model's (DESIGN CHOICE, log entry 2):
they carry what the row takes from outside the device. -/

namespace Sys2Proof

/-- A port number (R2). -/
abbrev Port := Fin 128
/-- A lane number (R2). -/
abbrev Lane := Fin 512
/-- A port group, pipeline and schedule processor number (R9, R23). -/
abbrev Grp := Fin 16
/-- A time base TB0 to TB7 (R274). -/
abbrev TbIx := Fin 8
/-- A PCI Express function number (R339). -/
abbrev Fn := Fin 64

/-- A shell: one of the device's 661 (R11), or the compound shell of depth `c` (R507). -/
inductive ShellId where
  | dev (k : Fin 661)
  | comp (c : Fin 4)
  deriving DecidableEq, Repr

/-- The severity an error line carries to the collector where its source has two (R431 to R435). -/
inductive Sev where
  | corrected
  | contained
  deriving DecidableEq, Repr

/-- How an error line stands in the clock in which the collector samples it (R428): active in that clock only, active
from it on, or inactive from it on. -/
inductive Line where
  | pulse
  | rise
  | fall
  deriving DecidableEq, Repr

/-- What the MACsec SecTAG of a received frame says, and how its ICV ends (R411, R412). -/
structure SecIn where
  present : Bool
  sc : Fin 16
  an : Fin 4
  pn : Nat
  deriving DecidableEq, Repr

/-- The SFD of a frame: in bits 15:0 the variable part of R48 in 1/256 ns, in bits 23:16 where in its base clock the SFD lies, in
1/256 ns (R284). The operands named `varRx` and `varTx` are of this kind. -/
abbrev Sfd := Nat

/-- The SFDs of frames that leave several ports, by port: the variable part is measured for each frame separately (R48). A port that is
not listed measures 0. -/
abbrev TxSfds := List (Nat × Sfd)

/-- A frame whose header arrives at a port (R74): the bytes run from the destination address to the end of the
payload (no FCS), `len` is L of R79 (with the FCS), `varRx` its SFD. `preempt` says
that the far end sends it on its preemptable MAC (R98). With `sec.present` the bytes are those after the SecTAG has
been removed. `varTx` holds the SFDs of what is cut through at once (R99). -/
structure RxHdr where
  bytes : Bytes
  len : Nat
  varRx : Sfd
  preempt : Bool
  sec : SecIn
  varTx : TxSfds
  deriving DecidableEq, Repr

/-- The AUTHENTICATION TLV of a PTP message (R322, R415): its keyID, and whether its ICV is that of the message under the key which that
keyID names. -/
structure TlvIn where
  keyId : Nat
  ok : Bool
  deriving DecidableEq, Repr

/-- How a frame's last byte judges it (R77): its FCS, its ICV, for a PTP message its AUTHENTICATION TLV, if it carries one (R322), and
whether reassembly of a preemptable frame failed (R98). -/
structure RxEnd where
  fcs : Bool
  icv : Bool
  tlv : Option TlvIn
  frag : Bool
  deriving DecidableEq, Repr

/-- A PTP message's contents as the hardware uses them (R320, R322): the origin time modulo 2^32 ns and the
correction, both in 1/256 ns; whether it is one-step; the cumulative rate offset of the Follow_Up information, in 2^-41 (R321); its
AUTHENTICATION TLV, if any; and the SecTAG of its frame (R412). -/
structure PtpMsg where
  origin : Int
  corr : Int
  oneStep : Bool
  cum : Int
  tlv : Option TlvIn
  sec : SecIn
  deriving DecidableEq, Repr

/-- Bytes of host memory that the host has made visible before it rings (R344 step 3). -/
abbrev HostWrites := List (Nat × BitVec 8)

/-- What a doorbell or a kick finds in host memory: the writes made visible, and the first entry whose read, or the read of whose
fragment table, fails (R361; a kick reads one entry alone). -/
structure HostSees where
  hw : HostWrites
  err : Option Nat
  deriving DecidableEq, Repr

/-- A PTP message with the SFD of its frame. -/
structure PtpRx where
  msg : PtpMsg
  varRx : Sfd
  deriving DecidableEq, Repr

/-- A Pdelay_Req with the SFD of its frame and that of the answer's (R319). -/
structure PtpReq where
  msg : PtpMsg
  varRx : Sfd
  varTx : Sfd
  deriving DecidableEq, Repr

/-- A responder's two stamps in 1/256 ns, of its receipt and of its answer (R319). -/
structure RespTimes where
  t2 : Int
  t3 : Int
  deriving DecidableEq, Repr

/-- A time base with the SFDs of the frames it sends. -/
structure TbSend where
  n : TbIx
  varTx : TxSfds
  deriving DecidableEq, Repr

/-- An edge at an event input: its direction, and where in its base clock it lies, in units of 125 ps (R291). -/
structure InEdge where
  falling : Bool
  sub : Fin 8
  deriving DecidableEq, Repr

/-- A lane that loses signal, or with `cdrOnly` clock recovery alone (R52). -/
structure LaneLoss where
  lane : Lane
  cdrOnly : Bool
  deriving DecidableEq, Repr

/-- A lane that has signal again, and with `lock` clock recovery too (R52). -/
structure LaneBack where
  lane : Lane
  lock : Bool
  deriving DecidableEq, Repr

/-- What a frame of R408 carries behind its TYPE: VER, the payload length it states, and the bytes behind that; with the frame's SFD. -/
structure SecBody where
  ver : Byte
  len : BitVec 16
  payload : Bytes
  varRx : Sfd
  deriving DecidableEq, Repr

/-- An SPDM request that comes over the network (R405, R408): the ingress port, the requester's address, VER, the frame's SecTAG and
SFD. -/
structure SpdmFrom where
  port : Port
  sa : BitVec 48
  ver : Byte
  sec : SecIn
  varRx : Sfd
  deriving DecidableEq, Repr

/-- A secure association key that an MKPDU distributes (R411): its association number and the key. -/
structure SakIn where
  an : Fin 4
  key : Bytes
  deriving DecidableEq, Repr

/-- Whether an MKPDU's own ICV verifies under the port's CAK, and the SFD of its frame (R411). -/
structure MkaEnd where
  icvOk : Bool
  varRx : Sfd
  deriving DecidableEq, Repr

/-- The member a fault summary speaks of (R497, R498): its depth and number, and whether it has come by relay through a third member of the
link's own depth. -/
structure Heard where
  depth : Fin 4
  m : Fin 4
  hop : Bool
  deriving DecidableEq, Repr

/-- A member that is heard of no more (R508, R510): its number, and whether it runs on, cut off in a part of its own. -/
structure LostMember where
  m : Fin 4
  runs : Bool
  deriving DecidableEq, Repr

/-- What a cell header carries besides class and timed release (R499): ingress member and port, stream handle, express mark, recovered
mark. -/
structure CellHead where
  member : Fin 4
  port : Port
  handle : Option (BitVec 16)
  express : Bool
  recovered : Bool
  deriving DecidableEq, Repr

/-- What the host writes of an SMBus process call (R531, R532): a BAR0 offset, and the packet error code it adds to its bytes, if any. -/
structure SmbCall where
  off : Word
  pec : Option Byte
  deriving DecidableEq, Repr

/-- The widths at which the PCI Express link trains (R339). -/
inductive LinkWidth where
  | x4
  | x8
  | x16
  deriving DecidableEq, Repr

/-- Rate and width at which the link trains again after a reset of it (R339, R363): generation 1 to 5. -/
structure LinkAt where
  gen : Fin 5
  width : LinkWidth
  deriving DecidableEq, Repr

/-- The cause of an HIR (R363). -/
inductive HirCause where
  | perst (l : LinkAt)
  | linkDown (l : LinkAt)
  | flr
  | glbHir
  deriving DecidableEq, Repr

/-- The cause of a warm device reset (R485). -/
inductive WrstCause where
  | pin
  | bootCtl
  deriving DecidableEq, Repr

/-- The causes of a machine check (R141). -/
inductive McCause where
  | parity
  | table
  | doubleTrap
  deriving DecidableEq, Repr

/-- A memory access of the host to a BAR (R27): a write with its data, or a read. -/
inductive BarAcc where
  | write (data : BitVec 64)
  | read
  deriving DecidableEq, Repr

/-- The commands. -/
inductive Instr where
  | powerOnReset (straps : Fin 4) (ref : Fin 3)
  | warmDeviceReset (cause : WrstCause) (ramOk : Bool)
  | hir (cause : HirCause)
  | functionLevelReset (f : Fn)
  | registerWrite (off size : Nat) (acc : BarAcc)
  | shellStatW1c (u : ShellId) (v : Word)
  | unitReset (u : ShellId)
  | unitResetComplete (u : ShellId)
  | resetShadowEnd (u : ShellId)
  | sourceLatch (u : ShellId) (bit : Fin 16) (line : Line) (sev : Sev) (info : Nat)
  | fltWatch (k : Fin 6) (v : Word)
  | heartbeatLoss
  | temperatureSample (t : BitVec 16)
  | tickBoundary
  | overrunCutOff (g : Grp)
  | publish (n : Fin 256)
  | take (n : Fin 256)
  | eyeMarginSample (l : Lane) (v h : Byte) (eye : Fin 3)
  | errorMetricInterval (l : Lane) (metric : Nat)
  | lossOfSignal (x : LaneLoss)
  | retreatFollow (p : Port) (mode : Fin 16) (lane : Fin 4)
  | retreatTimeout (p : Port)
  | anResolved (p : Port)
  | linkUp (p : Port)
  | linkLost (p : Port)
  | frameReceive (p : Port) (h : RxHdr)
  | frameEnd (p : Port) (preempt : Bool) (e : RxEnd)
  | ageing (i : Fin 262144)
  | transmitSelection (p : Port) (varTx : Sfd)
  | timedReleaseLaunch (p : Port) (varTx : Sfd)
  | verify (p : Port) (ok : Bool)
  | portCounterLowRead (p : Port) (c : Fin 15)
  | strTableRead (table : Fin 16) (index : Fin 262144)
  | strTableWrite (table : Fin 16) (index : Fin 262144)
  | frerTableRead (table : Fin 16) (index : Fin 65536)
  | frerTableWrite (table : Fin 16) (index : Fin 65536)
  | nop (g : Grp)
  | mov (g : Grp)
  | add (g : Grp)
  | sub (g : Grp)
  | and (g : Grp)
  | or (g : Grp)
  | xor (g : Grp)
  | shl (g : Grp)
  | shr (g : Grp)
  | cmp (g : Grp)
  | ldt (g : Grp)
  | stt (g : Grp)
  | tset (g : Grp)
  | tsetDisarm (g : Grp)
  | gate (g : Grp)
  | sgate (g : Grp)
  | hold (g : Grp)
  | release (g : Grp)
  | launch (g : Grp)
  | pour (g : Grp)
  | sip (g : Grp)
  | pimgGet (g : Grp)
  | pimgPut (g : Grp)
  | evt (g : Grp)
  | spCommit (g : Grp)
  | tcmpFire (g : Grp) (k : Fin 32)
  | waitTimeResume (g : Grp)
  | trapEntry (g : Grp)
  | budgetLow (g : Grp)
  | machineCheck (g : Grp) (cause : McCause) (synd : Byte)
  | spHostreq (g : Grp) (v : Word)
  | csRead (g : Grp) (v : Word)
  | csWrite (g : Grp) (v : Word)
  | carafeLaunch (c : Fin 64) (varA varB : Sfd)
  | copyReceive (p : Port) (h : RxHdr) (varTx : Sfd)
  | copyVerify (p : Port) (dirB : Bool) (e : RxEnd) (rxLen : Nat)
  | carafeReturn (p : Port) (h : RxHdr) (e : RxEnd)
  | giveup (st : Fin 64)
  | returnDeadline (c : Fin 64)
  | sipCut
  | remotePourLatch (st : Fin 64)
  | recoveryReset (i : Fin 16384)
  | lossTmo (i : Fin 16384) (path : Fin 4)
  | laerrPeriod (i : Fin 16384)
  | laerrReset (i : Fin 16384)
  | nodeForget (e : Fin 4096)
  | truncation (p : Port)
  | coldStartFrame (n : TbIx) (p : Port) (h : RxHdr) (varTx : TxSfds)
  | listenTimeout (n : TbIx)
  | coldStartSend (x : TbSend)
  | backoffEnd (n : TbIx)
  | integrateTimeout (n : TbIx)
  | coldstartSync (n : TbIx)
  | synCsRestart (n : TbIx)
  | tbIncHi (n : TbIx) (v : Word)
  | step (n : TbIx) (ns : Word)
  | wrap (n : Fin 9)
  | tbNsRead (n : Fin 9) (wide : Bool)
  | snapshot
  | refLost
  | refReturn
  | inputStamp (i : Fin 12) (x : InEdge)
  | evinStamp1Read (i : Fin 12)
  | ppsPulse (j : Fin 4)
  | ppsPulseEnd (j : Fin 4)
  | tcmpHFire (k : Fin 16)
  | syncRoundEnd (n : TbIx)
  | holdoffEnd (n : TbIx) (j : Fin 16) (path : Fin 2)
  | nodeAcc (n : TbIx) (j : Fin 16) (v : Word)
  | nodeDly (n : TbIx) (j : Fin 16) (path : Fin 2) (v : Word)
  | nodeCtl (n : TbIx) (j : Fin 16) (v : Word)
  | nodeSofs (n : TbIx) (j : Fin 16) (v : Word)
  | aswAccept (n : TbIx) (w : Fin 4)
  | stepGrant (v : Word)
  | syncMessage (n : TbIx) (p : Port) (m : PtpMsg) (stamped : Bool) (varRx : Sfd)
  | followUp (n : TbIx) (p : Port) (x : PtpRx)
  | syncTransmit (n : TbIx) (p : Port) (varTx : Sfd)
  | pdelayReq (n : TbIx) (p : Port) (varTx : Sfd)
  | pdelayResp (n : TbIx) (p : Port) (r : RespTimes) (x : PtpRx)
  | slavePortTimeout (n : TbIx) (b : Fin 2)
  | ptpAcc (n : TbIx) (b : Fin 2)
  | dbTx (f : Fn) (v : Word) (x : HostSees)
  | dbRx (f : Fn) (v : Word) (x : HostSees)
  | dbJob (f : Fn) (v : Word) (x : HostSees)
  | dbEvt (f : Fn) (v : Word)
  | dbCmd (f : Fn) (v : Word) (x : HostSees)
  | dbCmdCfg (f : Fn) (v : Word)
  | transmitDescriptor (ring : Fin 4096) (readErr : Bool)
  | completion (kind : Fin 5) (ring : Fin 4096)
  | moderationEnd (kind : Fin 5) (ring : Fin 4096)
  | vectorUnmask (v : Fin 2048)
  | rxHold (ring : Fin 4096)
  | commandNop (f : Fn)
  | ringCreate (f : Fn)
  | ringDestroy (f : Fn)
  | steer (f : Fn)
  | burst (c : Fin 64) (dreq readErr : Bool)
  | commitPoint (c : Fin 64)
  | tickDeadline (c : Fin 64)
  | abort (c : Fin 64)
  | dmaKick (c : Fin 64) (x : HostSees)
  | getCert
  | attest
  | challenge
  | revoke
  | debug
  | challengeExpiry
  | secChal
  | secResp (req : Bytes)
  | hs1 (p : Port) (x : SecBody)
  | hs2 (p : Port) (x : SecBody)
  | hs1Resend (p : Port)
  | rehandshake (p : Port)
  | mkpdu (p : Port) (sc : Fin 16) (prio : Byte) (sci : Nat) (sak : Option SakIn) (x : MkaEnd)
  | mkaHello (p : Port)
  | mkaLifeTime (p : Port) (sc : Fin 16)
  | rekey (p : Port)
  | ptpKeyExpiry (p : Port)
  /-- `src`: the DOE mailbox, or the network. -/
  | spdmRequest (src : Option SpdmFrom) (req : Bytes)
  | evaluation (u : Fin 661)
  | wake (u : Fin 661)
  | transitionComplete (u : Fin 661)
  | go
  | retainedRestart (ramOk : Bool)
  | write
  | writeBlock
  | loadStore
  | bindTick
  | bindHost
  | bindSp
  | trust
  | claimOwner (readBack : Bool)
  | setTime
  | waitUntil
  | waitUntilTimeout
  | ifFuse
  | commit
  | refclkSdLost (g : Grp)
  | refclkSdReturn (g : Grp)
  | readTemperature
  | readVcore (mv : BitVec 16)
  | readStatus
  | bar0Read (x : SmbCall)
  | idcode
  | samplePreload (v : Nat)
  | extest
  | extestPulse
  | extestTrain
  | bypass
  | timeWord (p : Port) (t1 t2 t3 t4 : Int) (t0 num : Word) (sync : Bool)
  | faultSummary (p : Port) (m : Heard) (shell : List Word) (present direct : Fin 16)
  | powerReport (c : Fin 4) (m : Fin 4) (req : Option (Fin 8)) (tol : Option Word) (cur : Option (Fin 8))
  | identityDigest (p : Port) (digest : Bytes)
  | uliconFrame (p : Port) (cells : Nat) (relay : Option (Fin 4)) (bytes : Bytes) (len : Nat) (head : CellHead)
      (tc : Fin 8) (trq cue lateSkip : Bool) (t : Word)
  | pairDown (c : Fin 4) (m : Fin 4)
  | memberLost (c : Fin 4) (m : LostMember)
  | mirrorReset (c : Fin 4) (m : Fin 4)
  | signalDetect (x : LaneBack)
  | remoteStationData (st : Fin 64) (range : Option (Fin 4)) (age : Fin 4) (data : Bytes)
  | pdelayReqReceive (n : TbIx) (p : Port) (x : PtpReq)
  | waitUntilMet
  | timeWordsAndSummariesSent
  | clockLowTimeout
  deriving DecidableEq, Repr

end Sys2Proof
end

