-- ==== Sys2Proof/Config.lean ====
section
/-! DEFINITION. What the spec leaves open: free values and the functions of other standards, as constants without
a body. Nothing can be proved about any of them beyond what holds of every value. -/

namespace Sys2Proof.Config

/-- The n-th free value drawn (log entry 1): a value the spec leaves open after an operation that completes. -/
opaque freeNat : Nat → Nat

/-- Schedule-processor microcode word at ROM address `a` (R143; the manual prints no ROM contents; log entry 12). -/
opaque romWord : Nat → BitVec 128

/-- How many entries beyond a ring's tail the n-th fetch reads ahead, at most 16 (R346; log entry 13). -/
opaque fetchAhead : Nat → Nat

/-- An interval in ns for an exponent outside -7 to 4 (R336 gives none; log entry 18). -/
opaque oddInterval : Nat → Nat

/-- SHA-384 (R396 and others; FIPS 180-4, named by the spec; log entry 14). -/
opaque sha384 : List (BitVec 8) → List (BitVec 8)

/-- SHA-256, of the HMAC of R322 (FIPS 180-4; log entry 14). -/
opaque sha256 : List (BitVec 8) → List (BitVec 8)

/-- ECDSA P-384 verification of (key, signed data with its context in front, signature) (R401, R408, R419; log entry 14). -/
opaque ecdsaOk : List (BitVec 8) → List (BitVec 8) → List (BitVec 8) → Bool

/-- ML-DSA-65 verification of (key, context, message, signature) (R402, R408, R419; log entry 14). -/
opaque mldsaOk : List (BitVec 8) → List (BitVec 8) → List (BitVec 8) → List (BitVec 8) → Bool

/-- The ECDSA P-384 signature of (private scalar, signed data with its context in front) with the n-th per-message secret (R395; log
entry 14). -/
opaque ecdsaSign : Nat → List (BitVec 8) → Nat → List (BitVec 8)

/-- The ML-DSA-65 signature of (seed, context, message) with the n-th randomizer (R395; FIPS 204; log entry 14). -/
opaque mldsaSign : List (BitVec 8) → List (BitVec 8) → List (BitVec 8) → Nat → List (BitVec 8)

/-- The P-384 public key of a private scalar, uncompressed (R396; log entry 14). -/
opaque ecPublic : Nat → List (BitVec 8)

/-- The ML-DSA-65 public key of a seed (R395, R396; FIPS 204; log entry 14). -/
opaque mlPublic : List (BitVec 8) → List (BitVec 8)

/-- ECDH P-384 of (private scalar, peer's public key): the x-coordinate (R409; log entry 14). -/
opaque ecdh : Nat → List (BitVec 8) → List (BitVec 8)

/-- The ML-KEM-768 encapsulation key of a decapsulation seed (R408; FIPS 203; log entry 14). -/
opaque kemPublic : List (BitVec 8) → List (BitVec 8)

/-- ML-KEM-768 encapsulation under (key, randomness): the ciphertext (R408; log entry 14). -/
opaque kemCipher : List (BitVec 8) → List (BitVec 8) → List (BitVec 8)

/-- The secret shared by that encapsulation (R409; log entry 14). -/
opaque kemShared : List (BitVec 8) → List (BitVec 8) → List (BitVec 8)

/-- ML-KEM-768 decapsulation of (seed, ciphertext) (R409; log entry 14). -/
opaque kemOpen : List (BitVec 8) → List (BitVec 8) → List (BitVec 8)

/-- The ciphertext of AES-GCM by (cipher suite as PRT_SEC_CFG.CS has it, key, SCI, PN, plaintext) (R411; log entry 110). -/
opaque gcmCipher : Nat → List (BitVec 8) → Nat → Nat → List (BitVec 8) → List (BitVec 8)

/-- Its ICV over (authenticated bytes in front, ciphertext) (R411; log entry 110). -/
opaque gcmTag : Nat → List (BitVec 8) → Nat → Nat → List (BitVec 8) → List (BitVec 8)

/-- The 256-bit unique secret fused at test, from which the device's own keys derive (R395; log entry 14). -/
opaque uds : List (BitVec 8)

/-- The debug-lock fuses (R403; which there are is not said; log entry 14). -/
opaque debugLock : Nat

/-- Bytes of the true random generator, by purpose and draw (R395; log entry 14). -/
opaque secretBytes : Nat → Nat → List (BitVec 8)

/-- The one-time store's certificates: 0 the EC chain, 1 the ML certificate (R396, R418; log entry 14). -/
opaque cert : Nat → List (BitVec 8)
/-- What the BOOT_ROM entry measures. -/
opaque bootRom : List (BitVec 8)

/-- The bytes in which the FUSES entry measures hashes, markers, revocation and debug-lock fuses (R403; log entry 14). -/
opaque fuseBytes : List Nat → List (BitVec 8)

/-- The bytes of a PTP message the hardware sends, from its kind and time fields (R319, R322; IEEE 802.1AS-2020; log entry 19). -/
opaque ptpBytes : Nat → List Int → List (BitVec 8)

/-- The identity digest of a compound node's member from its values (R495: SHA-384; in how many bytes each value stands is not
said; log entry 14). -/
opaque uliconDigest : List Nat → List (BitVec 8)

/-- The bits the n-th capture of the boundary register shifts out (R533 gives no boundary map; log entry 27). -/
opaque boundaryScan : Nat → List (BitVec 8)

/-- The vendor ID of the device in its PCI configuration space, which the spec does not give. -/
opaque vendorId : BitVec 16

end Sys2Proof.Config
end

