-- ==== Sys2Proof/Machine/Tab.lean ====
section
/-! DEFINITION. Sparse tables in one canonical form: keys strictly rising, no entry equal to the value an unlisted
key reads as. Byte memories, register files and the block's internal tables are all of this kind. -/

namespace Sys2Proof.Machine

/-- A sparse table: value by key, every other key at a default the reader names. -/
abbrev Tab (α : Type) := List (Nat × α)

/-- Read key `k`; a key that is not listed reads `d`. -/
def tget {α : Type} (d : α) : Tab α → Nat → α
  | [], _ => d
  | (i, v) :: r, k => if k = i then v else tget d r k

/-- Remove every entry of key `k`. -/
def terase {α : Type} : Tab α → Nat → Tab α
  | [], _ => []
  | (i, v) :: r, k => if i = k then terase r k else (i, v) :: terase r k

/-- Put an entry before the first larger key. -/
def tins {α : Type} : Tab α → Nat → α → Tab α
  | [], k, x => [(k, x)]
  | (i, v) :: r, k, x => if k < i then (k, x) :: (i, v) :: r else (i, v) :: tins r k x

/-- Write key `k`; writing the default removes the entry. -/
def tset {α : Type} [DecidableEq α] (d : α) (t : Tab α) (k : Nat) (x : α) : Tab α :=
  if x = d then terase t k else tins (terase t k) k x

/-- Apply `f` to the value at key `k`. -/
def tmod {α : Type} [DecidableEq α] (d : α) (t : Tab α) (k : Nat) (f : α → α) : Tab α :=
  tset d t k (f (tget d t k))

/-- Remove the entries whose key satisfies `p`. -/
def tclear {α : Type} (t : Tab α) (p : Nat → Bool) : Tab α :=
  t.filter (fun e => !p e.1)

/-- The canonical form: keys strictly rising, no entry at the default `d`. -/
abbrev Tab.wf {α : Type} (d : α) (t : Tab α) : Prop :=
  t.Pairwise (fun a b => a.1 < b.1) ∧ ∀ e ∈ t, e.2 ≠ d

/-- A byte memory (address, byte), unlisted bytes reading 0. -/
abbrev Memory := Tab (BitVec 8)

/-- The canonical form of a memory. -/
abbrev Memory.wf (m : Memory) : Prop := Tab.wf (0 : BitVec 8) m

/-- Read one byte. -/
def Memory.get (m : Memory) (a : Nat) : BitVec 8 := tget 0 m a

/-- Write one byte. -/
def Memory.put (m : Memory) (a : Nat) (b : BitVec 8) : Memory := tset 0 m a b

/-- Write bytes at rising addresses from `a`. -/
def Memory.putBytes (m : Memory) (a : Nat) : Bytes → Memory
  | [] => m
  | b :: r => (m.put a b).putBytes (a + 1) r

/-- Read `n` bytes from `a` on. -/
def Memory.getBytes (m : Memory) (a : Nat) : Nat → Bytes
  | 0 => []
  | n + 1 => m.get a :: m.getBytes (a + 1) n

/-- Bytes as a number, first byte least significant (R7, registers and host memory). -/
def leNat : Bytes → Nat
  | [] => 0
  | b :: r => b.toNat + 256 * leNat r

/-- Bytes as a number, first byte most significant (R7, frames). -/
def beNat (bs : Bytes) : Nat := bs.foldl (fun a b => a * 256 + b.toNat) 0

/-- The `n` low bytes of a number, least significant first. -/
def leBytes : Nat → Nat → Bytes
  | 0, _ => []
  | n + 1, v => BitVec.ofNat 8 v :: leBytes n (v / 256)

/-- The `n` low bytes of a number, most significant first. -/
def beBytes (n v : Nat) : Bytes := (leBytes n v).reverse

/-- Read a little-endian number of `n` bytes. -/
def Memory.getLE (m : Memory) (a n : Nat) : Nat := leNat (m.getBytes a n)

/-- Write a little-endian number of `n` bytes. -/
def Memory.putLE (m : Memory) (a n v : Nat) : Memory := m.putBytes a (leBytes n v)

/-- The field of a byte string at offset `o`, most significant byte first (R7). -/
def beField (bs : Bytes) (o n : Nat) : Nat := beNat ((bs.drop o).take n)

/-- Replace the bytes of `bs` from offset `o` on by `new`. -/
def spliceAt (bs : Bytes) (o : Nat) (new : Bytes) : Bytes :=
  bs.take o ++ new ++ bs.drop (o + new.length)

end Sys2Proof.Machine
end

