-- ==== Sys2Proof/Machine/Crypto.lean ====
section
/-! DEFINITION. Keys and their derivation (R395, R396, R409, R415): HMAC and HKDF over the hash functions of Config (RFC 2104, RFC 5869),
the device's own keys, the pair keys, the PTP key, and signatures. The primitives of other standards are constants without a body (log
entry 14). -/

namespace Sys2Proof.Machine

/-- A byte string cut or filled with zeros to a length the spec gives. -/
def fit (n : Nat) (b : Bytes) : Bytes := b.take n ++ List.replicate (n - (b.take n).length) 0

/-- A SHA-384 digest. -/
def sha (b : Bytes) : Bytes := fit 48 (Config.sha384 b)

/-- Bytes of an ASCII string. -/
def ascii (t : String) : Bytes := t.toList.map (fun c => BitVec.ofNat 8 c.toNat)

/-! ### HMAC and HKDF -/

/-- The HMAC of a message under a key, over a hash `h` of `n` bytes that works on blocks of `block` bytes (RFC 2104). -/
def hmac (h : Bytes → Bytes) (n block : Nat) (key m : Bytes) : Bytes :=
  let k := fit block (if block < key.length then fit n (h key) else key)
  fit n (h (k.map (· ^^^ 0x5C) ++ fit n (h (k.map (· ^^^ 0x36) ++ m))))

/-- HMAC-SHA384. -/
def hmac384 (key m : Bytes) : Bytes := hmac Config.sha384 48 128 key m

/-- HMAC-SHA256 (R322). -/
def hmac256 (key m : Bytes) : Bytes := hmac Config.sha256 32 64 key m

/-- HKDF-Extract over SHA-384 (R395, RFC 5869). -/
def hkdfExtract (salt ikm : Bytes) : Bytes := hmac384 salt ikm

/-- HKDF-Expand to `len` bytes: block i + 1 is the HMAC of the block before it, `info`, and i + 1. -/
def hkdfExpand (prk info : Bytes) (len : Nat) : Bytes :=
  ((List.range ((len + 47) / 48)).foldl (fun (a : Bytes × Bytes) i =>
    let t := hmac384 prk (a.1 ++ info ++ [b8 (i + 1)])
    (t, a.2 ++ t)) ([], [])).2.take len

/-- HKDF with an empty salt (R395). -/
def hkdf (ikm info : Bytes) (len : Nat) : Bytes := hkdfExpand (hkdfExtract [] ikm) info len

/-! ### The device's own keys (R395, R396) -/

/-- The order n of P-384 (FIPS 186-5: PRESUMED, log entry 14). -/
def p384n : Nat :=
  0xFFFFFFFFFFFFFFFFFFFFFFFFFFFFFFFFFFFFFFFFFFFFFFFFC7634D81F4372DDF581A0DB248B0A77AECEC196ACCC52973

/-- The identity EC key: 56 bytes reduced to a scalar per FIPS 186-5 A.2.1. -/
def idEc : Nat := beNat (hkdf Config.uds (ascii "ZB-ID-EC") 56) % (p384n - 1) + 1

/-- The identity ML key: 32 bytes as the seed of FIPS 204. -/
def idMl : Bytes := hkdf Config.uds (ascii "ZB-ID-ML") 32

/-- The key-store key, which seals every key-store entry. -/
def keyStoreKey : Bytes := hkdf Config.uds (ascii "ZB-KS") 32

/-- ECPUB and MLPUB of the device (R396). -/
def ownEc : Bytes := fit 97 (Config.ecPublic idEc)
/-- MLPUB. -/
def ownMl : Bytes := fit 1952 (Config.mlPublic idMl)
/-- The identity hash of a pair of public keys (R396). -/
def idHash (ec ml : Bytes) : Bytes := sha (ec ++ ml)
/-- The device's own identity hash. -/
def ownIdh : Bytes := idHash ownEc ownMl

/-! ### Signatures (R401, R402, R408, R418) -/

/-- The device's two signatures over a message with a context, ECDSA then ML-DSA, drawn with the n-th random values: for ECDSA the
context is prefixed to what is signed (R408). -/
def ownSigns (ctx m : Bytes) (n : Nat) : Bytes :=
  fit 96 (Config.ecdsaSign idEc (ctx ++ m) n) ++ fit 3309 (Config.mldsaSign idMl ctx m n)

/-- Whether an ECDSA signature verifies: r and s lie in [1, n - 1], and the equation holds (R402). -/
def ecdsaHolds (key m sig : Bytes) : Bool :=
  let r := beNat (sig.take 48)
  let t := beNat ((sig.drop 48).take 48)
  decide (1 ≤ r ∧ r < p384n ∧ 1 ≤ t ∧ t < p384n) && Config.ecdsaOk key m sig

/-! ### Pair keys and PTP keys (R409, R415) -/

/-- PRK of a pair (R409): `ni` and `nr` are the nonces of the lower and the higher end. -/
def pairPrk (ni nr ssEc ssKem : Bytes) : Bytes := hkdfExtract (ni ++ nr) (fit 48 ssEc ++ fit 32 ssKem)

/-- CAK of a pair (R409). -/
def pairCak (prk hs1 hs2 : Bytes) : Bytes := hkdfExpand prk (ascii "ZB-CAK" ++ sha (hs1 ++ hs2)) 32

/-- CKN of a pair (R409). -/
def pairCkn (prk hs1 hs2 : Bytes) : Bytes := hkdfExpand prk (ascii "ZB-CKN" ++ sha (hs1 ++ hs2)) 32

/-- The PTP key of a port for a domain number (R415). -/
def ptpKey (cak : Bytes) (dom : Nat) : Bytes := hkdf cak (ascii "ZB-PTP" ++ [b8 dom]) 32

/-- The AUTHENTICATION TLV behind a PTP message `m` (R322, R415): immediate security processing, SPP, keyID, and an ICV of 128 bits; its
layout is that of IEEE 1588 (log entry 19). -/
def authTlv (cak ckn : Bytes) (dom spp : Nat) (m : Bytes) : Bytes :=
  let front := beBytes 2 0x8009 ++ beBytes 2 22 ++ [b8 spp, 0] ++ fit 4 ckn
  front ++ (hmac256 (ptpKey cak dom) (m ++ front)).take 16

end Sys2Proof.Machine
end

