-- ==== Sys2Proof/Machine/Regs.lean ====
section
/-! DEFINITION. The register map: one offset per register, one place per field, and one descriptor per register
(reset value, write masks by the access codes of R5, what an HIR does to it), written out from the register tables of
the spec's chapters 01 to 17. Shell registers take the shell's base offset (R11, R12, R507). -/

namespace Sys2Proof.Machine

/-- The place of a register field: BAR0 offset of the register, lowest bit, width. -/
structure F where
  off : Nat
  lo : Nat
  w : Nat
  deriving DecidableEq, Repr

/-- SHELL_CTL, R13 (01_units_and_architecture.md). -/
abbrev SHELL_CTL (b : Nat) : Nat := b
abbrev SHELL_CTL_UNIT (b : Nat) : F := ⟨SHELL_CTL b, 16, 16⟩
abbrev SHELL_CTL_RPT_EN (b : Nat) : F := ⟨SHELL_CTL b, 15, 1⟩
abbrev SHELL_CTL_CHILD_BASE (b : Nat) : F := ⟨SHELL_CTL b, 4, 10⟩
abbrev SHELL_CTL_CHILD_N (b : Nat) : F := ⟨SHELL_CTL b, 0, 4⟩
/-- SHELL_STAT, R14 (01_units_and_architecture.md). -/
abbrev SHELL_STAT (b : Nat) : Nat := b + 0x4
abbrev SHELL_STAT_MERGED (b : Nat) : F := ⟨SHELL_STAT b, 27, 1⟩
abbrev SHELL_STAT_CLS_FATAL (b : Nat) : F := ⟨SHELL_STAT b, 26, 1⟩
abbrev SHELL_STAT_CLS_CONT (b : Nat) : F := ⟨SHELL_STAT b, 25, 1⟩
abbrev SHELL_STAT_CLS_CORR (b : Nat) : F := ⟨SHELL_STAT b, 24, 1⟩
abbrev SHELL_STAT_CHILD (b : Nat) : F := ⟨SHELL_STAT b, 16, 8⟩
abbrev SHELL_STAT_SRC (b : Nat) : F := ⟨SHELL_STAT b, 0, 16⟩
/-- SHELL_LIVE, R16 (01_units_and_architecture.md). -/
abbrev SHELL_LIVE (b : Nat) : Nat := b + 0x8
abbrev SHELL_LIVE_LIVE (b : Nat) : F := ⟨SHELL_LIVE b, 0, 16⟩
/-- SHELL_PWR, R17 (01_units_and_architecture.md). -/
abbrev SHELL_PWR (b : Nat) : Nat := b + 0xc
abbrev SHELL_PWR_BUSY (b : Nat) : F := ⟨SHELL_PWR b, 11, 1⟩
abbrev SHELL_PWR_CUR (b : Nat) : F := ⟨SHELL_PWR b, 8, 3⟩
abbrev SHELL_PWR_REQ (b : Nat) : F := ⟨SHELL_PWR b, 0, 3⟩
/-- SHELL_LATTOL, R18 (01_units_and_architecture.md). -/
abbrev SHELL_LATTOL (b : Nat) : Nat := b + 0x10
abbrev SHELL_LATTOL_TOL (b : Nat) : F := ⟨SHELL_LATTOL b, 0, 32⟩
/-- SHELL_RST, R19 (01_units_and_architecture.md). -/
abbrev SHELL_RST (b : Nat) : Nat := b + 0x14
abbrev SHELL_RST_SHADOW (b : Nat) : F := ⟨SHELL_RST b, 16, 16⟩
abbrev SHELL_RST_RST (b : Nat) : F := ⟨SHELL_RST b, 0, 1⟩
/-- SHELL_CNT, R21 (01_units_and_architecture.md). -/
abbrev SHELL_CNT (b : Nat) : Nat := b + 0x18
abbrev SHELL_CNT_RESETS (b : Nat) : F := ⟨SHELL_CNT b, 16, 16⟩
abbrev SHELL_CNT_MERGED_N (b : Nat) : F := ⟨SHELL_CNT b, 0, 16⟩
/-- GLB_ID, R28 (01_units_and_architecture.md). -/
abbrev GLB_ID : Nat := 0x0
abbrev GLB_ID_PART : F := ⟨GLB_ID, 16, 16⟩
abbrev GLB_ID_REV : F := ⟨GLB_ID, 8, 8⟩
/-- GLB_ACC_ERR, R29 (01_units_and_architecture.md). -/
abbrev GLB_ACC_ERR : Nat := 0x8
abbrev GLB_ACC_ERR_VALID : F := ⟨GLB_ACC_ERR, 31, 1⟩
abbrev GLB_ACC_ERR_WRITE : F := ⟨GLB_ACC_ERR, 30, 1⟩
abbrev GLB_ACC_ERR_OFFSET : F := ⟨GLB_ACC_ERR, 0, 26⟩
/-- GLB_TICK_CTL, R32 (01_units_and_architecture.md). -/
abbrev GLB_TICK_CTL : Nat := 0x100
abbrev GLB_TICK_CTL_RUN : F := ⟨GLB_TICK_CTL, 31, 1⟩
abbrev GLB_TICK_CTL_CYCLE : F := ⟨GLB_TICK_CTL, 8, 16⟩
abbrev GLB_TICK_CTL_TB : F := ⟨GLB_TICK_CTL, 0, 3⟩
/-- GLB_TICK_PER, R33 (01_units_and_architecture.md). -/
abbrev GLB_TICK_PER : Nat := 0x104
abbrev GLB_TICK_PER_NS : F := ⟨GLB_TICK_PER, 0, 21⟩
/-- GLB_TICK_FRAC, R33 (01_units_and_architecture.md). -/
abbrev GLB_TICK_FRAC : Nat := 0x108
abbrev GLB_TICK_FRAC_FRAC : F := ⟨GLB_TICK_FRAC, 0, 16⟩
/-- GLB_TICK_CYCNS, R34 (01_units_and_architecture.md). -/
abbrev GLB_TICK_CYCNS : Nat := 0x10c
abbrev GLB_TICK_CYCNS_CYCNS : F := ⟨GLB_TICK_CYCNS, 0, 32⟩
/-- GLB_TICK_ANCHOR, R34 (01_units_and_architecture.md). -/
abbrev GLB_TICK_ANCHOR : Nat := 0x110
abbrev GLB_TICK_ANCHOR_ANCHOR : F := ⟨GLB_TICK_ANCHOR, 0, 32⟩
/-- GLB_TICK_NUM, R34 (01_units_and_architecture.md). -/
abbrev GLB_TICK_NUM : Nat := 0x114
abbrev GLB_TICK_NUM_NUM : F := ⟨GLB_TICK_NUM, 0, 32⟩
/-- CRF_PI_SLOT, R41 (01_units_and_architecture.md). -/
abbrev CRF_PI_SLOT (n : Nat) : Nat := 0x508000 + 0x4 * n
abbrev CRF_PI_SLOT_OVF (n : Nat) : F := ⟨CRF_PI_SLOT n, 16, 16⟩
abbrev CRF_PI_SLOT_STALE (n : Nat) : F := ⟨CRF_PI_SLOT n, 9, 1⟩
abbrev CRF_PI_SLOT_NEW (n : Nat) : F := ⟨CRF_PI_SLOT n, 8, 1⟩
abbrev CRF_PI_SLOT_EN (n : Nat) : F := ⟨CRF_PI_SLOT n, 7, 1⟩
abbrev CRF_PI_SLOT_DIR (n : Nat) : F := ⟨CRF_PI_SLOT n, 6, 1⟩
abbrev CRF_PI_SLOT_TAKE (n : Nat) : F := ⟨CRF_PI_SLOT n, 5, 1⟩
abbrev CRF_PI_SLOT_PUBLISH (n : Nat) : F := ⟨CRF_PI_SLOT n, 4, 1⟩
abbrev CRF_PI_SLOT_RD (n : Nat) : F := ⟨CRF_PI_SLOT n, 2, 2⟩
abbrev CRF_PI_SLOT_WR (n : Nat) : F := ⟨CRF_PI_SLOT n, 0, 2⟩
/-- PRT_MODE, R61 (02_lanes_and_ports.md). -/
abbrev PRT_MODE (p : Nat) : Nat := 0x100000 + 0x2000 * p
abbrev PRT_MODE_RTR_EN (p : Nat) : F := ⟨PRT_MODE p, 8, 1⟩
abbrev PRT_MODE_AN_EN (p : Nat) : F := ⟨PRT_MODE p, 7, 1⟩
abbrev PRT_MODE_MEDIUM (p : Nat) : F := ⟨PRT_MODE p, 6, 1⟩
abbrev PRT_MODE_LSEL (p : Nat) : F := ⟨PRT_MODE p, 4, 2⟩
abbrev PRT_MODE_MODE (p : Nat) : F := ⟨PRT_MODE p, 0, 4⟩
/-- PRT_STAT, R62 (02_lanes_and_ports.md). -/
abbrev PRT_STAT (p : Nat) : Nat := 0x100004 + 0x2000 * p
abbrev PRT_STAT_CUR_MODE (p : Nat) : F := ⟨PRT_STAT p, 24, 4⟩
abbrev PRT_STAT_ACT_LANES (p : Nat) : F := ⟨PRT_STAT p, 20, 4⟩
abbrev PRT_STAT_RET_LANES (p : Nat) : F := ⟨PRT_STAT p, 16, 4⟩
abbrev PRT_STAT_RTR_STEP (p : Nat) : F := ⟨PRT_STAT p, 8, 4⟩
abbrev PRT_STAT_STATE (p : Nat) : F := ⟨PRT_STAT p, 5, 3⟩
abbrev PRT_STAT_RTR_FOLLOW (p : Nat) : F := ⟨PRT_STAT p, 4, 1⟩
abbrev PRT_STAT_LINK (p : Nat) : F := ⟨PRT_STAT p, 0, 1⟩
/-- PRT_TS_FIX, R63 (02_lanes_and_ports.md). -/
abbrev PRT_TS_FIX (p : Nat) : Nat := 0x100010 + 0x2000 * p
abbrev PRT_TS_FIX_FIX_RX (p : Nat) : F := ⟨PRT_TS_FIX p, 16, 16⟩
abbrev PRT_TS_FIX_FIX_TX (p : Nat) : F := ⟨PRT_TS_FIX p, 0, 16⟩
/-- PRT_TS_BOARD, R64 (02_lanes_and_ports.md). -/
abbrev PRT_TS_BOARD (p : Nat) : Nat := 0x100014 + 0x2000 * p
abbrev PRT_TS_BOARD_BOARD_RX (p : Nat) : F := ⟨PRT_TS_BOARD p, 16, 16⟩
abbrev PRT_TS_BOARD_BOARD_TX (p : Nat) : F := ⟨PRT_TS_BOARD p, 0, 16⟩
/-- PRT_TS_VAR, R65 (02_lanes_and_ports.md). -/
abbrev PRT_TS_VAR (p : Nat) : Nat := 0x100018 + 0x2000 * p
abbrev PRT_TS_VAR_VAR_RX (p : Nat) : F := ⟨PRT_TS_VAR p, 16, 16⟩
abbrev PRT_TS_VAR_VAR_TX (p : Nat) : F := ⟨PRT_TS_VAR p, 0, 16⟩
/-- PRT_RTR, R66 (02_lanes_and_ports.md). -/
abbrev PRT_RTR (p : Nat) (i : Nat) : Nat := 0x100020 + 0x2000 * p + 0x4 * i
abbrev PRT_RTR_VALID (p : Nat) (i : Nat) : F := ⟨PRT_RTR p i, 31, 1⟩
abbrev PRT_RTR_FROM (p : Nat) (i : Nat) : F := ⟨PRT_RTR p i, 24, 4⟩
abbrev PRT_RTR_TO (p : Nat) (i : Nat) : F := ⟨PRT_RTR p i, 16, 4⟩
abbrev PRT_RTR_SETA (p : Nat) (i : Nat) : F := ⟨PRT_RTR p i, 8, 4⟩
abbrev PRT_RTR_SETB (p : Nat) (i : Nat) : F := ⟨PRT_RTR p i, 4, 4⟩
abbrev PRT_RTR_BEST (p : Nat) (i : Nat) : F := ⟨PRT_RTR p i, 0, 1⟩
/-- PRT_RTR_TMO, R67 (02_lanes_and_ports.md). -/
abbrev PRT_RTR_TMO (p : Nat) : Nat := 0x100030 + 0x2000 * p
abbrev PRT_RTR_TMO_TMO (p : Nat) : F := ⟨PRT_RTR_TMO p, 0, 16⟩
/-- PRT_PCS_ERR, R68 (02_lanes_and_ports.md). -/
abbrev PRT_PCS_ERR (p : Nat) : Nat := 0x100040 + 0x2000 * p
abbrev PRT_PCS_ERR_COUNT (p : Nat) : F := ⟨PRT_PCS_ERR p, 0, 32⟩
/-- LN_CTL, R69 (02_lanes_and_ports.md). -/
abbrev LN_CTL (l : Nat) : Nat := 0x200000 + 0x400 * l
abbrev LN_CTL_TXPRE (l : Nat) : F := ⟨LN_CTL l, 4, 4⟩
abbrev LN_CTL_RX_INV (l : Nat) : F := ⟨LN_CTL l, 1, 1⟩
abbrev LN_CTL_TX_INV (l : Nat) : F := ⟨LN_CTL l, 0, 1⟩
/-- LN_STAT, R70 (02_lanes_and_ports.md). -/
abbrev LN_STAT (l : Nat) : Nat := 0x200004 + 0x400 * l
abbrev LN_STAT_ACTIVE (l : Nat) : F := ⟨LN_STAT l, 6, 1⟩
abbrev LN_STAT_RATE (l : Nat) : F := ⟨LN_STAT l, 4, 2⟩
abbrev LN_STAT_RETIRED (l : Nat) : F := ⟨LN_STAT l, 3, 1⟩
abbrev LN_STAT_ADAPT (l : Nat) : F := ⟨LN_STAT l, 2, 1⟩
abbrev LN_STAT_CDR_LOCK (l : Nat) : F := ⟨LN_STAT l, 1, 1⟩
abbrev LN_STAT_SIG_DET (l : Nat) : F := ⟨LN_STAT l, 0, 1⟩
/-- LN_MARGIN, R71 (02_lanes_and_ports.md). -/
abbrev LN_MARGIN (l : Nat) : Nat := 0x200008 + 0x400 * l
abbrev LN_MARGIN_SEQ (l : Nat) : F := ⟨LN_MARGIN l, 24, 8⟩
abbrev LN_MARGIN_EYE (l : Nat) : F := ⟨LN_MARGIN l, 16, 2⟩
abbrev LN_MARGIN_HMARGIN (l : Nat) : F := ⟨LN_MARGIN l, 8, 8⟩
abbrev LN_MARGIN_VMARGIN (l : Nat) : F := ⟨LN_MARGIN l, 0, 8⟩
/-- LN_WATCH, R72 (02_lanes_and_ports.md). -/
abbrev LN_WATCH (l : Nat) : Nat := 0x20000c + 0x400 * l
abbrev LN_WATCH_ERR_MAX (l : Nat) : F := ⟨LN_WATCH l, 16, 16⟩
abbrev LN_WATCH_HMIN (l : Nat) : F := ⟨LN_WATCH l, 8, 8⟩
abbrev LN_WATCH_VMIN (l : Nat) : F := ⟨LN_WATCH l, 0, 8⟩
/-- LN_ERR, R73 (02_lanes_and_ports.md). -/
abbrev LN_ERR (l : Nat) : Nat := 0x200010 + 0x400 * l
abbrev LN_ERR_COUNT (l : Nat) : F := ⟨LN_ERR l, 0, 32⟩
/-- STR_ACC, R103 (03_forwarding_and_queues.md). -/
abbrev STR_ACC : Nat := 0x400000
abbrev STR_ACC_BUSY : F := ⟨STR_ACC, 31, 1⟩
abbrev STR_ACC_ERR : F := ⟨STR_ACC, 30, 1⟩
abbrev STR_ACC_OP : F := ⟨STR_ACC, 28, 2⟩
abbrev STR_ACC_TABLE : F := ⟨STR_ACC, 24, 4⟩
abbrev STR_ACC_INDEX : F := ⟨STR_ACC, 0, 18⟩
/-- STR_DATA, R104 (03_forwarding_and_queues.md). -/
abbrev STR_DATA (i : Nat) : Nat := 0x400010 + 0x4 * i
abbrev STR_DATA_DATA (i : Nat) : F := ⟨STR_DATA i, 0, 32⟩
/-- FWD_CFG, R105 (03_forwarding_and_queues.md). -/
abbrev FWD_CFG : Nat := 0x400100
abbrev FWD_CFG_NOMATCH_DROP : F := ⟨FWD_CFG, 31, 1⟩
abbrev FWD_CFG_AGE : F := ⟨FWD_CFG, 0, 16⟩
/-- FWD_BUF, R106 (03_forwarding_and_queues.md). -/
abbrev FWD_BUF (s : Nat) : Nat := 0x401000 + 0x10 * s
abbrev FWD_BUF_ALPHA (s : Nat) : F := ⟨FWD_BUF s, 29, 3⟩
abbrev FWD_BUF_FREE (s : Nat) : F := ⟨FWD_BUF s, 0, 18⟩
/-- PRT_VLAN, R107 (03_forwarding_and_queues.md). -/
abbrev PRT_VLAN (p : Nat) : Nat := 0x100100 + 0x2000 * p
abbrev PRT_VLAN_ACCEPT (p : Nat) : F := ⟨PRT_VLAN p, 28, 2⟩
abbrev PRT_VLAN_IN_FILT (p : Nat) : F := ⟨PRT_VLAN p, 27, 1⟩
abbrev PRT_VLAN_PCP (p : Nat) : F := ⟨PRT_VLAN p, 12, 3⟩
abbrev PRT_VLAN_PVID (p : Nat) : F := ⟨PRT_VLAN p, 0, 12⟩
/-- PRT_TC_CFG, R108 (03_forwarding_and_queues.md). -/
abbrev PRT_TC_CFG (p : Nat) : Nat := 0x100104 + 0x2000 * p
abbrev PRT_TC_CFG_CT_EN (p : Nat) : F := ⟨PRT_TC_CFG p, 24, 8⟩
abbrev PRT_TC_CFG_EXPRESS (p : Nat) : F := ⟨PRT_TC_CFG p, 16, 8⟩
/-- PRT_GATE, R109 (03_forwarding_and_queues.md). -/
abbrev PRT_GATE (p : Nat) : Nat := 0x100108 + 0x2000 * p
abbrev PRT_GATE_TRQ_SAFE (p : Nat) : F := ⟨PRT_GATE p, 24, 1⟩
abbrev PRT_GATE_SAFE (p : Nat) : F := ⟨PRT_GATE p, 16, 8⟩
abbrev PRT_GATE_OPEN (p : Nat) : F := ⟨PRT_GATE p, 0, 8⟩
/-- PRT_MM, R110 (03_forwarding_and_queues.md). -/
abbrev PRT_MM (p : Nat) : Nat := 0x10010c + 0x2000 * p
abbrev PRT_MM_VTIME (p : Nat) : F := ⟨PRT_MM p, 16, 8⟩
abbrev PRT_MM_VSTAT (p : Nat) : F := ⟨PRT_MM p, 8, 2⟩
abbrev PRT_MM_HOLD (p : Nat) : F := ⟨PRT_MM p, 2, 1⟩
abbrev PRT_MM_VERIFY_DIS (p : Nat) : F := ⟨PRT_MM p, 1, 1⟩
abbrev PRT_MM_MM_EN (p : Nat) : F := ⟨PRT_MM p, 0, 1⟩
/-- PRT_QMIN, R111 (03_forwarding_and_queues.md). -/
abbrev PRT_QMIN (p : Nat) (i : Nat) : Nat := 0x100120 + 0x2000 * p + 0x4 * i
abbrev PRT_QMIN_MIN (p : Nat) (i : Nat) : F := ⟨PRT_QMIN p i, 16, 16⟩
abbrev PRT_QMIN_USE (p : Nat) (i : Nat) : F := ⟨PRT_QMIN p i, 0, 16⟩
/-- PRT_TRQ, R112 (03_forwarding_and_queues.md). -/
abbrev PRT_TRQ (p : Nat) : Nat := 0x100140 + 0x2000 * p
abbrev PRT_TRQ_DEPTH (p : Nat) : F := ⟨PRT_TRQ p, 0, 9⟩
/-- PRT_CNT_RX_FRAMES, R113 (03_forwarding_and_queues.md). -/
abbrev PRT_CNT_RX_FRAMES (p : Nat) : Nat := 0x100200 + 0x2000 * p
abbrev PRT_CNT_RX_FRAMES_COUNT (p : Nat) : F := ⟨PRT_CNT_RX_FRAMES p, 0, 32⟩
/-- PRT_CNT_RX_FRAMES_HI, R113 (03_forwarding_and_queues.md). -/
abbrev PRT_CNT_RX_FRAMES_HI (p : Nat) : Nat := 0x100204 + 0x2000 * p
abbrev PRT_CNT_RX_FRAMES_HI_COUNT (p : Nat) : F := ⟨PRT_CNT_RX_FRAMES_HI p, 0, 32⟩
/-- PRT_CNT_RX_BYTES, R113 (03_forwarding_and_queues.md). -/
abbrev PRT_CNT_RX_BYTES (p : Nat) : Nat := 0x100208 + 0x2000 * p
abbrev PRT_CNT_RX_BYTES_COUNT (p : Nat) : F := ⟨PRT_CNT_RX_BYTES p, 0, 32⟩
/-- PRT_CNT_RX_BYTES_HI, R113 (03_forwarding_and_queues.md). -/
abbrev PRT_CNT_RX_BYTES_HI (p : Nat) : Nat := 0x10020c + 0x2000 * p
abbrev PRT_CNT_RX_BYTES_HI_COUNT (p : Nat) : F := ⟨PRT_CNT_RX_BYTES_HI p, 0, 32⟩
/-- PRT_CNT_TX_FRAMES, R113 (03_forwarding_and_queues.md). -/
abbrev PRT_CNT_TX_FRAMES (p : Nat) : Nat := 0x100210 + 0x2000 * p
abbrev PRT_CNT_TX_FRAMES_COUNT (p : Nat) : F := ⟨PRT_CNT_TX_FRAMES p, 0, 32⟩
/-- PRT_CNT_TX_FRAMES_HI, R113 (03_forwarding_and_queues.md). -/
abbrev PRT_CNT_TX_FRAMES_HI (p : Nat) : Nat := 0x100214 + 0x2000 * p
abbrev PRT_CNT_TX_FRAMES_HI_COUNT (p : Nat) : F := ⟨PRT_CNT_TX_FRAMES_HI p, 0, 32⟩
/-- PRT_CNT_TX_BYTES, R113 (03_forwarding_and_queues.md). -/
abbrev PRT_CNT_TX_BYTES (p : Nat) : Nat := 0x100218 + 0x2000 * p
abbrev PRT_CNT_TX_BYTES_COUNT (p : Nat) : F := ⟨PRT_CNT_TX_BYTES p, 0, 32⟩
/-- PRT_CNT_TX_BYTES_HI, R113 (03_forwarding_and_queues.md). -/
abbrev PRT_CNT_TX_BYTES_HI (p : Nat) : Nat := 0x10021c + 0x2000 * p
abbrev PRT_CNT_TX_BYTES_HI_COUNT (p : Nat) : F := ⟨PRT_CNT_TX_BYTES_HI p, 0, 32⟩
/-- PRT_CNT_RX_BAD, R113 (03_forwarding_and_queues.md). -/
abbrev PRT_CNT_RX_BAD (p : Nat) : Nat := 0x100220 + 0x2000 * p
abbrev PRT_CNT_RX_BAD_COUNT (p : Nat) : F := ⟨PRT_CNT_RX_BAD p, 0, 32⟩
/-- PRT_CNT_RX_BAD_HI, R113 (03_forwarding_and_queues.md). -/
abbrev PRT_CNT_RX_BAD_HI (p : Nat) : Nat := 0x100224 + 0x2000 * p
abbrev PRT_CNT_RX_BAD_HI_COUNT (p : Nat) : F := ⟨PRT_CNT_RX_BAD_HI p, 0, 32⟩
/-- PRT_CNT_DROP_BUF, R113 (03_forwarding_and_queues.md). -/
abbrev PRT_CNT_DROP_BUF (p : Nat) : Nat := 0x100228 + 0x2000 * p
abbrev PRT_CNT_DROP_BUF_COUNT (p : Nat) : F := ⟨PRT_CNT_DROP_BUF p, 0, 32⟩
/-- PRT_CNT_DROP_BUF_HI, R113 (03_forwarding_and_queues.md). -/
abbrev PRT_CNT_DROP_BUF_HI (p : Nat) : Nat := 0x10022c + 0x2000 * p
abbrev PRT_CNT_DROP_BUF_HI_COUNT (p : Nat) : F := ⟨PRT_CNT_DROP_BUF_HI p, 0, 32⟩
/-- PRT_CNT_DROP_FILTER, R113 (03_forwarding_and_queues.md). -/
abbrev PRT_CNT_DROP_FILTER (p : Nat) : Nat := 0x100230 + 0x2000 * p
abbrev PRT_CNT_DROP_FILTER_COUNT (p : Nat) : F := ⟨PRT_CNT_DROP_FILTER p, 0, 32⟩
/-- PRT_CNT_DROP_FILTER_HI, R113 (03_forwarding_and_queues.md). -/
abbrev PRT_CNT_DROP_FILTER_HI (p : Nat) : Nat := 0x100234 + 0x2000 * p
abbrev PRT_CNT_DROP_FILTER_HI_COUNT (p : Nat) : F := ⟨PRT_CNT_DROP_FILTER_HI p, 0, 32⟩
/-- PRT_CNT_TRQ_LATE, R113 (03_forwarding_and_queues.md). -/
abbrev PRT_CNT_TRQ_LATE (p : Nat) : Nat := 0x100238 + 0x2000 * p
abbrev PRT_CNT_TRQ_LATE_COUNT (p : Nat) : F := ⟨PRT_CNT_TRQ_LATE p, 0, 32⟩
/-- PRT_CNT_TRQ_LATE_HI, R113 (03_forwarding_and_queues.md). -/
abbrev PRT_CNT_TRQ_LATE_HI (p : Nat) : Nat := 0x10023c + 0x2000 * p
abbrev PRT_CNT_TRQ_LATE_HI_COUNT (p : Nat) : F := ⟨PRT_CNT_TRQ_LATE_HI p, 0, 32⟩
/-- PRT_CNT_TRQ_SKIP, R113 (03_forwarding_and_queues.md). -/
abbrev PRT_CNT_TRQ_SKIP (p : Nat) : Nat := 0x100240 + 0x2000 * p
abbrev PRT_CNT_TRQ_SKIP_COUNT (p : Nat) : F := ⟨PRT_CNT_TRQ_SKIP p, 0, 32⟩
/-- PRT_CNT_TRQ_SKIP_HI, R113 (03_forwarding_and_queues.md). -/
abbrev PRT_CNT_TRQ_SKIP_HI (p : Nat) : Nat := 0x100244 + 0x2000 * p
abbrev PRT_CNT_TRQ_SKIP_HI_COUNT (p : Nat) : F := ⟨PRT_CNT_TRQ_SKIP_HI p, 0, 32⟩
/-- PRT_CNT_TRQ_FULL, R113 (03_forwarding_and_queues.md). -/
abbrev PRT_CNT_TRQ_FULL (p : Nat) : Nat := 0x100248 + 0x2000 * p
abbrev PRT_CNT_TRQ_FULL_COUNT (p : Nat) : F := ⟨PRT_CNT_TRQ_FULL p, 0, 32⟩
/-- PRT_CNT_TRQ_FULL_HI, R113 (03_forwarding_and_queues.md). -/
abbrev PRT_CNT_TRQ_FULL_HI (p : Nat) : Nat := 0x10024c + 0x2000 * p
abbrev PRT_CNT_TRQ_FULL_HI_COUNT (p : Nat) : F := ⟨PRT_CNT_TRQ_FULL_HI p, 0, 32⟩
/-- PRT_CNT_TRQ_SLIP, R113 (03_forwarding_and_queues.md). -/
abbrev PRT_CNT_TRQ_SLIP (p : Nat) : Nat := 0x100250 + 0x2000 * p
abbrev PRT_CNT_TRQ_SLIP_COUNT (p : Nat) : F := ⟨PRT_CNT_TRQ_SLIP p, 0, 32⟩
/-- PRT_CNT_TRQ_SLIP_HI, R113 (03_forwarding_and_queues.md). -/
abbrev PRT_CNT_TRQ_SLIP_HI (p : Nat) : Nat := 0x100254 + 0x2000 * p
abbrev PRT_CNT_TRQ_SLIP_HI_COUNT (p : Nat) : F := ⟨PRT_CNT_TRQ_SLIP_HI p, 0, 32⟩
/-- PRT_CNT_CT_STOMP, R113 (03_forwarding_and_queues.md). -/
abbrev PRT_CNT_CT_STOMP (p : Nat) : Nat := 0x100258 + 0x2000 * p
abbrev PRT_CNT_CT_STOMP_COUNT (p : Nat) : F := ⟨PRT_CNT_CT_STOMP p, 0, 32⟩
/-- PRT_CNT_CT_STOMP_HI, R113 (03_forwarding_and_queues.md). -/
abbrev PRT_CNT_CT_STOMP_HI (p : Nat) : Nat := 0x10025c + 0x2000 * p
abbrev PRT_CNT_CT_STOMP_HI_COUNT (p : Nat) : F := ⟨PRT_CNT_CT_STOMP_HI p, 0, 32⟩
/-- PRT_CNT_FRAG_ERR, R113 (03_forwarding_and_queues.md). -/
abbrev PRT_CNT_FRAG_ERR (p : Nat) : Nat := 0x100260 + 0x2000 * p
abbrev PRT_CNT_FRAG_ERR_COUNT (p : Nat) : F := ⟨PRT_CNT_FRAG_ERR p, 0, 32⟩
/-- PRT_CNT_FRAG_ERR_HI, R113 (03_forwarding_and_queues.md). -/
abbrev PRT_CNT_FRAG_ERR_HI (p : Nat) : Nat := 0x100264 + 0x2000 * p
abbrev PRT_CNT_FRAG_ERR_HI_COUNT (p : Nat) : F := ⟨PRT_CNT_FRAG_ERR_HI p, 0, 32⟩
/-- PRT_CNT_PREEMPT, R113 (03_forwarding_and_queues.md). -/
abbrev PRT_CNT_PREEMPT (p : Nat) : Nat := 0x100268 + 0x2000 * p
abbrev PRT_CNT_PREEMPT_COUNT (p : Nat) : F := ⟨PRT_CNT_PREEMPT p, 0, 32⟩
/-- PRT_CNT_PREEMPT_HI, R113 (03_forwarding_and_queues.md). -/
abbrev PRT_CNT_PREEMPT_HI (p : Nat) : Nat := 0x10026c + 0x2000 * p
abbrev PRT_CNT_PREEMPT_HI_COUNT (p : Nat) : F := ⟨PRT_CNT_PREEMPT_HI p, 0, 32⟩
/-- PRT_CNT_MACCTL, R113 (03_forwarding_and_queues.md). -/
abbrev PRT_CNT_MACCTL (p : Nat) : Nat := 0x100270 + 0x2000 * p
abbrev PRT_CNT_MACCTL_COUNT (p : Nat) : F := ⟨PRT_CNT_MACCTL p, 0, 32⟩
/-- PRT_CNT_MACCTL_HI, R113 (03_forwarding_and_queues.md). -/
abbrev PRT_CNT_MACCTL_HI (p : Nat) : Nat := 0x100274 + 0x2000 * p
abbrev PRT_CNT_MACCTL_HI_COUNT (p : Nat) : F := ⟨PRT_CNT_MACCTL_HI p, 0, 32⟩
/-- SP_CTL, R145 (04_schedule_processor.md). -/
abbrev SP_CTL (g : Nat) : Nat := 0x300000 + 0x10000 * g
abbrev SP_CTL_EN (g : Nat) : F := ⟨SP_CTL g, 0, 1⟩
/-- SP_STAT, R146 (04_schedule_processor.md). -/
abbrev SP_STAT (g : Nat) : Nat := 0x300004 + 0x10000 * g
abbrev SP_STAT_STATE (g : Nat) : F := ⟨SP_STAT g, 29, 3⟩
abbrev SP_STAT_INTRAP (g : Nat) : F := ⟨SP_STAT g, 28, 1⟩
abbrev SP_STAT_MCK (g : Nat) : F := ⟨SP_STAT g, 24, 4⟩
abbrev SP_STAT_HOLD_LONG (g : Nat) : F := ⟨SP_STAT g, 23, 1⟩
abbrev SP_STAT_SGATE_REF (g : Nat) : F := ⟨SP_STAT g, 22, 1⟩
abbrev SP_STAT_DEPTH (g : Nat) : F := ⟨SP_STAT g, 16, 4⟩
abbrev SP_STAT_PC (g : Nat) : F := ⟨SP_STAT g, 0, 13⟩
/-- SP_TRAP, R147 (04_schedule_processor.md). -/
abbrev SP_TRAP (g : Nat) : Nat := 0x300008 + 0x10000 * g
abbrev SP_TRAP_PEND (g : Nat) : F := ⟨SP_TRAP g, 16, 16⟩
abbrev SP_TRAP_EN (g : Nat) : F := ⟨SP_TRAP g, 4, 5⟩
/-- SP_BUDGET, R148 (04_schedule_processor.md). -/
abbrev SP_BUDGET (g : Nat) : Nat := 0x30000c + 0x10000 * g
abbrev SP_BUDGET_B (g : Nat) : F := ⟨SP_BUDGET g, 0, 20⟩
/-- SP_BUDGET_LOW, R148 (04_schedule_processor.md). -/
abbrev SP_BUDGET_LOW (g : Nat) : Nat := 0x300010 + 0x10000 * g
abbrev SP_BUDGET_LOW_LOW (g : Nat) : F := ⟨SP_BUDGET_LOW g, 0, 20⟩
/-- SP_BUDGET_USED, R148 (04_schedule_processor.md). -/
abbrev SP_BUDGET_USED (g : Nat) : Nat := 0x300014 + 0x10000 * g
abbrev SP_BUDGET_USED_USED (g : Nat) : F := ⟨SP_BUDGET_USED g, 0, 20⟩
/-- SP_HOSTREQ, R149 (04_schedule_processor.md). -/
abbrev SP_HOSTREQ (g : Nat) : Nat := 0x300018 + 0x10000 * g
abbrev SP_HOSTREQ_REQ (g : Nat) : F := ⟨SP_HOSTREQ g, 31, 1⟩
abbrev SP_HOSTREQ_ARG (g : Nat) : F := ⟨SP_HOSTREQ g, 0, 24⟩
/-- SP_TF_CTL, R150 (04_schedule_processor.md). -/
abbrev SP_TF_CTL (g : Nat) : Nat := 0x300020 + 0x10000 * g
abbrev SP_TF_CTL_VALID (g : Nat) : F := ⟨SP_TF_CTL g, 31, 1⟩
abbrev SP_TF_CTL_RESUME_WAIT (g : Nat) : F := ⟨SP_TF_CTL g, 30, 1⟩
abbrev SP_TF_CTL_CAUSE (g : Nat) : F := ⟨SP_TF_CTL g, 24, 4⟩
abbrev SP_TF_CTL_FLAGS (g : Nat) : F := ⟨SP_TF_CTL g, 16, 8⟩
abbrev SP_TF_CTL_PC (g : Nat) : F := ⟨SP_TF_CTL g, 0, 13⟩
/-- SP_TF_W, R150 (04_schedule_processor.md). -/
abbrev SP_TF_W (g : Nat) (i : Nat) : Nat := 0x300024 + 0x10000 * g + 0x4 * i
abbrev SP_TF_W_W (g : Nat) (i : Nat) : F := ⟨SP_TF_W g i, 0, 32⟩
/-- SP_CS_ADDR, R151 (04_schedule_processor.md). -/
abbrev SP_CS_ADDR (g : Nat) : Nat := 0x300040 + 0x10000 * g
abbrev SP_CS_ADDR_BUSY (g : Nat) : F := ⟨SP_CS_ADDR g, 31, 1⟩
abbrev SP_CS_ADDR_ERR (g : Nat) : F := ⟨SP_CS_ADDR g, 30, 1⟩
abbrev SP_CS_ADDR_PERR (g : Nat) : F := ⟨SP_CS_ADDR g, 29, 1⟩
abbrev SP_CS_ADDR_AUTOINC (g : Nat) : F := ⟨SP_CS_ADDR g, 28, 1⟩
abbrev SP_CS_ADDR_OP (g : Nat) : F := ⟨SP_CS_ADDR g, 26, 2⟩
abbrev SP_CS_ADDR_ADDR (g : Nat) : F := ⟨SP_CS_ADDR g, 0, 13⟩
/-- SP_CS_DATA, R152 (04_schedule_processor.md). -/
abbrev SP_CS_DATA (g : Nat) (i : Nat) : Nat := 0x300044 + 0x10000 * g + 0x4 * i
abbrev SP_CS_DATA_DATA (g : Nat) (i : Nat) : F := ⟨SP_CS_DATA g i, 0, 32⟩
/-- SP_CS_DATA4, R152 (04_schedule_processor.md). -/
abbrev SP_CS_DATA4 (g : Nat) : Nat := 0x300054 + 0x10000 * g
abbrev SP_CS_DATA4_PAR (g : Nat) : F := ⟨SP_CS_DATA4 g, 0, 8⟩
/-- SP_MCK, R153 (04_schedule_processor.md). -/
abbrev SP_MCK (g : Nat) : Nat := 0x300058 + 0x10000 * g
abbrev SP_MCK_SYND (g : Nat) : F := ⟨SP_MCK g, 16, 8⟩
abbrev SP_MCK_ADDR (g : Nat) : F := ⟨SP_MCK g, 0, 13⟩
/-- SP_CNT, R154 (04_schedule_processor.md). -/
abbrev SP_CNT (g : Nat) : Nat := 0x300060 + 0x10000 * g
abbrev SP_CNT_OVERRUNS (g : Nat) : F := ⟨SP_CNT g, 16, 16⟩
abbrev SP_CNT_TRAPS (g : Nat) : F := ⟨SP_CNT g, 0, 16⟩
/-- CRF_CTL, R208 (06_carafe.md). -/
abbrev CRF_CTL : Nat := 0x500000
abbrev CRF_CTL_ETYPE : F := ⟨CRF_CTL, 16, 16⟩
abbrev CRF_CTL_RUN : F := ⟨CRF_CTL, 0, 1⟩
/-- CRF_SA_HI, R209 (06_carafe.md). -/
abbrev CRF_SA_HI : Nat := 0x500004
abbrev CRF_SA_HI_SA_HI : F := ⟨CRF_SA_HI, 0, 32⟩
/-- CRF_SA_LO, R209 (06_carafe.md). -/
abbrev CRF_SA_LO : Nat := 0x500008
abbrev CRF_SA_LO_SA_LO : F := ⟨CRF_SA_LO, 16, 16⟩
/-- CRF_CAR_CFG, R210 (06_carafe.md). -/
abbrev CRF_CAR_CFG (c : Nat) : Nat := 0x501000 + 0x40 * c
abbrev CRF_CAR_CFG_EN (c : Nat) : F := ⟨CRF_CAR_CFG c, 31, 1⟩
abbrev CRF_CAR_CFG_HEAD (c : Nat) : F := ⟨CRF_CAR_CFG c, 30, 1⟩
abbrev CRF_CAR_CFG_DLEN (c : Nat) : F := ⟨CRF_CAR_CFG c, 16, 14⟩
abbrev CRF_CAR_CFG_CID (c : Nat) : F := ⟨CRF_CAR_CFG c, 0, 16⟩
/-- CRF_CAR_RING, R211 (06_carafe.md). -/
abbrev CRF_CAR_RING (c : Nat) : Nat := 0x501004 + 0x40 * c
abbrev CRF_CAR_RING_A_IN (c : Nat) : F := ⟨CRF_CAR_RING c, 24, 7⟩
abbrev CRF_CAR_RING_A_OUT (c : Nat) : F := ⟨CRF_CAR_RING c, 16, 7⟩
abbrev CRF_CAR_RING_B_IN (c : Nat) : F := ⟨CRF_CAR_RING c, 8, 7⟩
abbrev CRF_CAR_RING_B_OUT (c : Nat) : F := ⟨CRF_CAR_RING c, 0, 7⟩
/-- CRF_CAR_LOFS, R212 (06_carafe.md). -/
abbrev CRF_CAR_LOFS (c : Nat) : Nat := 0x501008 + 0x40 * c
abbrev CRF_CAR_LOFS_LOFS (c : Nat) : F := ⟨CRF_CAR_LOFS c, 0, 21⟩
/-- CRF_CAR_RDL, R212 (06_carafe.md). -/
abbrev CRF_CAR_RDL (c : Nat) : Nat := 0x50100c + 0x40 * c
abbrev CRF_CAR_RDL_RDL (c : Nat) : F := ⟨CRF_CAR_RDL c, 0, 21⟩
/-- CRF_CAR_POS, R212 (06_carafe.md). -/
abbrev CRF_CAR_POS (c : Nat) : Nat := 0x501010 + 0x40 * c
abbrev CRF_CAR_POS_HLAST (c : Nat) : F := ⟨CRF_CAR_POS c, 8, 8⟩
abbrev CRF_CAR_POS_NST (c : Nat) : F := ⟨CRF_CAR_POS c, 0, 8⟩
/-- CRF_CAR_CNT0, R213 (06_carafe.md). -/
abbrev CRF_CAR_CNT0 (c : Nat) : Nat := 0x501014 + 0x40 * c
abbrev CRF_CAR_CNT0_DROP_TICK (c : Nat) : F := ⟨CRF_CAR_CNT0 c, 16, 16⟩
abbrev CRF_CAR_CNT0_MISMATCH (c : Nat) : F := ⟨CRF_CAR_CNT0 c, 0, 16⟩
/-- CRF_CAR_CNT1, R213 (06_carafe.md). -/
abbrev CRF_CAR_CNT1 (c : Nat) : Nat := 0x501018 + 0x40 * c
abbrev CRF_CAR_CNT1_SLIP (c : Nat) : F := ⟨CRF_CAR_CNT1 c, 16, 16⟩
abbrev CRF_CAR_CNT1_DROP_LINK (c : Nat) : F := ⟨CRF_CAR_CNT1 c, 0, 16⟩
/-- CRF_ST_CFG, R214 (06_carafe.md). -/
abbrev CRF_ST_CFG (s : Nat) : Nat := 0x502000 + 0x40 * s
abbrev CRF_ST_CFG_EN (s : Nat) : F := ⟨CRF_ST_CFG s, 31, 1⟩
abbrev CRF_ST_CFG_HOSTB (s : Nat) : F := ⟨CRF_ST_CFG s, 30, 1⟩
abbrev CRF_ST_CFG_CAR (s : Nat) : F := ⟨CRF_ST_CFG s, 24, 6⟩
abbrev CRF_ST_CFG_POS (s : Nat) : F := ⟨CRF_ST_CFG s, 16, 8⟩
abbrev CRF_ST_CFG_SP (s : Nat) : F := ⟨CRF_ST_CFG s, 12, 4⟩
/-- CRF_ST_SLOTS, R215 (06_carafe.md). -/
abbrev CRF_ST_SLOTS (s : Nat) : Nat := 0x502004 + 0x40 * s
abbrev CRF_ST_SLOTS_IN (s : Nat) : F := ⟨CRF_ST_SLOTS s, 8, 8⟩
abbrev CRF_ST_SLOTS_OUT (s : Nat) : F := ⟨CRF_ST_SLOTS s, 0, 8⟩
/-- CRF_ST_GIVEUP, R215 (06_carafe.md). -/
abbrev CRF_ST_GIVEUP (s : Nat) : Nat := 0x50200c + 0x40 * s
abbrev CRF_ST_GIVEUP_GIVEUP (s : Nat) : F := ⟨CRF_ST_GIVEUP s, 0, 21⟩
/-- CRF_ST_POUR, R216 (06_carafe.md). -/
abbrev CRF_ST_POUR (s : Nat) : Nat := 0x502008 + 0x40 * s
abbrev CRF_ST_POUR_OFS (s : Nat) : F := ⟨CRF_ST_POUR s, 16, 14⟩
abbrev CRF_ST_POUR_LEN (s : Nat) : F := ⟨CRF_ST_POUR s, 0, 11⟩
/-- CRF_ST_SIPA, R216 (06_carafe.md). -/
abbrev CRF_ST_SIPA (s : Nat) (k : Nat) : Nat := 0x502010 + 0x40 * s + 0x8 * k
abbrev CRF_ST_SIPA_EN (s : Nat) (k : Nat) : F := ⟨CRF_ST_SIPA s k, 31, 1⟩
abbrev CRF_ST_SIPA_OWNER (s : Nat) (k : Nat) : F := ⟨CRF_ST_SIPA s k, 16, 8⟩
abbrev CRF_ST_SIPA_OFS (s : Nat) (k : Nat) : F := ⟨CRF_ST_SIPA s k, 0, 14⟩
/-- CRF_ST_SIPB, R216 (06_carafe.md). -/
abbrev CRF_ST_SIPB (s : Nat) (k : Nat) : Nat := 0x502014 + 0x40 * s + 0x8 * k
abbrev CRF_ST_SIPB_BOFS (s : Nat) (k : Nat) : F := ⟨CRF_ST_SIPB s k, 16, 11⟩
abbrev CRF_ST_SIPB_LEN (s : Nat) (k : Nat) : F := ⟨CRF_ST_SIPB s k, 0, 12⟩
/-- CRF_ST_STAT, R217 (06_carafe.md). -/
abbrev CRF_ST_STAT (s : Nat) : Nat := 0x502030 + 0x40 * s
abbrev CRF_ST_STAT_TICK (s : Nat) : F := ⟨CRF_ST_STAT s, 16, 16⟩
abbrev CRF_ST_STAT_AGE (s : Nat) : F := ⟨CRF_ST_STAT s, 8, 8⟩
abbrev CRF_ST_STAT_STALE (s : Nat) : F := ⟨CRF_ST_STAT s, 4, 1⟩
abbrev CRF_ST_STAT_INTEG (s : Nat) : F := ⟨CRF_ST_STAT s, 3, 1⟩
abbrev CRF_ST_STAT_POUR_OPEN (s : Nat) : F := ⟨CRF_ST_STAT s, 2, 1⟩
abbrev CRF_ST_STAT_READY (s : Nat) : F := ⟨CRF_ST_STAT s, 1, 1⟩
abbrev CRF_ST_STAT_ARRIVED (s : Nat) : F := ⟨CRF_ST_STAT s, 0, 1⟩
/-- CRF_ST_CNT0, R218 (06_carafe.md). -/
abbrev CRF_ST_CNT0 (s : Nat) : Nat := 0x502034 + 0x40 * s
abbrev CRF_ST_CNT0_LOST (s : Nat) : F := ⟨CRF_ST_CNT0 s, 16, 16⟩
abbrev CRF_ST_CNT0_FAIL (s : Nat) : F := ⟨CRF_ST_CNT0 s, 0, 16⟩
/-- CRF_ST_CNT1, R218 (06_carafe.md). -/
abbrev CRF_ST_CNT1 (s : Nat) : Nat := 0x502038 + 0x40 * s
abbrev CRF_ST_CNT1_LATE (s : Nat) : F := ⟨CRF_ST_CNT1 s, 16, 16⟩
abbrev CRF_ST_CNT1_GAP (s : Nat) : F := ⟨CRF_ST_CNT1 s, 0, 16⟩
/-- CRF_HD_EXP, R219 (06_carafe.md). -/
abbrev CRF_HD_EXP (c : Nat) (k : Nat) : Nat := 0x504000 + 0x40 * c + 0x4 * k
abbrev CRF_HD_EXP_EXP (c : Nat) (k : Nat) : F := ⟨CRF_HD_EXP c k, 0, 32⟩
/-- CRF_HD_STAT, R219 (06_carafe.md). -/
abbrev CRF_HD_STAT (c : Nat) : Nat := 0x504020 + 0x40 * c
abbrev CRF_HD_STAT_VALID_A (c : Nat) : F := ⟨CRF_HD_STAT c, 31, 1⟩
abbrev CRF_HD_STAT_VALID_B (c : Nat) : F := ⟨CRF_HD_STAT c, 30, 1⟩
abbrev CRF_HD_STAT_WKC_ERR (c : Nat) : F := ⟨CRF_HD_STAT c, 29, 1⟩
abbrev CRF_HD_STAT_DIVERGE (c : Nat) : F := ⟨CRF_HD_STAT c, 28, 1⟩
abbrev CRF_HD_STAT_REUSE (c : Nat) : F := ⟨CRF_HD_STAT c, 27, 1⟩
abbrev CRF_HD_STAT_FIRST (c : Nat) : F := ⟨CRF_HD_STAT c, 26, 1⟩
abbrev CRF_HD_STAT_WKC_POS (c : Nat) : F := ⟨CRF_HD_STAT c, 16, 8⟩
abbrev CRF_HD_STAT_TICK (c : Nat) : F := ⟨CRF_HD_STAT c, 0, 16⟩
/-- CRF_HD_TRIP, R219 (06_carafe.md). -/
abbrev CRF_HD_TRIP (c : Nat) (x : Nat) : Nat := 0x504024 + 0x40 * c + 0x4 * x
abbrev CRF_HD_TRIP_TRIP (c : Nat) (x : Nat) : F := ⟨CRF_HD_TRIP c x, 0, 32⟩
/-- CRF_HD_LINK, R219 (06_carafe.md). -/
abbrev CRF_HD_LINK (c : Nat) (x : Nat) : Nat := 0x50402c + 0x40 * c + 0x4 * x
abbrev CRF_HD_LINK_LINK (c : Nat) (x : Nat) : F := ⟨CRF_HD_LINK c x, 0, 32⟩
/-- CRF_HD_ASYM, R219 (06_carafe.md). -/
abbrev CRF_HD_ASYM (c : Nat) : Nat := 0x504034 + 0x40 * c
abbrev CRF_HD_ASYM_ASYM (c : Nat) : F := ⟨CRF_HD_ASYM c, 0, 32⟩
/-- CRF_HD_CNT, R219 (06_carafe.md). -/
abbrev CRF_HD_CNT (c : Nat) : Nat := 0x504038 + 0x40 * c
abbrev CRF_HD_CNT_LOSS (c : Nat) : F := ⟨CRF_HD_CNT c, 16, 16⟩
abbrev CRF_HD_CNT_DLOSS (c : Nat) : F := ⟨CRF_HD_CNT c, 0, 16⟩
/-- CRF_HD_CNT2, R219 (06_carafe.md). -/
abbrev CRF_HD_CNT2 (c : Nat) : Nat := 0x50403c + 0x40 * c
abbrev CRF_HD_CNT2_WKC (c : Nat) : F := ⟨CRF_HD_CNT2 c, 16, 16⟩
abbrev CRF_HD_CNT2_DIV (c : Nat) : F := ⟨CRF_HD_CNT2 c, 0, 16⟩
/-- FRER_ACC, R240 (07_redundancy.md). -/
abbrev FRER_ACC : Nat := 0x600000
abbrev FRER_ACC_BUSY : F := ⟨FRER_ACC, 31, 1⟩
abbrev FRER_ACC_ERR : F := ⟨FRER_ACC, 30, 1⟩
abbrev FRER_ACC_OP : F := ⟨FRER_ACC, 28, 2⟩
abbrev FRER_ACC_TABLE : F := ⟨FRER_ACC, 24, 4⟩
abbrev FRER_ACC_INDEX : F := ⟨FRER_ACC, 0, 16⟩
/-- FRER_DATA, R241 (07_redundancy.md). -/
abbrev FRER_DATA (i : Nat) : Nat := 0x600010 + 0x4 * i
abbrev FRER_DATA_DATA (i : Nat) : F := ⟨FRER_DATA i, 0, 32⟩
/-- DUP_CFG, R242 (07_redundancy.md). -/
abbrev DUP_CFG : Nat := 0x600100
abbrev DUP_CFG_NODE_FORGET : F := ⟨DUP_CFG, 16, 16⟩
abbrev DUP_CFG_FORGET_MS : F := ⟨DUP_CFG, 0, 16⟩
/-- DUP_RG_CFG, R243 (07_redundancy.md). -/
abbrev DUP_RG_CFG (r : Nat) : Nat := 0x601000 + 0x10 * r
abbrev DUP_RG_CFG_EN (r : Nat) : F := ⟨DUP_RG_CFG r, 31, 1⟩
abbrev DUP_RG_CFG_MODE (r : Nat) : F := ⟨DUP_RG_CFG r, 30, 1⟩
abbrev DUP_RG_CFG_NETID (r : Nat) : F := ⟨DUP_RG_CFG r, 27, 3⟩
abbrev DUP_RG_CFG_PORT_A (r : Nat) : F := ⟨DUP_RG_CFG r, 16, 7⟩
abbrev DUP_RG_CFG_PORT_B (r : Nat) : F := ⟨DUP_RG_CFG r, 8, 7⟩
abbrev DUP_RG_CFG_HIST (r : Nat) : F := ⟨DUP_RG_CFG r, 0, 8⟩
/-- DUP_RG_POOL, R243 (07_redundancy.md). -/
abbrev DUP_RG_POOL (r : Nat) : Nat := 0x601004 + 0x10 * r
abbrev DUP_RG_POOL_BASE (r : Nat) : F := ⟨DUP_RG_POOL r, 16, 14⟩
abbrev DUP_RG_POOL_N (r : Nat) : F := ⟨DUP_RG_POOL r, 0, 13⟩
/-- DUP_RG_CNT, R244 (07_redundancy.md). -/
abbrev DUP_RG_CNT (r : Nat) : Nat := 0x601008 + 0x10 * r
abbrev DUP_RG_CNT_OWN (r : Nat) : F := ⟨DUP_RG_CNT r, 16, 16⟩
abbrev DUP_RG_CNT_NOSLOT (r : Nat) : F := ⟨DUP_RG_CNT r, 0, 16⟩
/-- PRT_RED, R245 (07_redundancy.md). -/
abbrev PRT_RED (p : Nat) : Nat := 0x100180 + 0x2000 * p
abbrev PRT_RED_RTAG_TX (p : Nat) : F := ⟨PRT_RED p, 0, 1⟩
/-- PRT_RED_CNT, R246 (07_redundancy.md). -/
abbrev PRT_RED_CNT (p : Nat) : Nat := 0x100184 + 0x2000 * p
abbrev PRT_RED_CNT_OVERSIZE (p : Nat) : F := ⟨PRT_RED_CNT p, 16, 16⟩
abbrev PRT_RED_CNT_BAD_TAG (p : Nat) : F := ⟨PRT_RED_CNT p, 0, 16⟩
/-- PRT_GRD_CTL, R262 (08_guardian_and_network_start.md). -/
abbrev PRT_GRD_CTL (p : Nat) : Nat := 0x100400 + 0x2000 * p
abbrev PRT_GRD_CTL_EN (p : Nat) : F := ⟨PRT_GRD_CTL p, 31, 1⟩
abbrev PRT_GRD_CTL_NSLOT (p : Nat) : F := ⟨PRT_GRD_CTL p, 16, 7⟩
abbrev PRT_GRD_CTL_TICKS (p : Nat) : F := ⟨PRT_GRD_CTL p, 0, 16⟩
/-- PRT_GRD_GUARD, R263 (08_guardian_and_network_start.md). -/
abbrev PRT_GRD_GUARD (p : Nat) : Nat := 0x100404 + 0x2000 * p
abbrev PRT_GRD_GUARD_GUARD (p : Nat) : F := ⟨PRT_GRD_GUARD p, 0, 16⟩
/-- PRT_GRD_SU, R263 (08_guardian_and_network_start.md). -/
abbrev PRT_GRD_SU (p : Nat) : Nat := 0x100408 + 0x2000 * p
abbrev PRT_GRD_SU_ETYPE (p : Nat) : F := ⟨PRT_GRD_SU p, 16, 16⟩
abbrev PRT_GRD_SU_MINGAP (p : Nat) : F := ⟨PRT_GRD_SU p, 0, 16⟩
/-- PRT_GRD_STAT, R264 (08_guardian_and_network_start.md). -/
abbrev PRT_GRD_STAT (p : Nat) : Nat := 0x10040c + 0x2000 * p
abbrev PRT_GRD_STAT_STATE (p : Nat) : F := ⟨PRT_GRD_STAT p, 0, 2⟩
/-- PRT_GRD_LAST, R264 (08_guardian_and_network_start.md). -/
abbrev PRT_GRD_LAST (p : Nat) : Nat := 0x100410 + 0x2000 * p
abbrev PRT_GRD_LAST_DEV (p : Nat) : F := ⟨PRT_GRD_LAST p, 0, 32⟩
/-- PRT_GRD_CNT0, R265 (08_guardian_and_network_start.md). -/
abbrev PRT_GRD_CNT0 (p : Nat) : Nat := 0x100414 + 0x2000 * p
abbrev PRT_GRD_CNT0_EARLY (p : Nat) : F := ⟨PRT_GRD_CNT0 p, 16, 16⟩
abbrev PRT_GRD_CNT0_LATE (p : Nat) : F := ⟨PRT_GRD_CNT0 p, 0, 16⟩
/-- PRT_GRD_CNT1, R265 (08_guardian_and_network_start.md). -/
abbrev PRT_GRD_CNT1 (p : Nat) : Nat := 0x100418 + 0x2000 * p
abbrev PRT_GRD_CNT1_OUTSIDE (p : Nat) : F := ⟨PRT_GRD_CNT1 p, 16, 16⟩
abbrev PRT_GRD_CNT1_TRUNC (p : Nat) : F := ⟨PRT_GRD_CNT1 p, 0, 16⟩
/-- PRT_GRD_CNT2, R265 (08_guardian_and_network_start.md). -/
abbrev PRT_GRD_CNT2 (p : Nat) : Nat := 0x10041c + 0x2000 * p
abbrev PRT_GRD_CNT2_SU_BLOCK (p : Nat) : F := ⟨PRT_GRD_CNT2 p, 0, 16⟩
/-- PRT_GRD_OFS, R266 (08_guardian_and_network_start.md). -/
abbrev PRT_GRD_OFS (p : Nat) (i : Nat) : Nat := 0x100800 + 0x2000 * p + 0x8 * i
abbrev PRT_GRD_OFS_OFS (p : Nat) (i : Nat) : F := ⟨PRT_GRD_OFS p i, 0, 32⟩
/-- PRT_GRD_LEN, R266 (08_guardian_and_network_start.md). -/
abbrev PRT_GRD_LEN (p : Nat) (i : Nat) : Nat := 0x100804 + 0x2000 * p + 0x8 * i
abbrev PRT_GRD_LEN_LEN (p : Nat) (i : Nat) : F := ⟨PRT_GRD_LEN p i, 0, 24⟩
/-- PRT_CS_DLY, R267 (08_guardian_and_network_start.md). -/
abbrev PRT_CS_DLY (p : Nat) : Nat := 0x100420 + 0x2000 * p
abbrev PRT_CS_DLY_DLY (p : Nat) : F := ⟨PRT_CS_DLY p, 0, 16⟩
/-- SYN_CS_CTL, R268 (08_guardian_and_network_start.md). -/
abbrev SYN_CS_CTL (n : Nat) : Nat := 0x58000 + 0x40 * n
abbrev SYN_CS_CTL_EN (n : Nat) : F := ⟨SYN_CS_CTL n, 31, 1⟩
abbrev SYN_CS_CTL_RESTART (n : Nat) : F := ⟨SYN_CS_CTL n, 30, 1⟩
abbrev SYN_CS_CTL_DOMAIN (n : Nat) : F := ⟨SYN_CS_CTL n, 16, 8⟩
abbrev SYN_CS_CTL_HOPS (n : Nat) : F := ⟨SYN_CS_CTL n, 8, 8⟩
abbrev SYN_CS_CTL_ID (n : Nat) : F := ⟨SYN_CS_CTL n, 0, 8⟩
/-- SYN_CS_WAIT, R269 (08_guardian_and_network_start.md). -/
abbrev SYN_CS_WAIT (n : Nat) : Nat := 0x58004 + 0x40 * n
abbrev SYN_CS_WAIT_WAIT (n : Nat) : F := ⟨SYN_CS_WAIT n, 0, 24⟩
/-- SYN_CS_SLOT, R269 (08_guardian_and_network_start.md). -/
abbrev SYN_CS_SLOT (n : Nat) : Nat := 0x58008 + 0x40 * n
abbrev SYN_CS_SLOT_BACKOFF (n : Nat) : F := ⟨SYN_CS_SLOT n, 16, 16⟩
abbrev SYN_CS_SLOT_SLOT (n : Nat) : F := ⟨SYN_CS_SLOT n, 0, 16⟩
/-- SYN_CS_PER, R269 (08_guardian_and_network_start.md). -/
abbrev SYN_CS_PER (n : Nat) : Nat := 0x5800c + 0x40 * n
abbrev SYN_CS_PER_PERIOD (n : Nat) : F := ⟨SYN_CS_PER n, 16, 16⟩
abbrev SYN_CS_PER_TOL (n : Nat) : F := ⟨SYN_CS_PER n, 0, 16⟩
/-- SYN_CS_PORTS, R270 (08_guardian_and_network_start.md). -/
abbrev SYN_CS_PORTS (n : Nat) (k : Nat) : Nat := 0x58010 + 0x40 * n + 0x4 * k
abbrev SYN_CS_PORTS_PORTS (n : Nat) (k : Nat) : F := ⟨SYN_CS_PORTS n k, 0, 32⟩
/-- SYN_CS_STAT, R271 (08_guardian_and_network_start.md). -/
abbrev SYN_CS_STAT (n : Nat) : Nat := 0x58020 + 0x40 * n
abbrev SYN_CS_STAT_FROM (n : Nat) : F := ⟨SYN_CS_STAT n, 24, 8⟩
abbrev SYN_CS_STAT_STATE (n : Nat) : F := ⟨SYN_CS_STAT n, 0, 3⟩
/-- SYN_CS_CNT, R271 (08_guardian_and_network_start.md). -/
abbrev SYN_CS_CNT (n : Nat) : Nat := 0x58024 + 0x40 * n
abbrev SYN_CS_CNT_COLL (n : Nat) : F := ⟨SYN_CS_CNT n, 16, 16⟩
abbrev SYN_CS_CNT_INTEG (n : Nat) : F := ⟨SYN_CS_CNT n, 0, 16⟩
/-- SYN_CS_STEP, R271 (08_guardian_and_network_start.md). -/
abbrev SYN_CS_STEP (n : Nat) : Nat := 0x58028 + 0x40 * n
abbrev SYN_CS_STEP_STEP (n : Nat) : F := ⟨SYN_CS_STEP n, 0, 32⟩
/-- TB_CTL, R298 (09_time_bases.md). -/
abbrev TB_CTL (n : Nat) : Nat := 0x40000 + 0x100 * n
abbrev TB_CTL_MODE (n : Nat) : F := ⟨TB_CTL n, 0, 2⟩
/-- TB_NS, R299 (09_time_bases.md). -/
abbrev TB_NS (n : Nat) : Nat := 0x40004 + 0x100 * n
abbrev TB_NS_NS (n : Nat) : F := ⟨TB_NS n, 0, 32⟩
/-- TB_FRAC, R299 (09_time_bases.md). -/
abbrev TB_FRAC (n : Nat) : Nat := 0x40008 + 0x100 * n
abbrev TB_FRAC_FRAC (n : Nat) : F := ⟨TB_FRAC n, 16, 16⟩
/-- TB_INC_LO, R300 (09_time_bases.md). -/
abbrev TB_INC_LO (n : Nat) : Nat := 0x4000c + 0x100 * n
abbrev TB_INC_LO_INC_LO (n : Nat) : F := ⟨TB_INC_LO n, 0, 32⟩
/-- TB_INC_HI, R300 (09_time_bases.md). -/
abbrev TB_INC_HI (n : Nat) : Nat := 0x40010 + 0x100 * n
abbrev TB_INC_HI_INC_HI (n : Nat) : F := ⟨TB_INC_HI n, 0, 16⟩
/-- TB_SERVO_LO, R301 (09_time_bases.md). -/
abbrev TB_SERVO_LO (n : Nat) : Nat := 0x40014 + 0x100 * n
abbrev TB_SERVO_LO_SERVO_LO (n : Nat) : F := ⟨TB_SERVO_LO n, 0, 32⟩
/-- TB_SERVO_HI, R301 (09_time_bases.md). -/
abbrev TB_SERVO_HI (n : Nat) : Nat := 0x40018 + 0x100 * n
abbrev TB_SERVO_HI_SERVO_HI (n : Nat) : F := ⟨TB_SERVO_HI n, 0, 16⟩
/-- TB_STEP_FRAC, R302 (09_time_bases.md). -/
abbrev TB_STEP_FRAC (n : Nat) : Nat := 0x4001c + 0x100 * n
abbrev TB_STEP_FRAC_FRAC (n : Nat) : F := ⟨TB_STEP_FRAC n, 16, 16⟩
/-- TB_STEP_NS, R302 (09_time_bases.md). -/
abbrev TB_STEP_NS (n : Nat) : Nat := 0x40020 + 0x100 * n
abbrev TB_STEP_NS_NS (n : Nat) : F := ⟨TB_STEP_NS n, 0, 32⟩
/-- TB_STAT, R303 (09_time_bases.md). -/
abbrev TB_STAT (n : Nat) : Nat := 0x40024 + 0x100 * n
abbrev TB_STAT_WRAPS (n : Nat) : F := ⟨TB_STAT n, 16, 16⟩
abbrev TB_STAT_RATE_CLAMP (n : Nat) : F := ⟨TB_STAT n, 2, 1⟩
abbrev TB_STAT_CLAMPED (n : Nat) : F := ⟨TB_STAT n, 1, 1⟩
abbrev TB_STAT_STEPPED (n : Nat) : F := ⟨TB_STAT n, 0, 1⟩
/-- TB_STEP_SUM, R304 (09_time_bases.md). -/
abbrev TB_STEP_SUM (n : Nat) : Nat := 0x40028 + 0x100 * n
abbrev TB_STEP_SUM_SUM (n : Nat) : F := ⟨TB_STEP_SUM n, 0, 32⟩
/-- TB_CLK_STAT, R305 (09_time_bases.md). -/
abbrev TB_CLK_STAT : Nat := 0x40900
abbrev TB_CLK_STAT_LOCK : F := ⟨TB_CLK_STAT, 3, 1⟩
abbrev TB_CLK_STAT_REF_LOST : F := ⟨TB_CLK_STAT, 2, 1⟩
abbrev TB_CLK_STAT_REF : F := ⟨TB_CLK_STAT, 0, 2⟩
/-- TB_SNAP, R306 (09_time_bases.md). -/
abbrev TB_SNAP : Nat := 0x40904
abbrev TB_SNAP_GO : F := ⟨TB_SNAP, 31, 1⟩
abbrev TB_SNAP_SEQ : F := ⟨TB_SNAP, 0, 16⟩
/-- TB_SNAP_NS, R306 (09_time_bases.md). -/
abbrev TB_SNAP_NS (n : Nat) : Nat := 0x40910 + 0x8 * n
abbrev TB_SNAP_NS_NS (n : Nat) : F := ⟨TB_SNAP_NS n, 0, 32⟩
/-- TB_SNAP_FR, R306 (09_time_bases.md). -/
abbrev TB_SNAP_FR (n : Nat) : Nat := 0x40914 + 0x8 * n
abbrev TB_SNAP_FR_FRAC (n : Nat) : F := ⟨TB_SNAP_FR n, 16, 16⟩
/-- TB_EVIN_CTL, R307 (09_time_bases.md). -/
abbrev TB_EVIN_CTL (i : Nat) : Nat := 0x41000 + 0x10 * i
abbrev TB_EVIN_CTL_EN (i : Nat) : F := ⟨TB_EVIN_CTL i, 31, 1⟩
abbrev TB_EVIN_CTL_EVT_EN (i : Nat) : F := ⟨TB_EVIN_CTL i, 30, 1⟩
abbrev TB_EVIN_CTL_EDGE (i : Nat) : F := ⟨TB_EVIN_CTL i, 28, 2⟩
abbrev TB_EVIN_CTL_TB (i : Nat) : F := ⟨TB_EVIN_CTL i, 16, 3⟩
abbrev TB_EVIN_CTL_MISSED (i : Nat) : F := ⟨TB_EVIN_CTL i, 0, 16⟩
/-- TB_EVIN_STAMP0, R307 (09_time_bases.md). -/
abbrev TB_EVIN_STAMP0 (i : Nat) : Nat := 0x41004 + 0x10 * i
abbrev TB_EVIN_STAMP0_NS (i : Nat) : F := ⟨TB_EVIN_STAMP0 i, 0, 32⟩
/-- TB_EVIN_STAMP1, R307 (09_time_bases.md). -/
abbrev TB_EVIN_STAMP1 (i : Nat) : Nat := 0x41008 + 0x10 * i
abbrev TB_EVIN_STAMP1_FRAC (i : Nat) : F := ⟨TB_EVIN_STAMP1 i, 16, 16⟩
abbrev TB_EVIN_STAMP1_VALID (i : Nat) : F := ⟨TB_EVIN_STAMP1 i, 7, 1⟩
abbrev TB_EVIN_STAMP1_LEVEL (i : Nat) : F := ⟨TB_EVIN_STAMP1 i, 0, 5⟩
/-- TB_EVIN_STAMP2, R307 (09_time_bases.md). -/
abbrev TB_EVIN_STAMP2 (i : Nat) : Nat := 0x4100c + 0x10 * i
abbrev TB_EVIN_STAMP2_TBL_NS (i : Nat) : F := ⟨TB_EVIN_STAMP2 i, 0, 32⟩
/-- TB_PPSO_CTL, R308 (09_time_bases.md). -/
abbrev TB_PPSO_CTL (j : Nat) : Nat := 0x41200 + 0x10 * j
abbrev TB_PPSO_CTL_EN (j : Nat) : F := ⟨TB_PPSO_CTL j, 31, 1⟩
abbrev TB_PPSO_CTL_LATE (j : Nat) : F := ⟨TB_PPSO_CTL j, 30, 1⟩
abbrev TB_PPSO_CTL_TB (j : Nat) : F := ⟨TB_PPSO_CTL j, 16, 3⟩
abbrev TB_PPSO_CTL_WIDTH (j : Nat) : F := ⟨TB_PPSO_CTL j, 0, 16⟩
/-- TB_PPSO_NEXT, R308 (09_time_bases.md). -/
abbrev TB_PPSO_NEXT (j : Nat) : Nat := 0x41204 + 0x10 * j
abbrev TB_PPSO_NEXT_NEXT (j : Nat) : F := ⟨TB_PPSO_NEXT j, 0, 32⟩
/-- TB_PPSO_PER, R308 (09_time_bases.md). -/
abbrev TB_PPSO_PER (j : Nat) : Nat := 0x41208 + 0x10 * j
abbrev TB_PPSO_PER_PER (j : Nat) : F := ⟨TB_PPSO_PER j, 0, 32⟩
/-- TB_CMP_CTL, R309 (09_time_bases.md). -/
abbrev TB_CMP_CTL (k : Nat) : Nat := 0x41400 + 0x10 * k
abbrev TB_CMP_CTL_EN (k : Nat) : F := ⟨TB_CMP_CTL k, 31, 1⟩
abbrev TB_CMP_CTL_LATE (k : Nat) : F := ⟨TB_CMP_CTL k, 30, 1⟩
abbrev TB_CMP_CTL_EVT_EN (k : Nat) : F := ⟨TB_CMP_CTL k, 29, 1⟩
abbrev TB_CMP_CTL_TB (k : Nat) : F := ⟨TB_CMP_CTL k, 0, 3⟩
/-- TB_CMP_TARGET, R309 (09_time_bases.md). -/
abbrev TB_CMP_TARGET (k : Nat) : Nat := 0x41404 + 0x10 * k
abbrev TB_CMP_TARGET_TARGET (k : Nat) : F := ⟨TB_CMP_TARGET k, 0, 32⟩
/-- TB_CMP_PER, R309 (09_time_bases.md). -/
abbrev TB_CMP_PER (k : Nat) : Nat := 0x41408 + 0x10 * k
abbrev TB_CMP_PER_PER (k : Nat) : F := ⟨TB_CMP_PER k, 0, 32⟩
/-- TB_CMP_CNT, R309 (09_time_bases.md). -/
abbrev TB_CMP_CNT (k : Nat) : Nat := 0x4140c + 0x10 * k
abbrev TB_CMP_CNT_CNT (k : Nat) : F := ⟨TB_CMP_CNT k, 0, 32⟩
/-- TB_VLAT_NS, R310 (09_time_bases.md). -/
abbrev TB_VLAT_NS (v : Nat) : Nat := 0x48000 + 0x10 * v
abbrev TB_VLAT_NS_NS (v : Nat) : F := ⟨TB_VLAT_NS v, 0, 32⟩
/-- TB_VLAT_CTL, R310 (09_time_bases.md). -/
abbrev TB_VLAT_CTL (v : Nat) : Nat := 0x48004 + 0x10 * v
abbrev TB_VLAT_CTL_FRAC (v : Nat) : F := ⟨TB_VLAT_CTL v, 16, 16⟩
abbrev TB_VLAT_CTL_CNT (v : Nat) : F := ⟨TB_VLAT_CTL v, 8, 8⟩
abbrev TB_VLAT_CTL_TB (v : Nat) : F := ⟨TB_VLAT_CTL v, 0, 3⟩
/-- TB_VLAT_TBL, R310 (09_time_bases.md). -/
abbrev TB_VLAT_TBL (v : Nat) : Nat := 0x48008 + 0x10 * v
abbrev TB_VLAT_TBL_TBL_NS (v : Nat) : F := ⟨TB_VLAT_TBL v, 0, 32⟩
/-- TB_VLAT_TBLF, R310 (09_time_bases.md). -/
abbrev TB_VLAT_TBLF (v : Nat) : Nat := 0x4800c + 0x10 * v
/-- SYN_CTL, R330 (10_synchronisation.md). -/
abbrev SYN_CTL (n : Nat) : Nat := 0x50000 + 0x1000 * n
abbrev SYN_CTL_SELF (n : Nat) : F := ⟨SYN_CTL n, 31, 1⟩
abbrev SYN_CTL_K (n : Nat) : F := ⟨SYN_CTL n, 24, 2⟩
abbrev SYN_CTL_LOSS (n : Nat) : F := ⟨SYN_CTL n, 16, 8⟩
abbrev SYN_CTL_ROUND (n : Nat) : F := ⟨SYN_CTL n, 0, 8⟩
/-- SYN_GAIN, R331 (10_synchronisation.md). -/
abbrev SYN_GAIN (n : Nat) : Nat := 0x50004 + 0x1000 * n
abbrev SYN_GAIN_KI (n : Nat) : F := ⟨SYN_GAIN n, 16, 16⟩
abbrev SYN_GAIN_KP (n : Nat) : F := ⟨SYN_GAIN n, 0, 16⟩
/-- SYN_LIMIT, R331 (10_synchronisation.md). -/
abbrev SYN_LIMIT (n : Nat) : Nat := 0x50008 + 0x1000 * n
abbrev SYN_LIMIT_RATE_LIMIT (n : Nat) : F := ⟨SYN_LIMIT n, 16, 16⟩
abbrev SYN_LIMIT_JUMP_LIMIT (n : Nat) : F := ⟨SYN_LIMIT n, 0, 16⟩
/-- SYN_PATH, R331 (10_synchronisation.md). -/
abbrev SYN_PATH (n : Nat) : Nat := 0x5000c + 0x1000 * n
abbrev SYN_PATH_PATH_JUMP (n : Nat) : F := ⟨SYN_PATH n, 16, 16⟩
abbrev SYN_PATH_PATH_HOLDOFF (n : Nat) : F := ⟨SYN_PATH n, 0, 8⟩
/-- SYN_DEVLIM, R331 (10_synchronisation.md). -/
abbrev SYN_DEVLIM (n : Nat) : Nat := 0x50010 + 0x1000 * n
abbrev SYN_DEVLIM_DEV_LIMIT (n : Nat) : F := ⟨SYN_DEVLIM n, 0, 16⟩
/-- SYN_STAT, R332 (10_synchronisation.md). -/
abbrev SYN_STAT (n : Nat) : Nat := 0x50020 + 0x1000 * n
abbrev SYN_STAT_SYNC (n : Nat) : F := ⟨SYN_STAT n, 31, 1⟩
abbrev SYN_STAT_STEP_REFUSED (n : Nat) : F := ⟨SYN_STAT n, 30, 1⟩
abbrev SYN_STAT_ASYM_SUSPECT (n : Nat) : F := ⟨SYN_STAT n, 29, 1⟩
abbrev SYN_STAT_PATH_CHANGED (n : Nat) : F := ⟨SYN_STAT n, 28, 1⟩
abbrev SYN_STAT_FROZEN (n : Nat) : F := ⟨SYN_STAT n, 27, 1⟩
abbrev SYN_STAT_THIN (n : Nat) : F := ⟨SYN_STAT n, 26, 1⟩
abbrev SYN_STAT_USED (n : Nat) : F := ⟨SYN_STAT n, 16, 8⟩
abbrev SYN_STAT_ROUNDS (n : Nat) : F := ⟨SYN_STAT n, 0, 16⟩
/-- SYN_OFS, R332 (10_synchronisation.md). -/
abbrev SYN_OFS (n : Nat) : Nat := 0x50024 + 0x1000 * n
abbrev SYN_OFS_O (n : Nat) : F := ⟨SYN_OFS n, 0, 32⟩
/-- SYN_RATE, R332 (10_synchronisation.md). -/
abbrev SYN_RATE (n : Nat) : Nat := 0x50028 + 0x1000 * n
abbrev SYN_RATE_RATE (n : Nat) : F := ⟨SYN_RATE n, 0, 32⟩
/-- SYN_CNT, R332 (10_synchronisation.md). -/
abbrev SYN_CNT (n : Nat) : Nat := 0x5002c + 0x1000 * n
abbrev SYN_CNT_THIN_N (n : Nat) : F := ⟨SYN_CNT n, 16, 16⟩
abbrev SYN_CNT_REFUSED_N (n : Nat) : F := ⟨SYN_CNT n, 0, 16⟩
/-- SYN_PEND_NS, R333 (10_synchronisation.md). -/
abbrev SYN_PEND_NS (n : Nat) : Nat := 0x50030 + 0x1000 * n
abbrev SYN_PEND_NS_NS (n : Nat) : F := ⟨SYN_PEND_NS n, 0, 32⟩
/-- SYN_PEND_CTL, R333 (10_synchronisation.md). -/
abbrev SYN_PEND_CTL (n : Nat) : Nat := 0x50034 + 0x1000 * n
abbrev SYN_PEND_CTL_FRAC (n : Nat) : F := ⟨SYN_PEND_CTL n, 16, 16⟩
abbrev SYN_PEND_CTL_VALID (n : Nat) : F := ⟨SYN_PEND_CTL n, 15, 1⟩
abbrev SYN_PEND_CTL_SRC (n : Nat) : F := ⟨SYN_PEND_CTL n, 13, 2⟩
abbrev SYN_PEND_CTL_SEQ (n : Nat) : F := ⟨SYN_PEND_CTL n, 0, 8⟩
/-- SYN_GRANT, R333 (10_synchronisation.md). -/
abbrev SYN_GRANT : Nat := 0x5f000
abbrev SYN_GRANT_GO : F := ⟨SYN_GRANT, 31, 1⟩
abbrev SYN_GRANT_MISS : F := ⟨SYN_GRANT, 30, 1⟩
abbrev SYN_GRANT_TB : F := ⟨SYN_GRANT, 16, 3⟩
abbrev SYN_GRANT_SEQ : F := ⟨SYN_GRANT, 0, 8⟩
/-- NODE_CTL, R334 (10_synchronisation.md). -/
abbrev NODE_CTL (n : Nat) (j : Nat) : Nat := 0x50100 + 0x1000 * n + 0x40 * j
abbrev NODE_CTL_VALID (n : Nat) (j : Nat) : F := ⟨NODE_CTL n j, 31, 1⟩
abbrev NODE_CTL_REL (n : Nat) (j : Nat) : F := ⟨NODE_CTL n j, 30, 1⟩
abbrev NODE_CTL_P1_EN (n : Nat) (j : Nat) : F := ⟨NODE_CTL n j, 29, 1⟩
abbrev NODE_CTL_RETIRED (n : Nat) (j : Nat) : F := ⟨NODE_CTL n j, 28, 1⟩
abbrev NODE_CTL_HANDLE (n : Nat) (j : Nat) : F := ⟨NODE_CTL n j, 0, 16⟩
/-- NODE_PORTS, R334 (10_synchronisation.md). -/
abbrev NODE_PORTS (n : Nat) (j : Nat) : Nat := 0x50104 + 0x1000 * n + 0x40 * j
abbrev NODE_PORTS_PORT0 (n : Nat) (j : Nat) : F := ⟨NODE_PORTS n j, 24, 7⟩
abbrev NODE_PORTS_PORT1 (n : Nat) (j : Nat) : F := ⟨NODE_PORTS n j, 8, 7⟩
/-- NODE_SOFS, R334 (10_synchronisation.md). -/
abbrev NODE_SOFS (n : Nat) (j : Nat) : Nat := 0x50108 + 0x1000 * n + 0x40 * j
abbrev NODE_SOFS_SOFS (n : Nat) (j : Nat) : F := ⟨NODE_SOFS n j, 0, 32⟩
/-- NODE_SPER, R334 (10_synchronisation.md). -/
abbrev NODE_SPER (n : Nat) (j : Nat) : Nat := 0x5010c + 0x1000 * n + 0x40 * j
abbrev NODE_SPER_SPER (n : Nat) (j : Nat) : F := ⟨NODE_SPER n j, 0, 32⟩
/-- NODE_DLY, R334 (10_synchronisation.md). -/
abbrev NODE_DLY (n : Nat) (j : Nat) (q : Nat) : Nat := 0x50110 + 0x1000 * n + 0x40 * j + 0x4 * q
abbrev NODE_DLY_DLY (n : Nat) (j : Nat) (q : Nat) : F := ⟨NODE_DLY n j q, 0, 32⟩
/-- NODE_DEV, R334 (10_synchronisation.md). -/
abbrev NODE_DEV (n : Nat) (j : Nat) : Nat := 0x50118 + 0x1000 * n + 0x40 * j
abbrev NODE_DEV_DEV (n : Nat) (j : Nat) : F := ⟨NODE_DEV n j, 0, 32⟩
/-- NODE_STAT, R334 (10_synchronisation.md). -/
abbrev NODE_STAT (n : Nat) (j : Nat) : Nat := 0x5011c + 0x1000 * n + 0x40 * j
abbrev NODE_STAT_F0 (n : Nat) (j : Nat) : F := ⟨NODE_STAT n j, 31, 1⟩
abbrev NODE_STAT_F1 (n : Nat) (j : Nat) : F := ⟨NODE_STAT n j, 30, 1⟩
abbrev NODE_STAT_C0 (n : Nat) (j : Nat) : F := ⟨NODE_STAT n j, 29, 1⟩
abbrev NODE_STAT_C1 (n : Nat) (j : Nat) : F := ⟨NODE_STAT n j, 28, 1⟩
abbrev NODE_STAT_LOST_TRK (n : Nat) (j : Nat) : F := ⟨NODE_STAT n j, 27, 1⟩
abbrev NODE_STAT_HOLD (n : Nat) (j : Nat) : F := ⟨NODE_STAT n j, 16, 8⟩
abbrev NODE_STAT_MEAS (n : Nat) (j : Nat) : F := ⟨NODE_STAT n j, 8, 8⟩
abbrev NODE_STAT_EXCL (n : Nat) (j : Nat) : F := ⟨NODE_STAT n j, 0, 8⟩
/-- NODE_EST, R334 (10_synchronisation.md). -/
abbrev NODE_EST (n : Nat) (j : Nat) (q : Nat) : Nat := 0x50120 + 0x1000 * n + 0x40 * j + 0x4 * q
abbrev NODE_EST_EST (n : Nat) (j : Nat) (q : Nat) : F := ⟨NODE_EST n j q, 0, 32⟩
/-- NODE_ACC, R334 (10_synchronisation.md). -/
abbrev NODE_ACC (n : Nat) (j : Nat) : Nat := 0x50128 + 0x1000 * n + 0x40 * j
abbrev NODE_ACC_ACC1 (n : Nat) (j : Nat) : F := ⟨NODE_ACC n j, 1, 1⟩
abbrev NODE_ACC_ACC0 (n : Nat) (j : Nat) : F := ⟨NODE_ACC n j, 0, 1⟩
/-- ASW_CTL, R335 (10_synchronisation.md). -/
abbrev ASW_CTL (n : Nat) (w : Nat) : Nat := 0x50600 + 0x1000 * n + 0x10 * w
abbrev ASW_CTL_EN (n : Nat) (w : Nat) : F := ⟨ASW_CTL n w, 31, 1⟩
abbrev ASW_CTL_ACCEPT (n : Nat) (w : Nat) : F := ⟨ASW_CTL n w, 30, 1⟩
abbrev ASW_CTL_CAR (n : Nat) (w : Nat) : F := ⟨ASW_CTL n w, 24, 6⟩
abbrev ASW_CTL_PTP_B (n : Nat) (w : Nat) : F := ⟨ASW_CTL n w, 1, 1⟩
abbrev ASW_CTL_PTP_A (n : Nat) (w : Nat) : F := ⟨ASW_CTL n w, 0, 1⟩
/-- ASW_PATHS, R335 (10_synchronisation.md). -/
abbrev ASW_PATHS (n : Nat) (w : Nat) : Nat := 0x50604 + 0x1000 * n + 0x10 * w
abbrev ASW_PATHS_PATHS (n : Nat) (w : Nat) : F := ⟨ASW_PATHS n w, 0, 32⟩
/-- ASW_BASE, R335 (10_synchronisation.md). -/
abbrev ASW_BASE (n : Nat) (w : Nat) : Nat := 0x50608 + 0x1000 * n + 0x10 * w
abbrev ASW_BASE_BASE (n : Nat) (w : Nat) : F := ⟨ASW_BASE n w, 0, 32⟩
/-- ASW_EST, R335 (10_synchronisation.md). -/
abbrev ASW_EST (n : Nat) (w : Nat) : Nat := 0x5060c + 0x1000 * n + 0x10 * w
abbrev ASW_EST_EST (n : Nat) (w : Nat) : F := ⟨ASW_EST n w, 0, 32⟩
/-- PTP_CTL, R336 (10_synchronisation.md). -/
abbrev PTP_CTL (n : Nat) : Nat := 0x50800 + 0x1000 * n
abbrev PTP_CTL_ONESTEP (n : Nat) : F := ⟨PTP_CTL n, 31, 1⟩
abbrev PTP_CTL_AUTH_EN (n : Nat) : F := ⟨PTP_CTL n, 30, 1⟩
abbrev PTP_CTL_AUTH_REQ (n : Nat) : F := ⟨PTP_CTL n, 29, 1⟩
abbrev PTP_CTL_COPY (n : Nat) : F := ⟨PTP_CTL n, 28, 1⟩
abbrev PTP_CTL_LOGPD (n : Nat) : F := ⟨PTP_CTL n, 24, 4⟩
abbrev PTP_CTL_DOMAIN (n : Nat) : F := ⟨PTP_CTL n, 16, 8⟩
abbrev PTP_CTL_LOGSYNC (n : Nat) : F := ⟨PTP_CTL n, 8, 8⟩
abbrev PTP_CTL_SPP (n : Nat) : F := ⟨PTP_CTL n, 0, 8⟩
/-- PTP_ROLE, R336 (10_synchronisation.md). -/
abbrev PTP_ROLE (n : Nat) : Nat := 0x50804 + 0x1000 * n
abbrev PTP_ROLE_A_EN (n : Nat) : F := ⟨PTP_ROLE n, 31, 1⟩
abbrev PTP_ROLE_B_EN (n : Nat) : F := ⟨PTP_ROLE n, 23, 1⟩
abbrev PTP_ROLE_SLAVE_A (n : Nat) : F := ⟨PTP_ROLE n, 24, 7⟩
abbrev PTP_ROLE_SLAVE_B (n : Nat) : F := ⟨PTP_ROLE n, 16, 7⟩
/-- PTP_MASTER, R336 (10_synchronisation.md). -/
abbrev PTP_MASTER (n : Nat) (k : Nat) : Nat := 0x50810 + 0x1000 * n + 0x4 * k
abbrev PTP_MASTER_PORTS (n : Nat) (k : Nat) : F := ⟨PTP_MASTER n k, 0, 32⟩
/-- PTP_OFS, R336 (10_synchronisation.md). -/
abbrev PTP_OFS (n : Nat) : Nat := 0x50820 + 0x1000 * n
abbrev PTP_OFS_O (n : Nat) : F := ⟨PTP_OFS n, 0, 32⟩
/-- PTP_MLD, R336 (10_synchronisation.md). -/
abbrev PTP_MLD (n : Nat) (x : Nat) : Nat := 0x50824 + 0x1000 * n + 0x4 * x
abbrev PTP_MLD_MLD (n : Nat) (x : Nat) : F := ⟨PTP_MLD n x, 0, 32⟩
/-- PTP_CNT, R336 (10_synchronisation.md). -/
abbrev PTP_CNT (n : Nat) : Nat := 0x5082c + 0x1000 * n
abbrev PTP_CNT_AUTH_FAIL (n : Nat) : F := ⟨PTP_CNT n, 16, 16⟩
abbrev PTP_CNT_NO_STAMP (n : Nat) : F := ⟨PTP_CNT n, 0, 16⟩
/-- PTP_STAT, R336 (10_synchronisation.md). -/
abbrev PTP_STAT (n : Nat) : Nat := 0x50830 + 0x1000 * n
abbrev PTP_STAT_A_LIVE (n : Nat) : F := ⟨PTP_STAT n, 31, 1⟩
abbrev PTP_STAT_B_LIVE (n : Nat) : F := ⟨PTP_STAT n, 30, 1⟩
abbrev PTP_STAT_A_FRZ (n : Nat) : F := ⟨PTP_STAT n, 29, 1⟩
abbrev PTP_STAT_B_FRZ (n : Nat) : F := ⟨PTP_STAT n, 28, 1⟩
abbrev PTP_STAT_ACC_B (n : Nat) : F := ⟨PTP_STAT n, 1, 1⟩
abbrev PTP_STAT_ACC_A (n : Nat) : F := ⟨PTP_STAT n, 0, 1⟩
/-- PTP_ASYM, R336 (10_synchronisation.md). -/
abbrev PTP_ASYM (n : Nat) (x : Nat) : Nat := 0x50834 + 0x1000 * n + 0x4 * x
abbrev PTP_ASYM_ASYM (n : Nat) (x : Nat) : F := ⟨PTP_ASYM n x, 0, 32⟩
/-- PTP_EST, R336 (10_synchronisation.md). -/
abbrev PTP_EST (n : Nat) (x : Nat) : Nat := 0x5083c + 0x1000 * n + 0x4 * x
abbrev PTP_EST_EST (n : Nat) (x : Nat) : F := ⟨PTP_EST n x, 0, 32⟩
/-- GLB_FN_TX, R341 (11_host_rings.md). -/
abbrev GLB_FN_TX (f : Nat) : Nat := 0x1000 + 0x10 * f
abbrev GLB_FN_TX_TBASE (f : Nat) : F := ⟨GLB_FN_TX f, 16, 16⟩
abbrev GLB_FN_TX_TN (f : Nat) : F := ⟨GLB_FN_TX f, 0, 16⟩
/-- GLB_FN_RX, R341 (11_host_rings.md). -/
abbrev GLB_FN_RX (f : Nat) : Nat := 0x1004 + 0x10 * f
abbrev GLB_FN_RX_RBASE (f : Nat) : F := ⟨GLB_FN_RX f, 16, 16⟩
abbrev GLB_FN_RX_RN (f : Nat) : F := ⟨GLB_FN_RX f, 0, 16⟩
/-- GLB_FN_AUX, R341 (11_host_rings.md). -/
abbrev GLB_FN_AUX (f : Nat) : Nat := 0x1008 + 0x10 * f
abbrev GLB_FN_AUX_JBASE (f : Nat) : F := ⟨GLB_FN_AUX f, 26, 6⟩
abbrev GLB_FN_AUX_JN (f : Nat) : F := ⟨GLB_FN_AUX f, 16, 8⟩
abbrev GLB_FN_AUX_EBASE (f : Nat) : F := ⟨GLB_FN_AUX f, 10, 6⟩
abbrev GLB_FN_AUX_EVN (f : Nat) : F := ⟨GLB_FN_AUX f, 0, 8⟩
/-- GLB_FN_VEC, R341 (11_host_rings.md). -/
abbrev GLB_FN_VEC (f : Nat) : Nat := 0x100c + 0x10 * f
abbrev GLB_FN_VEC_VBASE (f : Nat) : F := ⟨GLB_FN_VEC f, 16, 16⟩
abbrev GLB_FN_VEC_VN (f : Nat) : F := ⟨GLB_FN_VEC f, 0, 16⟩
/-- EVT_ROUTE, R356 (11_host_rings.md). -/
abbrev EVT_ROUTE (i : Nat) : Nat := 0x3f000 + 0x4 * i
abbrev EVT_ROUTE_EN (i : Nat) : F := ⟨EVT_ROUTE i, 31, 1⟩
abbrev EVT_ROUTE_RING (i : Nat) : F := ⟨EVT_ROUTE i, 16, 6⟩
abbrev EVT_ROUTE_DROP (i : Nat) : F := ⟨EVT_ROUTE i, 0, 16⟩
/-- DB_TX, R365 (11_host_rings.md). -/
abbrev DB_TX (f : Nat) : Nat := 0x700000 + 0x1000 * f
abbrev DB_TX_TAIL (f : Nat) : F := ⟨DB_TX f, 16, 16⟩
abbrev DB_TX_RING (f : Nat) : F := ⟨DB_TX f, 0, 12⟩
/-- DB_RX, R365 (11_host_rings.md). -/
abbrev DB_RX (f : Nat) : Nat := 0x700004 + 0x1000 * f
abbrev DB_RX_TAIL (f : Nat) : F := ⟨DB_RX f, 0, 32⟩
/-- DB_JOB, R365 (11_host_rings.md). -/
abbrev DB_JOB (f : Nat) : Nat := 0x700008 + 0x1000 * f
abbrev DB_JOB_TAIL (f : Nat) : F := ⟨DB_JOB f, 0, 32⟩
/-- DB_EVT, R365 (11_host_rings.md). -/
abbrev DB_EVT (f : Nat) : Nat := 0x70000c + 0x1000 * f
abbrev DB_EVT_HEAD (f : Nat) : F := ⟨DB_EVT f, 16, 16⟩
abbrev DB_EVT_RING (f : Nat) : F := ⟨DB_EVT f, 0, 12⟩
/-- DB_CMD, R365 (11_host_rings.md). -/
abbrev DB_CMD (f : Nat) : Nat := 0x700010 + 0x1000 * f
abbrev DB_CMD_TAIL (f : Nat) : F := ⟨DB_CMD f, 16, 16⟩
/-- DB_CMD_BASE_LO, R366 (11_host_rings.md). -/
abbrev DB_CMD_BASE_LO (f : Nat) : Nat := 0x700020 + 0x1000 * f
abbrev DB_CMD_BASE_LO_BASE (f : Nat) : F := ⟨DB_CMD_BASE_LO f, 0, 32⟩
/-- DB_CMD_BASE_HI, R366 (11_host_rings.md). -/
abbrev DB_CMD_BASE_HI (f : Nat) : Nat := 0x700024 + 0x1000 * f
abbrev DB_CMD_BASE_HI_BASE (f : Nat) : F := ⟨DB_CMD_BASE_HI f, 0, 32⟩
/-- DB_CMD_SHD_LO, R366 (11_host_rings.md). -/
abbrev DB_CMD_SHD_LO (f : Nat) : Nat := 0x700028 + 0x1000 * f
abbrev DB_CMD_SHD_LO_SHD (f : Nat) : F := ⟨DB_CMD_SHD_LO f, 0, 32⟩
/-- DB_CMD_SHD_HI, R366 (11_host_rings.md). -/
abbrev DB_CMD_SHD_HI (f : Nat) : Nat := 0x70002c + 0x1000 * f
abbrev DB_CMD_SHD_HI_SHD (f : Nat) : F := ⟨DB_CMD_SHD_HI f, 0, 32⟩
/-- DB_CMD_CFG, R366 (11_host_rings.md). -/
abbrev DB_CMD_CFG (f : Nat) : Nat := 0x700030 + 0x1000 * f
abbrev DB_CMD_CFG_EN (f : Nat) : F := ⟨DB_CMD_CFG f, 31, 1⟩
abbrev DB_CMD_CFG_CFG_ERR (f : Nat) : F := ⟨DB_CMD_CFG f, 30, 1⟩
abbrev DB_CMD_CFG_VEC (f : Nat) : F := ⟨DB_CMD_CFG f, 8, 11⟩
abbrev DB_CMD_CFG_LOG2SIZE (f : Nat) : F := ⟨DB_CMD_CFG f, 0, 4⟩
/-- DB_RSEL, R367 (11_host_rings.md). -/
abbrev DB_RSEL (f : Nat) : Nat := 0x700040 + 0x1000 * f
abbrev DB_RSEL_KIND (f : Nat) : F := ⟨DB_RSEL f, 24, 3⟩
abbrev DB_RSEL_RING (f : Nat) : F := ⟨DB_RSEL f, 0, 12⟩
/-- DB_RSTAT, R367 (11_host_rings.md). -/
abbrev DB_RSTAT (f : Nat) : Nat := 0x700044 + 0x1000 * f
abbrev DB_RSTAT_DEV (f : Nat) : F := ⟨DB_RSTAT f, 16, 16⟩
abbrev DB_RSTAT_HOST (f : Nat) : F := ⟨DB_RSTAT f, 0, 16⟩
/-- DB_RINFO, R367 (11_host_rings.md). -/
abbrev DB_RINFO (f : Nat) : Nat := 0x700048 + 0x1000 * f
abbrev DB_RINFO_CREATED (f : Nat) : F := ⟨DB_RINFO f, 31, 1⟩
abbrev DB_RINFO_PARKED (f : Nat) : F := ⟨DB_RINFO f, 30, 1⟩
abbrev DB_RINFO_LOG2SIZE (f : Nat) : F := ⟨DB_RINFO f, 16, 4⟩
abbrev DB_RINFO_AHEAD (f : Nat) : F := ⟨DB_RINFO f, 0, 5⟩
/-- DB_RCNT0, R367 (11_host_rings.md). -/
abbrev DB_RCNT0 (f : Nat) : Nat := 0x70004c + 0x1000 * f
abbrev DB_RCNT0_CNT_A (f : Nat) : F := ⟨DB_RCNT0 f, 16, 16⟩
abbrev DB_RCNT0_CNT_B (f : Nat) : F := ⟨DB_RCNT0 f, 0, 16⟩
/-- DB_RCNT1, R367 (11_host_rings.md). -/
abbrev DB_RCNT1 (f : Nat) : Nat := 0x700050 + 0x1000 * f
abbrev DB_RCNT1_CNT_C (f : Nat) : F := ⟨DB_RCNT1 f, 0, 32⟩
/-- DB_FN_STAT, R368 (11_host_rings.md). -/
abbrev DB_FN_STAT (f : Nat) : Nat := 0x700060 + 0x1000 * f
abbrev DB_FN_STAT_HALT (f : Nat) : F := ⟨DB_FN_STAT f, 31, 1⟩
abbrev DB_FN_STAT_HIRS (f : Nat) : F := ⟨DB_FN_STAT f, 0, 16⟩
/-- GLB_HIR, R369 (11_host_rings.md). -/
abbrev GLB_HIR : Nat := 0x20
abbrev GLB_HIR_GO : F := ⟨GLB_HIR, 31, 1⟩
abbrev GLB_HIR_BUSY : F := ⟨GLB_HIR, 30, 1⟩
abbrev GLB_HIR_COUNT : F := ⟨GLB_HIR, 0, 16⟩
/-- GLB_HOST_DROP, R369 (11_host_rings.md). -/
abbrev GLB_HOST_DROP : Nat := 0x24
abbrev GLB_HOST_DROP_NORING : F := ⟨GLB_HOST_DROP, 16, 16⟩
abbrev GLB_HOST_DROP_NOSTEER : F := ⟨GLB_HOST_DROP, 0, 16⟩
/-- BOOT_STATUS, R370 (11_host_rings.md). -/
abbrev BOOT_STATUS : Nat := 0xb00010
abbrev BOOT_STATUS_HIHALT : F := ⟨BOOT_STATUS, 31, 1⟩
abbrev BOOT_STATUS_START : F := ⟨BOOT_STATUS, 0, 16⟩
/-- BOOT_HALT0, R370 (11_host_rings.md). -/
abbrev BOOT_HALT0 : Nat := 0xb00014
abbrev BOOT_HALT0_CAUSE : F := ⟨BOOT_HALT0, 28, 4⟩
abbrev BOOT_HALT0_KIND : F := ⟨BOOT_HALT0, 24, 3⟩
abbrev BOOT_HALT0_FN : F := ⟨BOOT_HALT0, 16, 6⟩
abbrev BOOT_HALT0_RING : F := ⟨BOOT_HALT0, 0, 12⟩
/-- BOOT_HALT1, R370 (11_host_rings.md). -/
abbrev BOOT_HALT1 : Nat := 0xb00018
abbrev BOOT_HALT1_FRAGV : F := ⟨BOOT_HALT1, 24, 1⟩
abbrev BOOT_HALT1_FRAG : F := ⟨BOOT_HALT1, 16, 8⟩
abbrev BOOT_HALT1_INDEX : F := ⟨BOOT_HALT1, 0, 16⟩
/-- DMA_CH_CFG, R388 (12_dma_and_grinder.md). -/
abbrev DMA_CH_CFG (c : Nat) : Nat := 0x800000 + 0x40 * c
abbrev DMA_CH_CFG_RKIND (c : Nat) : F := ⟨DMA_CH_CFG c, 29, 3⟩
abbrev DMA_CH_CFG_RSEL (c : Nat) : F := ⟨DMA_CH_CFG c, 16, 6⟩
abbrev DMA_CH_CFG_PRIO (c : Nat) : F := ⟨DMA_CH_CFG c, 14, 2⟩
abbrev DMA_CH_CFG_BURST (c : Nat) : F := ⟨DMA_CH_CFG c, 0, 13⟩
/-- DMA_CH_CTL, R389 (12_dma_and_grinder.md). -/
abbrev DMA_CH_CTL (c : Nat) : Nat := 0x800004 + 0x40 * c
abbrev DMA_CH_CTL_ABORT (c : Nat) : F := ⟨DMA_CH_CTL c, 31, 1⟩
abbrev DMA_CH_CTL_EN (c : Nat) : F := ⟨DMA_CH_CTL c, 0, 1⟩
/-- DMA_CH_STAT, R390 (12_dma_and_grinder.md). -/
abbrev DMA_CH_STAT (c : Nat) : Nat := 0x800008 + 0x40 * c
abbrev DMA_CH_STAT_STATE (c : Nat) : F := ⟨DMA_CH_STAT c, 29, 3⟩
abbrev DMA_CH_STAT_REQ_WITHDRAWN (c : Nat) : F := ⟨DMA_CH_STAT c, 28, 1⟩
abbrev DMA_CH_STAT_KICK_PEND (c : Nat) : F := ⟨DMA_CH_STAT c, 27, 1⟩
abbrev DMA_CH_STAT_INDEX (c : Nat) : F := ⟨DMA_CH_STAT c, 0, 16⟩
/-- DMA_CH_BYTES, R390 (12_dma_and_grinder.md). -/
abbrev DMA_CH_BYTES (c : Nat) : Nat := 0x80000c + 0x40 * c
abbrev DMA_CH_BYTES_BYTES (c : Nat) : F := ⟨DMA_CH_BYTES c, 0, 32⟩
/-- DMA_CH_PARK_LO, R391 (12_dma_and_grinder.md). -/
abbrev DMA_CH_PARK_LO (c : Nat) : Nat := 0x800010 + 0x40 * c
abbrev DMA_CH_PARK_LO_ADDR_LO (c : Nat) : F := ⟨DMA_CH_PARK_LO c, 0, 32⟩
/-- DMA_CH_PARK_HI, R391 (12_dma_and_grinder.md). -/
abbrev DMA_CH_PARK_HI (c : Nat) : Nat := 0x800014 + 0x40 * c
abbrev DMA_CH_PARK_HI_ADDR_HI (c : Nat) : F := ⟨DMA_CH_PARK_HI c, 0, 16⟩
/-- DMA_CH_CNT, R391 (12_dma_and_grinder.md). -/
abbrev DMA_CH_CNT (c : Nat) : Nat := 0x800018 + 0x40 * c
abbrev DMA_CH_CNT_MISSED (c : Nat) : F := ⟨DMA_CH_CNT c, 16, 16⟩
abbrev DMA_CH_CNT_LATE (c : Nat) : F := ⟨DMA_CH_CNT c, 0, 16⟩
/-- DMA_KICK, R392 (12_dma_and_grinder.md). -/
abbrev DMA_KICK : Nat := 0x802000
abbrev DMA_KICK_CH : F := ⟨DMA_KICK, 0, 6⟩
/-- DMA_STAT, R392 (12_dma_and_grinder.md). -/
abbrev DMA_STAT : Nat := 0x802004
abbrev DMA_STAT_STAGE : F := ⟨DMA_STAT, 16, 13⟩
abbrev DMA_STAT_INFLIGHT : F := ⟨DMA_STAT, 0, 6⟩
/-- GRD_PROF_A, R393 (12_dma_and_grinder.md). -/
abbrev GRD_PROF_A (k : Nat) : Nat := 0x804000 + 0x10 * k
abbrev GRD_PROF_A_MODE (k : Nat) : F := ⟨GRD_PROF_A k, 30, 2⟩
abbrev GRD_PROF_A_SSIZE (k : Nat) : F := ⟨GRD_PROF_A k, 28, 2⟩
abbrev GRD_PROF_A_NCH (k : Nat) : F := ⟨GRD_PROF_A k, 16, 7⟩
abbrev GRD_PROF_A_SSTRIDE (k : Nat) : F := ⟨GRD_PROF_A k, 0, 16⟩
/-- GRD_PROF_B, R393 (12_dma_and_grinder.md). -/
abbrev GRD_PROF_B (k : Nat) : Nat := 0x804004 + 0x10 * k
abbrev GRD_PROF_B_RECLEN (k : Nat) : F := ⟨GRD_PROF_B k, 16, 16⟩
abbrev GRD_PROF_B_NREC (k : Nat) : F := ⟨GRD_PROF_B k, 0, 16⟩
/-- GRD_PROF_C, R393 (12_dma_and_grinder.md). -/
abbrev GRD_PROF_C (k : Nat) : Nat := 0x804008 + 0x10 * k
abbrev GRD_PROF_C_CSTRIDE (k : Nat) : F := ⟨GRD_PROF_C k, 0, 24⟩
/-- SEC_STAT, R420 (13_security.md). -/
abbrev SEC_STAT : Nat := 0x900000
abbrev SEC_STAT_UNOWNED : F := ⟨SEC_STAT, 31, 1⟩
abbrev SEC_STAT_RUNNING : F := ⟨SEC_STAT, 30, 1⟩
abbrev SEC_STAT_SLOT : F := ⟨SEC_STAT, 28, 2⟩
abbrev SEC_STAT_DBG : F := ⟨SEC_STAT, 16, 3⟩
abbrev SEC_STAT_KEYS_ZEROED : F := ⟨SEC_STAT, 15, 1⟩
abbrev SEC_STAT_LOG_N : F := ⟨SEC_STAT, 0, 8⟩
/-- SEC_OWN, R421 (13_security.md). -/
abbrev SEC_OWN : Nat := 0x900004
abbrev SEC_OWN_STATE : F := ⟨SEC_OWN, 0, 8⟩
/-- SEC_MB_CTL, R422 (13_security.md). -/
abbrev SEC_MB_CTL : Nat := 0x900010
abbrev SEC_MB_CTL_GO : F := ⟨SEC_MB_CTL, 31, 1⟩
abbrev SEC_MB_CTL_CMD : F := ⟨SEC_MB_CTL, 16, 8⟩
abbrev SEC_MB_CTL_LEN : F := ⟨SEC_MB_CTL, 0, 16⟩
/-- SEC_MB_STAT, R422 (13_security.md). -/
abbrev SEC_MB_STAT : Nat := 0x900014
abbrev SEC_MB_STAT_BUSY : F := ⟨SEC_MB_STAT, 31, 1⟩
abbrev SEC_MB_STAT_RESULT : F := ⟨SEC_MB_STAT, 24, 4⟩
abbrev SEC_MB_STAT_RLEN : F := ⟨SEC_MB_STAT, 0, 16⟩
/-- SEC_OWN_HASH, R423 (13_security.md). -/
abbrev SEC_OWN_HASH (s : Nat) (i : Nat) : Nat := 0x900100 + 0x40 * s + 0x4 * i
abbrev SEC_OWN_HASH_HASH (s : Nat) (i : Nat) : F := ⟨SEC_OWN_HASH s i, 0, 32⟩
/-- SEC_IDH, R423 (13_security.md). -/
abbrev SEC_IDH (i : Nat) : Nat := 0x900200 + 0x4 * i
abbrev SEC_IDH_IDH (i : Nat) : F := ⟨SEC_IDH i, 0, 32⟩
/-- SEC_LOGD, R423 (13_security.md). -/
abbrev SEC_LOGD (i : Nat) : Nat := 0x900300 + 0x4 * i
abbrev SEC_LOGD_L (i : Nat) : F := ⟨SEC_LOGD i, 0, 32⟩
/-- SEC_LOG, R423 (13_security.md). -/
abbrev SEC_LOG (n : Nat) (i : Nat) : Nat := 0x901000 + 0x40 * n + 0x4 * i
abbrev SEC_LOG_ENTRY (n : Nat) (i : Nat) : F := ⟨SEC_LOG n i, 0, 32⟩
/-- SEC_TRUST, R423 (13_security.md). -/
abbrev SEC_TRUST (e : Nat) (i : Nat) : Nat := 0x908000 + 0x40 * e + 0x4 * i
abbrev SEC_TRUST_ENTRY (e : Nat) (i : Nat) : F := ⟨SEC_TRUST e i, 0, 32⟩
/-- PRT_SEC_CFG, R424 (13_security.md). -/
abbrev PRT_SEC_CFG (p : Nat) : Nat := 0x100600 + 0x2000 * p
abbrev PRT_SEC_CFG_EN (p : Nat) : F := ⟨PRT_SEC_CFG p, 31, 1⟩
abbrev PRT_SEC_CFG_PAIR_EN (p : Nat) : F := ⟨PRT_SEC_CFG p, 30, 1⟩
abbrev PRT_SEC_CFG_CS (p : Nat) : F := ⟨PRT_SEC_CFG p, 28, 2⟩
abbrev PRT_SEC_CFG_CONF (p : Nat) : F := ⟨PRT_SEC_CFG p, 26, 2⟩
abbrev PRT_SEC_CFG_KS_PRIO (p : Nat) : F := ⟨PRT_SEC_CFG p, 8, 8⟩
/-- PRT_SEC_REPLAY, R424 (13_security.md). -/
abbrev PRT_SEC_REPLAY (p : Nat) : Nat := 0x100604 + 0x2000 * p
abbrev PRT_SEC_REPLAY_WINDOW (p : Nat) : F := ⟨PRT_SEC_REPLAY p, 0, 32⟩
/-- PRT_SEC_STAT, R425 (13_security.md). -/
abbrev PRT_SEC_STAT (p : Nat) : Nat := 0x100608 + 0x2000 * p
abbrev PRT_SEC_STAT_PAIR (p : Nat) : F := ⟨PRT_SEC_STAT p, 30, 2⟩
abbrev PRT_SEC_STAT_TXSA (p : Nat) : F := ⟨PRT_SEC_STAT p, 29, 1⟩
abbrev PRT_SEC_STAT_PEER (p : Nat) : F := ⟨PRT_SEC_STAT p, 16, 8⟩
abbrev PRT_SEC_STAT_RXSA (p : Nat) : F := ⟨PRT_SEC_STAT p, 8, 8⟩
abbrev PRT_SEC_STAT_TXAN (p : Nat) : F := ⟨PRT_SEC_STAT p, 0, 2⟩
/-- PRT_SEC_ICV, R426 (13_security.md). -/
abbrev PRT_SEC_ICV (p : Nat) : Nat := 0x100610 + 0x2000 * p
abbrev PRT_SEC_ICV_ICV_FAIL (p : Nat) : F := ⟨PRT_SEC_ICV p, 0, 32⟩
/-- PRT_SEC_NOSA, R426 (13_security.md). -/
abbrev PRT_SEC_NOSA (p : Nat) : Nat := 0x100614 + 0x2000 * p
abbrev PRT_SEC_NOSA_NOSA (p : Nat) : F := ⟨PRT_SEC_NOSA p, 0, 32⟩
/-- PRT_SEC_UNPROT, R426 (13_security.md). -/
abbrev PRT_SEC_UNPROT (p : Nat) : Nat := 0x100618 + 0x2000 * p
abbrev PRT_SEC_UNPROT_UNPROT (p : Nat) : F := ⟨PRT_SEC_UNPROT p, 0, 32⟩
/-- PRT_SEC_REPL, R426 (13_security.md). -/
abbrev PRT_SEC_REPL (p : Nat) : Nat := 0x10061c + 0x2000 * p
abbrev PRT_SEC_REPL_REPLAY (p : Nat) : F := ⟨PRT_SEC_REPL p, 0, 32⟩
/-- PRT_SEC_KEYS, R426 (13_security.md). -/
abbrev PRT_SEC_KEYS (p : Nat) : Nat := 0x100620 + 0x2000 * p
abbrev PRT_SEC_KEYS_HS_FAIL (p : Nat) : F := ⟨PRT_SEC_KEYS p, 16, 16⟩
abbrev PRT_SEC_KEYS_REKEYS (p : Nat) : F := ⟨PRT_SEC_KEYS p, 0, 16⟩
/-- FLT_CTL, R450 (14_faults.md). -/
abbrev FLT_CTL : Nat := 0x20000
abbrev FLT_CTL_ARST : F := ⟨FLT_CTL, 0, 4⟩
/-- FLT_PIN_MASK, R451 (14_faults.md). -/
abbrev FLT_PIN_MASK : Nat := 0x20004
abbrev FLT_PIN_MASK_SHOWN : F := ⟨FLT_PIN_MASK, 31, 1⟩
abbrev FLT_PIN_MASK_FATAL : F := ⟨FLT_PIN_MASK, 2, 1⟩
abbrev FLT_PIN_MASK_CONT : F := ⟨FLT_PIN_MASK, 1, 1⟩
abbrev FLT_PIN_MASK_CORR : F := ⟨FLT_PIN_MASK, 0, 1⟩
/-- FLT_NEW, R452 (14_faults.md). -/
abbrev FLT_NEW : Nat := 0x20008
abbrev FLT_NEW_NEW : F := ⟨FLT_NEW, 0, 6⟩
/-- FLT_VEC, R452 (14_faults.md). -/
abbrev FLT_VEC (k : Nat) : Nat := 0x20010 + 0x4 * k
abbrev FLT_VEC_EN (k : Nat) : F := ⟨FLT_VEC k, 31, 1⟩
abbrev FLT_VEC_CLS (k : Nat) : F := ⟨FLT_VEC k, 24, 3⟩
abbrev FLT_VEC_VEC (k : Nat) : F := ⟨FLT_VEC k, 0, 11⟩
/-- FLT_WATCH, R453 (14_faults.md). -/
abbrev FLT_WATCH (k : Nat) : Nat := 0x20040 + 0x4 * k
abbrev FLT_WATCH_N (k : Nat) : F := ⟨FLT_WATCH k, 24, 8⟩
abbrev FLT_WATCH_W (k : Nat) : F := ⟨FLT_WATCH k, 0, 16⟩
/-- FLT_TEMP, R454 (14_faults.md). -/
abbrev FLT_TEMP : Nat := 0x20060
abbrev FLT_TEMP_WARN : F := ⟨FLT_TEMP, 24, 8⟩
abbrev FLT_TEMP_HYST : F := ⟨FLT_TEMP, 16, 8⟩
abbrev FLT_TEMP_T : F := ⟨FLT_TEMP, 0, 16⟩
/-- FLT_VCORE, R454 (14_faults.md). -/
abbrev FLT_VCORE : Nat := 0x20064
abbrev FLT_VCORE_MV : F := ⟨FLT_VCORE, 0, 16⟩
/-- FLT_TBL_ERR, R455 (14_faults.md). -/
abbrev FLT_TBL_ERR : Nat := 0x20068
abbrev FLT_TBL_ERR_VALID : F := ⟨FLT_TBL_ERR, 31, 1⟩
abbrev FLT_TBL_ERR_BLOCK : F := ⟨FLT_TBL_ERR, 28, 1⟩
abbrev FLT_TBL_ERR_TABLE : F := ⟨FLT_TBL_ERR, 24, 4⟩
abbrev FLT_TBL_ERR_INDEX : F := ⟨FLT_TBL_ERR, 0, 18⟩
/-- FLT_PEND, R456 (14_faults.md). -/
abbrev FLT_PEND (w : Nat) : Nat := 0x20100 + 0x4 * w
abbrev FLT_PEND_PEND (w : Nat) : F := ⟨FLT_PEND w, 0, 32⟩
/-- PWR_CTL, R467 (15_power_states.md). -/
abbrev PWR_CTL : Nat := 0xa00000
abbrev PWR_CTL_RUN : F := ⟨PWR_CTL, 31, 1⟩
abbrev PWR_CTL_WAKE_MARGIN : F := ⟨PWR_CTL, 0, 16⟩
/-- PWR_EST, R468 (15_power_states.md). -/
abbrev PWR_EST : Nat := 0xa00008
abbrev PWR_EST_EST : F := ⟨PWR_EST, 0, 16⟩
/-- PWR_PORT_EV, R469 (15_power_states.md). -/
abbrev PWR_PORT_EV (p : Nat) : Nat := 0xa01000 + 0x8 * p
abbrev PWR_PORT_EV_TIME (p : Nat) : F := ⟨PWR_PORT_EV p, 0, 32⟩
/-- PWR_PORT_WHY, R469 (15_power_states.md). -/
abbrev PWR_PORT_WHY (p : Nat) : Nat := 0xa01004 + 0x8 * p
abbrev PWR_PORT_WHY_WHY (p : Nat) : F := ⟨PWR_PORT_WHY p, 0, 3⟩
/-- BOOT_CTL, R488 (16_start_program.md). -/
abbrev BOOT_CTL : Nat := 0xb00000
abbrev BOOT_CTL_GO : F := ⟨BOOT_CTL, 31, 1⟩
abbrev BOOT_CTL_RESTART : F := ⟨BOOT_CTL, 30, 1⟩
abbrev BOOT_CTL_WRST : F := ⟨BOOT_CTL, 29, 1⟩
abbrev BOOT_CTL_REFUSED : F := ⟨BOOT_CTL, 28, 1⟩
/-- BOOT_STATE, R489 (16_start_program.md). -/
abbrev BOOT_STATE : Nat := 0xb00004
abbrev BOOT_STATE_STATE : F := ⟨BOOT_STATE, 29, 3⟩
abbrev BOOT_STATE_RETAINED : F := ⟨BOOT_STATE, 28, 1⟩
abbrev BOOT_STATE_RESTARTED : F := ⟨BOOT_STATE, 27, 1⟩
abbrev BOOT_STATE_AUTO : F := ⟨BOOT_STATE, 26, 1⟩
abbrev BOOT_STATE_RSLOT : F := ⟨BOOT_STATE, 24, 2⟩
abbrev BOOT_STATE_WRCNT : F := ⟨BOOT_STATE, 0, 16⟩
/-- BOOT_ERR_OFS, R490 (16_start_program.md). -/
abbrev BOOT_ERR_OFS : Nat := 0xb00008
abbrev BOOT_ERR_OFS_OFS : F := ⟨BOOT_ERR_OFS, 0, 32⟩
/-- BOOT_ERR_ARG, R490 (16_start_program.md). -/
abbrev BOOT_ERR_ARG : Nat := 0xb0000c
abbrev BOOT_ERR_ARG_ARG : F := ⟨BOOT_ERR_ARG, 0, 32⟩
/-- BOOT_LAST, R490 (16_start_program.md). -/
abbrev BOOT_LAST : Nat := 0xb0001c
abbrev BOOT_LAST_START : F := ⟨BOOT_LAST, 0, 16⟩
/-- BOOT_ID, R490 (16_start_program.md). -/
abbrev BOOT_ID : Nat := 0xb00020
abbrev BOOT_ID_ID : F := ⟨BOOT_ID, 0, 32⟩
/-- BOOT_ARG, R491 (16_start_program.md). -/
abbrev BOOT_ARG (k : Nat) : Nat := 0xb00040 + 0x4 * k
abbrev BOOT_ARG_ARG (k : Nat) : F := ⟨BOOT_ARG k, 0, 32⟩
/-- ULC_CN_CTL, R511 (17_compound_nodes.md). -/
abbrev ULC_CN_CTL (c : Nat) : Nat := 0xc10000 + 0x10 * c
abbrev ULC_CN_CTL_EN (c : Nat) : F := ⟨ULC_CN_CTL c, 31, 1⟩
abbrev ULC_CN_CTL_NM1 (c : Nat) : F := ⟨ULC_CN_CTL c, 24, 2⟩
abbrev ULC_CN_CTL_ME (c : Nat) : F := ⟨ULC_CN_CTL c, 20, 2⟩
abbrev ULC_CN_CTL_CNID (c : Nat) : F := ⟨ULC_CN_CTL c, 0, 10⟩
/-- ULC_CN_STAT, R512 (17_compound_nodes.md). -/
abbrev ULC_CN_STAT (c : Nat) : Nat := 0xc10004 + 0x10 * c
abbrev ULC_CN_STAT_PRESENT (c : Nat) : F := ⟨ULC_CN_STAT c, 28, 4⟩
abbrev ULC_CN_STAT_DIRECT (c : Nat) : F := ⟨ULC_CN_STAT c, 24, 4⟩
abbrev ULC_CN_STAT_LEADER (c : Nat) : F := ⟨ULC_CN_STAT c, 22, 2⟩
abbrev ULC_CN_STAT_LOCK (c : Nat) : F := ⟨ULC_CN_STAT c, 21, 1⟩
/-- ULC_TIME, R512 (17_compound_nodes.md). -/
abbrev ULC_TIME : Nat := 0xc10100
abbrev ULC_TIME_OFS : F := ⟨ULC_TIME, 0, 32⟩
/-- PRT_ULC, R513 (17_compound_nodes.md). -/
abbrev PRT_ULC (p : Nat) : Nat := 0x100700 + 0x2000 * p
abbrev PRT_ULC_EN (p : Nat) : F := ⟨PRT_ULC p, 31, 1⟩
abbrev PRT_ULC_DEPTH (p : Nat) : F := ⟨PRT_ULC p, 24, 2⟩
abbrev PRT_ULC_PEER (p : Nat) : F := ⟨PRT_ULC p, 16, 2⟩
/-- PRT_ULC_STAT, R513 (17_compound_nodes.md). -/
abbrev PRT_ULC_STAT (p : Nat) : Nat := 0x100704 + 0x2000 * p
abbrev PRT_ULC_STAT_UP (p : Nat) : F := ⟨PRT_ULC_STAT p, 31, 1⟩
abbrev PRT_ULC_STAT_IDM (p : Nat) : F := ⟨PRT_ULC_STAT p, 30, 1⟩
abbrev PRT_ULC_STAT_RELAYED (p : Nat) : F := ⟨PRT_ULC_STAT p, 0, 16⟩
/-- CRF_ST_REMOTE, R514 (17_compound_nodes.md). -/
abbrev CRF_ST_REMOTE (s : Nat) : Nat := 0x50203c + 0x40 * s
abbrev CRF_ST_REMOTE_EN (s : Nat) : F := ⟨CRF_ST_REMOTE s, 31, 1⟩
abbrev CRF_ST_REMOTE_MEMBER (s : Nat) : F := ⟨CRF_ST_REMOTE s, 24, 2⟩

/-- One register as a whole: where it lies (n1 by n2 copies at strides s1 and s2), its power-on value, the bits that
take a write (R5: rw always, lk until COMMIT, w1c), and after an HIR the bits kept and the value of the rest (R4). -/
structure RegDesc where
  base : Nat
  n1 : Nat
  s1 : Nat
  n2 : Nat
  s2 : Nat
  rst : Nat
  rw : Nat
  lk : Nat
  w1c : Nat
  keep : Nat
  hir : Nat
  deriving DecidableEq, Repr

/-- Descriptors of the registers SHELL_CTL to SHELL_CNT. -/
def descShell : List RegDesc := [
  ⟨0x0, 1, 0x40, 1, 0x4, 0x8000, 0x8000, 0x0, 0x0, 0xffffbfff, 0x0⟩,
  ⟨0x4, 1, 0x40, 1, 0x4, 0x0, 0x0, 0x0, 0x800ffff, 0xfffffff, 0x0⟩,
  ⟨0x8, 1, 0x40, 1, 0x4, 0x0, 0x0, 0x0, 0x0, 0xffff, 0x0⟩,
  ⟨0xc, 1, 0x40, 1, 0x4, 0x404, 0x7, 0x0, 0x0, 0xf07, 0x0⟩,
  ⟨0x10, 1, 0x40, 1, 0x4, 0xffffffff, 0xffffffff, 0x0, 0x0, 0xffffffff, 0x0⟩,
  ⟨0x14, 1, 0x40, 1, 0x4, 0x7d00000, 0xffff0000, 0x0, 0x0, 0xffff0001, 0x0⟩,
  ⟨0x18, 1, 0x40, 1, 0x4, 0x0, 0x0, 0x0, 0x0, 0xffffffff, 0x0⟩]
/-- Descriptors of the registers GLB_ID to GLB_HOST_DROP. -/
def descGlb : List RegDesc := [
  ⟨0x0, 1, 0x1000000, 1, 0x4, 0x5128b000, 0x0, 0x0, 0x0, 0x0, 0x5128b000⟩,
  ⟨0x8, 1, 0x1000000, 1, 0x4, 0x0, 0x0, 0x0, 0x80000000, 0x0, 0x0⟩,
  ⟨0x100, 1, 0x1000000, 1, 0x4, 0x0, 0x0, 0xffff07, 0x0, 0x80ffff07, 0x0⟩,
  ⟨0x104, 1, 0x1000000, 1, 0x4, 0x3e8, 0x0, 0x1fffff, 0x0, 0x1fffff, 0x0⟩,
  ⟨0x108, 1, 0x1000000, 1, 0x4, 0x0, 0x0, 0xffff, 0x0, 0xffff, 0x0⟩,
  ⟨0x10c, 1, 0x1000000, 1, 0x4, 0x0, 0x0, 0xffffffff, 0x0, 0xffffffff, 0x0⟩,
  ⟨0x110, 1, 0x1000000, 1, 0x4, 0x0, 0x0, 0xffffffff, 0x0, 0xffffffff, 0x0⟩,
  ⟨0x114, 1, 0x1000000, 1, 0x4, 0x0, 0x0, 0xffffffff, 0x0, 0xffffffff, 0x0⟩,
  ⟨0x1000, 64, 0x10, 1, 0x4, 0x1000, 0xffffffff, 0x0, 0x0, 0xffffffff, 0x0⟩,
  ⟨0x1004, 64, 0x10, 1, 0x4, 0x1000, 0xffffffff, 0x0, 0x0, 0xffffffff, 0x0⟩,
  ⟨0x1008, 64, 0x10, 1, 0x4, 0x400040, 0xfcfffcff, 0x0, 0x0, 0xfcfffcff, 0x0⟩,
  ⟨0x100c, 64, 0x10, 1, 0x4, 0x800, 0xffffffff, 0x0, 0x0, 0xffffffff, 0x0⟩,
  ⟨0x20, 1, 0x1000000, 1, 0x4, 0x0, 0x0, 0x0, 0x0, 0xffff, 0x0⟩,
  ⟨0x24, 1, 0x1000000, 1, 0x4, 0x0, 0x0, 0x0, 0x0, 0xffffffff, 0x0⟩]
/-- Descriptors of the registers CRF_PI_SLOT to CRF_HD_LINK. -/
def descCrf0 : List RegDesc := [
  ⟨0x508000, 256, 0x4, 1, 0x4, 0x9, 0x0, 0xc0, 0x0, 0xffff03ff, 0x0⟩,
  ⟨0x500000, 1, 0x1000000, 1, 0x4, 0x88b50000, 0x0, 0xffff0000, 0x0, 0xffff0001, 0x0⟩,
  ⟨0x500004, 1, 0x1000000, 1, 0x4, 0x0, 0x0, 0xffffffff, 0x0, 0xffffffff, 0x0⟩,
  ⟨0x500008, 1, 0x1000000, 1, 0x4, 0x0, 0x0, 0xffff0000, 0x0, 0xffff0000, 0x0⟩,
  ⟨0x501000, 64, 0x40, 1, 0x4, 0x0, 0x0, 0xffffffff, 0x0, 0xffffffff, 0x0⟩,
  ⟨0x501004, 64, 0x40, 1, 0x4, 0x0, 0x0, 0x7f7f7f7f, 0x0, 0x7f7f7f7f, 0x0⟩,
  ⟨0x501008, 64, 0x40, 1, 0x4, 0x0, 0x0, 0x1fffff, 0x0, 0x1fffff, 0x0⟩,
  ⟨0x50100c, 64, 0x40, 1, 0x4, 0x0, 0x0, 0x1fffff, 0x0, 0x1fffff, 0x0⟩,
  ⟨0x501010, 64, 0x40, 1, 0x4, 0x0, 0x0, 0xffff, 0x0, 0xffff, 0x0⟩,
  ⟨0x501014, 64, 0x40, 1, 0x4, 0x0, 0x0, 0x0, 0x0, 0xffffffff, 0x0⟩,
  ⟨0x501018, 64, 0x40, 1, 0x4, 0x0, 0x0, 0x0, 0x0, 0xffffffff, 0x0⟩,
  ⟨0x502000, 64, 0x40, 1, 0x4, 0x0, 0x0, 0xfffff000, 0x0, 0xfffff000, 0x0⟩,
  ⟨0x502004, 64, 0x40, 1, 0x4, 0x0, 0x0, 0xffff, 0x0, 0xffff, 0x0⟩,
  ⟨0x50200c, 64, 0x40, 1, 0x4, 0x0, 0x0, 0x1fffff, 0x0, 0x1fffff, 0x0⟩,
  ⟨0x502008, 64, 0x40, 1, 0x4, 0x0, 0x0, 0x3fff07ff, 0x0, 0x3fff07ff, 0x0⟩,
  ⟨0x502010, 64, 0x40, 4, 0x8, 0x0, 0x0, 0x80ff3fff, 0x0, 0x80ff3fff, 0x0⟩,
  ⟨0x502014, 64, 0x40, 4, 0x8, 0x0, 0x0, 0x7ff0fff, 0x0, 0x7ff0fff, 0x0⟩,
  ⟨0x502030, 64, 0x40, 1, 0x4, 0x0, 0x0, 0x0, 0x0, 0xffffff1f, 0x0⟩,
  ⟨0x502034, 64, 0x40, 1, 0x4, 0x0, 0x0, 0x0, 0x0, 0xffffffff, 0x0⟩,
  ⟨0x502038, 64, 0x40, 1, 0x4, 0x0, 0x0, 0x0, 0x0, 0xffffffff, 0x0⟩,
  ⟨0x504000, 64, 0x40, 8, 0x4, 0x0, 0x0, 0xffffffff, 0x0, 0xffffffff, 0x0⟩,
  ⟨0x504020, 64, 0x40, 1, 0x4, 0x0, 0x0, 0x0, 0x0, 0xfcffffff, 0x0⟩,
  ⟨0x504024, 64, 0x40, 2, 0x4, 0x0, 0x0, 0x0, 0x0, 0xffffffff, 0x0⟩,
  ⟨0x50402c, 64, 0x40, 2, 0x4, 0x0, 0x0, 0x0, 0x0, 0xffffffff, 0x0⟩]
/-- Descriptors of the registers CRF_HD_ASYM to CRF_ST_REMOTE. -/
def descCrf1 : List RegDesc := [
  ⟨0x504034, 64, 0x40, 1, 0x4, 0x0, 0x0, 0x0, 0x0, 0xffffffff, 0x0⟩,
  ⟨0x504038, 64, 0x40, 1, 0x4, 0x0, 0x0, 0x0, 0x0, 0xffffffff, 0x0⟩,
  ⟨0x50403c, 64, 0x40, 1, 0x4, 0x0, 0x0, 0x0, 0x0, 0xffffffff, 0x0⟩,
  ⟨0x50203c, 64, 0x40, 1, 0x4, 0x0, 0x0, 0x83000000, 0x0, 0x83000000, 0x0⟩]
/-- The descriptors of one region. -/
def descCrf : List RegDesc := descCrf0 ++ descCrf1
/-- Descriptors of the registers PRT_MODE to PRT_CNT_RX_BAD_HI. -/
def descPrt0 : List RegDesc := [
  ⟨0x100000, 128, 0x2000, 1, 0x4, 0x0, 0x0, 0x1ff, 0x0, 0x1ff, 0x0⟩,
  ⟨0x100004, 128, 0x2000, 1, 0x4, 0x0, 0x0, 0x0, 0x0, 0xfff0ff1, 0x0⟩,
  ⟨0x100010, 128, 0x2000, 1, 0x4, 0x0, 0x0, 0x0, 0x0, 0xffffffff, 0x0⟩,
  ⟨0x100014, 128, 0x2000, 1, 0x4, 0x0, 0x0, 0xffffffff, 0x0, 0xffffffff, 0x0⟩,
  ⟨0x100018, 128, 0x2000, 1, 0x4, 0x0, 0x0, 0x0, 0x0, 0xffffffff, 0x0⟩,
  ⟨0x100020, 128, 0x2000, 4, 0x4, 0x0, 0x0, 0x8f0f0ff1, 0x0, 0x8f0f0ff1, 0x0⟩,
  ⟨0x100030, 128, 0x2000, 1, 0x4, 0x3e8, 0x0, 0xffff, 0x0, 0xffff, 0x0⟩,
  ⟨0x100040, 128, 0x2000, 1, 0x4, 0x0, 0x0, 0x0, 0x0, 0xffffffff, 0x0⟩,
  ⟨0x100100, 128, 0x2000, 1, 0x4, 0x1, 0x0, 0x38007fff, 0x0, 0x38007fff, 0x0⟩,
  ⟨0x100104, 128, 0x2000, 1, 0x4, 0x0, 0x0, 0xffff0000, 0x0, 0xffff0000, 0x0⟩,
  ⟨0x100108, 128, 0x2000, 1, 0x4, 0x0, 0x0, 0x1ff0000, 0x0, 0x1ff00ff, 0x0⟩,
  ⟨0x10010c, 128, 0x2000, 1, 0x4, 0xa0000, 0x0, 0xff0003, 0x0, 0xff0307, 0x0⟩,
  ⟨0x100120, 128, 0x2000, 8, 0x4, 0x0, 0x0, 0xffff0000, 0x0, 0xffffffff, 0x0⟩,
  ⟨0x100140, 128, 0x2000, 1, 0x4, 0x0, 0x0, 0x0, 0x0, 0x1ff, 0x0⟩,
  ⟨0x100200, 128, 0x2000, 1, 0x4, 0x0, 0x0, 0x0, 0x0, 0xffffffff, 0x0⟩,
  ⟨0x100204, 128, 0x2000, 1, 0x4, 0x0, 0x0, 0x0, 0x0, 0xffffffff, 0x0⟩,
  ⟨0x100208, 128, 0x2000, 1, 0x4, 0x0, 0x0, 0x0, 0x0, 0xffffffff, 0x0⟩,
  ⟨0x10020c, 128, 0x2000, 1, 0x4, 0x0, 0x0, 0x0, 0x0, 0xffffffff, 0x0⟩,
  ⟨0x100210, 128, 0x2000, 1, 0x4, 0x0, 0x0, 0x0, 0x0, 0xffffffff, 0x0⟩,
  ⟨0x100214, 128, 0x2000, 1, 0x4, 0x0, 0x0, 0x0, 0x0, 0xffffffff, 0x0⟩,
  ⟨0x100218, 128, 0x2000, 1, 0x4, 0x0, 0x0, 0x0, 0x0, 0xffffffff, 0x0⟩,
  ⟨0x10021c, 128, 0x2000, 1, 0x4, 0x0, 0x0, 0x0, 0x0, 0xffffffff, 0x0⟩,
  ⟨0x100220, 128, 0x2000, 1, 0x4, 0x0, 0x0, 0x0, 0x0, 0xffffffff, 0x0⟩,
  ⟨0x100224, 128, 0x2000, 1, 0x4, 0x0, 0x0, 0x0, 0x0, 0xffffffff, 0x0⟩]
/-- Descriptors of the registers PRT_CNT_DROP_BUF to PRT_GRD_GUARD. -/
def descPrt1 : List RegDesc := [
  ⟨0x100228, 128, 0x2000, 1, 0x4, 0x0, 0x0, 0x0, 0x0, 0xffffffff, 0x0⟩,
  ⟨0x10022c, 128, 0x2000, 1, 0x4, 0x0, 0x0, 0x0, 0x0, 0xffffffff, 0x0⟩,
  ⟨0x100230, 128, 0x2000, 1, 0x4, 0x0, 0x0, 0x0, 0x0, 0xffffffff, 0x0⟩,
  ⟨0x100234, 128, 0x2000, 1, 0x4, 0x0, 0x0, 0x0, 0x0, 0xffffffff, 0x0⟩,
  ⟨0x100238, 128, 0x2000, 1, 0x4, 0x0, 0x0, 0x0, 0x0, 0xffffffff, 0x0⟩,
  ⟨0x10023c, 128, 0x2000, 1, 0x4, 0x0, 0x0, 0x0, 0x0, 0xffffffff, 0x0⟩,
  ⟨0x100240, 128, 0x2000, 1, 0x4, 0x0, 0x0, 0x0, 0x0, 0xffffffff, 0x0⟩,
  ⟨0x100244, 128, 0x2000, 1, 0x4, 0x0, 0x0, 0x0, 0x0, 0xffffffff, 0x0⟩,
  ⟨0x100248, 128, 0x2000, 1, 0x4, 0x0, 0x0, 0x0, 0x0, 0xffffffff, 0x0⟩,
  ⟨0x10024c, 128, 0x2000, 1, 0x4, 0x0, 0x0, 0x0, 0x0, 0xffffffff, 0x0⟩,
  ⟨0x100250, 128, 0x2000, 1, 0x4, 0x0, 0x0, 0x0, 0x0, 0xffffffff, 0x0⟩,
  ⟨0x100254, 128, 0x2000, 1, 0x4, 0x0, 0x0, 0x0, 0x0, 0xffffffff, 0x0⟩,
  ⟨0x100258, 128, 0x2000, 1, 0x4, 0x0, 0x0, 0x0, 0x0, 0xffffffff, 0x0⟩,
  ⟨0x10025c, 128, 0x2000, 1, 0x4, 0x0, 0x0, 0x0, 0x0, 0xffffffff, 0x0⟩,
  ⟨0x100260, 128, 0x2000, 1, 0x4, 0x0, 0x0, 0x0, 0x0, 0xffffffff, 0x0⟩,
  ⟨0x100264, 128, 0x2000, 1, 0x4, 0x0, 0x0, 0x0, 0x0, 0xffffffff, 0x0⟩,
  ⟨0x100268, 128, 0x2000, 1, 0x4, 0x0, 0x0, 0x0, 0x0, 0xffffffff, 0x0⟩,
  ⟨0x10026c, 128, 0x2000, 1, 0x4, 0x0, 0x0, 0x0, 0x0, 0xffffffff, 0x0⟩,
  ⟨0x100270, 128, 0x2000, 1, 0x4, 0x0, 0x0, 0x0, 0x0, 0xffffffff, 0x0⟩,
  ⟨0x100274, 128, 0x2000, 1, 0x4, 0x0, 0x0, 0x0, 0x0, 0xffffffff, 0x0⟩,
  ⟨0x100180, 128, 0x2000, 1, 0x4, 0x0, 0x0, 0x1, 0x0, 0x1, 0x0⟩,
  ⟨0x100184, 128, 0x2000, 1, 0x4, 0x0, 0x0, 0x0, 0x0, 0xffffffff, 0x0⟩,
  ⟨0x100400, 128, 0x2000, 1, 0x4, 0x1, 0x0, 0x807fffff, 0x0, 0x807fffff, 0x0⟩,
  ⟨0x100404, 128, 0x2000, 1, 0x4, 0x0, 0x0, 0xffff, 0x0, 0xffff, 0x0⟩]
/-- Descriptors of the registers PRT_GRD_SU to PRT_ULC_STAT. -/
def descPrt2 : List RegDesc := [
  ⟨0x100408, 128, 0x2000, 1, 0x4, 0x88b501f4, 0x0, 0xffffffff, 0x0, 0xffffffff, 0x0⟩,
  ⟨0x10040c, 128, 0x2000, 1, 0x4, 0x0, 0x0, 0x0, 0x0, 0x3, 0x0⟩,
  ⟨0x100410, 128, 0x2000, 1, 0x4, 0x0, 0x0, 0x0, 0x0, 0xffffffff, 0x0⟩,
  ⟨0x100414, 128, 0x2000, 1, 0x4, 0x0, 0x0, 0x0, 0x0, 0xffffffff, 0x0⟩,
  ⟨0x100418, 128, 0x2000, 1, 0x4, 0x0, 0x0, 0x0, 0x0, 0xffffffff, 0x0⟩,
  ⟨0x10041c, 128, 0x2000, 1, 0x4, 0x0, 0x0, 0x0, 0x0, 0xffff, 0x0⟩,
  ⟨0x100800, 128, 0x2000, 64, 0x8, 0x0, 0x0, 0xffffffff, 0x0, 0xffffffff, 0x0⟩,
  ⟨0x100804, 128, 0x2000, 64, 0x8, 0x0, 0x0, 0xffffff, 0x0, 0xffffff, 0x0⟩,
  ⟨0x100420, 128, 0x2000, 1, 0x4, 0x0, 0x0, 0xffff, 0x0, 0xffff, 0x0⟩,
  ⟨0x100600, 128, 0x2000, 1, 0x4, 0xff00, 0x0, 0xfc00ff00, 0x0, 0xfc00ff00, 0x0⟩,
  ⟨0x100604, 128, 0x2000, 1, 0x4, 0x0, 0x0, 0xffffffff, 0x0, 0xffffffff, 0x0⟩,
  ⟨0x100608, 128, 0x2000, 1, 0x4, 0x0, 0x0, 0x0, 0x0, 0xe0ffff03, 0x0⟩,
  ⟨0x100610, 128, 0x2000, 1, 0x4, 0x0, 0x0, 0x0, 0x0, 0xffffffff, 0x0⟩,
  ⟨0x100614, 128, 0x2000, 1, 0x4, 0x0, 0x0, 0x0, 0x0, 0xffffffff, 0x0⟩,
  ⟨0x100618, 128, 0x2000, 1, 0x4, 0x0, 0x0, 0x0, 0x0, 0xffffffff, 0x0⟩,
  ⟨0x10061c, 128, 0x2000, 1, 0x4, 0x0, 0x0, 0x0, 0x0, 0xffffffff, 0x0⟩,
  ⟨0x100620, 128, 0x2000, 1, 0x4, 0x0, 0x0, 0x0, 0x0, 0xffffffff, 0x0⟩,
  ⟨0x100700, 128, 0x2000, 1, 0x4, 0x0, 0x0, 0x83030000, 0x0, 0x83030000, 0x0⟩,
  ⟨0x100704, 128, 0x2000, 1, 0x4, 0x0, 0x0, 0x0, 0x0, 0xc000ffff, 0x0⟩]
/-- The descriptors of one region. -/
def descPrt : List RegDesc := descPrt0 ++ descPrt1 ++ descPrt2
/-- Descriptors of the registers LN_CTL to LN_ERR. -/
def descLn : List RegDesc := [
  ⟨0x200000, 512, 0x400, 1, 0x4, 0x0, 0x0, 0xf3, 0x0, 0xf3, 0x0⟩,
  ⟨0x200004, 512, 0x400, 1, 0x4, 0x0, 0x0, 0x0, 0x0, 0x7f, 0x0⟩,
  ⟨0x200008, 512, 0x400, 1, 0x4, 0x0, 0x0, 0x0, 0x0, 0xff03ffff, 0x0⟩,
  ⟨0x20000c, 512, 0x400, 1, 0x4, 0x1000080a, 0xffffffff, 0x0, 0x0, 0xffffffff, 0x0⟩,
  ⟨0x200010, 512, 0x400, 1, 0x4, 0x0, 0x0, 0x0, 0x0, 0xffffffff, 0x0⟩]
/-- Descriptors of the registers STR_ACC to FWD_BUF. -/
def descFwd : List RegDesc := [
  ⟨0x400000, 1, 0x1000000, 1, 0x4, 0x0, 0xf03ffff, 0x0, 0x0, 0x0, 0x0⟩,
  ⟨0x400010, 16, 0x4, 1, 0x4, 0x0, 0xffffffff, 0x0, 0x0, 0x0, 0x0⟩,
  ⟨0x400100, 1, 0x1000000, 1, 0x4, 0x12c, 0xffff, 0x80000000, 0x0, 0x8000ffff, 0x0⟩,
  ⟨0x401000, 4, 0x10, 1, 0x4, 0x60020000, 0x0, 0xe0000000, 0x0, 0xe003ffff, 0x0⟩]
/-- Descriptors of the registers SP_CTL to SP_CNT. -/
def descSp : List RegDesc := [
  ⟨0x300000, 16, 0x10000, 1, 0x4, 0x0, 0x0, 0x1, 0x0, 0x1, 0x0⟩,
  ⟨0x300004, 16, 0x10000, 1, 0x4, 0x1000, 0x0, 0x0, 0xc00000, 0xffcf1fff, 0x0⟩,
  ⟨0x300008, 16, 0x10000, 1, 0x4, 0x0, 0x1f0, 0x0, 0x0, 0xffff01f0, 0x0⟩,
  ⟨0x30000c, 16, 0x10000, 1, 0x4, 0x2e0, 0x0, 0x0, 0x0, 0xfffff, 0x0⟩,
  ⟨0x300010, 16, 0x10000, 1, 0x4, 0x100, 0xfffff, 0x0, 0x0, 0xfffff, 0x0⟩,
  ⟨0x300014, 16, 0x10000, 1, 0x4, 0x0, 0x0, 0x0, 0x0, 0xfffff, 0x0⟩,
  ⟨0x300018, 16, 0x10000, 1, 0x4, 0x0, 0xffffff, 0x0, 0x0, 0x80ffffff, 0x0⟩,
  ⟨0x300020, 16, 0x10000, 1, 0x4, 0x0, 0x0, 0x0, 0x0, 0xcfff1fff, 0x0⟩,
  ⟨0x300024, 16, 0x10000, 4, 0x4, 0x0, 0x0, 0x0, 0x0, 0xffffffff, 0x0⟩,
  ⟨0x300040, 16, 0x10000, 1, 0x4, 0x0, 0x10001fff, 0x0, 0x0, 0x0, 0x0⟩,
  ⟨0x300044, 16, 0x10000, 4, 0x4, 0x0, 0xffffffff, 0x0, 0x0, 0x0, 0x0⟩,
  ⟨0x300054, 16, 0x10000, 1, 0x4, 0x0, 0x0, 0x0, 0x0, 0x0, 0x0⟩,
  ⟨0x300058, 16, 0x10000, 1, 0x4, 0x0, 0x0, 0x0, 0x0, 0xff1fff, 0x0⟩,
  ⟨0x300060, 16, 0x10000, 1, 0x4, 0x0, 0x0, 0x0, 0x0, 0xffffffff, 0x0⟩]
/-- Descriptors of the registers FRER_ACC to DUP_RG_CNT. -/
def descFrer : List RegDesc := [
  ⟨0x600000, 1, 0x1000000, 1, 0x4, 0x0, 0xf00ffff, 0x0, 0x0, 0x0, 0x0⟩,
  ⟨0x600010, 10, 0x4, 1, 0x4, 0x0, 0xffffffff, 0x0, 0x0, 0x0, 0x0⟩,
  ⟨0x600100, 1, 0x1000000, 1, 0x4, 0x3c0190, 0xffffffff, 0x0, 0x0, 0xffffffff, 0x0⟩,
  ⟨0x601000, 16, 0x10, 1, 0x4, 0x20, 0x0, 0xf87f7fff, 0x0, 0xf87f7fff, 0x0⟩,
  ⟨0x601004, 16, 0x10, 1, 0x4, 0x0, 0x0, 0x3fff1fff, 0x0, 0x3fff1fff, 0x0⟩,
  ⟨0x601008, 16, 0x10, 1, 0x4, 0x0, 0x0, 0x0, 0x0, 0xffffffff, 0x0⟩]
/-- Descriptors of the registers SYN_CS_CTL to NODE_SPER. -/
def descSyn0 : List RegDesc := [
  ⟨0x58000, 8, 0x40, 1, 0x4, 0x1000, 0x0, 0x80ffffff, 0x0, 0xc0ffffff, 0x0⟩,
  ⟨0x58004, 8, 0x40, 1, 0x4, 0x4e20, 0x0, 0xffffff, 0x0, 0xffffff, 0x0⟩,
  ⟨0x58008, 8, 0x40, 1, 0x4, 0x13880064, 0x0, 0xffffffff, 0x0, 0xffffffff, 0x0⟩,
  ⟨0x5800c, 8, 0x40, 1, 0x4, 0x3e803e8, 0x0, 0xffffffff, 0x0, 0xffffffff, 0x0⟩,
  ⟨0x58010, 8, 0x40, 4, 0x4, 0x0, 0x0, 0xffffffff, 0x0, 0xffffffff, 0x0⟩,
  ⟨0x58020, 8, 0x40, 1, 0x4, 0x0, 0x0, 0x0, 0x0, 0xff000007, 0x0⟩,
  ⟨0x58024, 8, 0x40, 1, 0x4, 0x0, 0x0, 0x0, 0x0, 0xffffffff, 0x0⟩,
  ⟨0x58028, 8, 0x40, 1, 0x4, 0x0, 0x0, 0x0, 0x0, 0xffffffff, 0x0⟩,
  ⟨0x50000, 8, 0x1000, 1, 0x4, 0x8104000f, 0x0, 0x83ff00ff, 0x0, 0x83ff00ff, 0x0⟩,
  ⟨0x50004, 8, 0x1000, 1, 0x4, 0x400100, 0xffffffff, 0x0, 0x0, 0xffffffff, 0x0⟩,
  ⟨0x50008, 8, 0x1000, 1, 0x4, 0x3e803e8, 0x0, 0xffffffff, 0x0, 0xffffffff, 0x0⟩,
  ⟨0x5000c, 8, 0x1000, 1, 0x4, 0x500008, 0xffff00ff, 0x0, 0x0, 0xffff00ff, 0x0⟩,
  ⟨0x50010, 8, 0x1000, 1, 0x4, 0x1f4, 0xffff, 0x0, 0x0, 0xffff, 0x0⟩,
  ⟨0x50020, 8, 0x1000, 1, 0x4, 0x0, 0x0, 0x0, 0x70000000, 0xfcffffff, 0x0⟩,
  ⟨0x50024, 8, 0x1000, 1, 0x4, 0x0, 0x0, 0x0, 0x0, 0xffffffff, 0x0⟩,
  ⟨0x50028, 8, 0x1000, 1, 0x4, 0x0, 0x0, 0x0, 0x0, 0xffffffff, 0x0⟩,
  ⟨0x5002c, 8, 0x1000, 1, 0x4, 0x0, 0x0, 0x0, 0x0, 0xffffffff, 0x0⟩,
  ⟨0x50030, 8, 0x1000, 1, 0x4, 0x0, 0x0, 0x0, 0x0, 0xffffffff, 0x0⟩,
  ⟨0x50034, 8, 0x1000, 1, 0x4, 0x0, 0x0, 0x0, 0x0, 0xffffe0ff, 0x0⟩,
  ⟨0x5f000, 1, 0x1000000, 1, 0x4, 0x0, 0x700ff, 0x0, 0x0, 0x400700ff, 0x0⟩,
  ⟨0x50100, 8, 0x1000, 16, 0x40, 0x0, 0xe000ffff, 0x0, 0x0, 0xf000ffff, 0x0⟩,
  ⟨0x50104, 8, 0x1000, 16, 0x40, 0x0, 0x7f007f00, 0x0, 0x0, 0x7f007f00, 0x0⟩,
  ⟨0x50108, 8, 0x1000, 16, 0x40, 0x0, 0xffffffff, 0x0, 0x0, 0xffffffff, 0x0⟩,
  ⟨0x5010c, 8, 0x1000, 16, 0x40, 0x0, 0xffffffff, 0x0, 0x0, 0xffffffff, 0x0⟩]
/-- Descriptors of the registers NODE_DLY to PTP_EST. -/
def descSyn1 : List RegDesc := [
  ⟨0x50110, 8, 0x1000, 16, 0x40, 0x0, 0xffffffff, 0x0, 0x0, 0xffffffff, 0x0⟩,
  ⟨0x50114, 8, 0x1000, 16, 0x40, 0x0, 0xffffffff, 0x0, 0x0, 0xffffffff, 0x0⟩,
  ⟨0x50118, 8, 0x1000, 16, 0x40, 0x0, 0x0, 0x0, 0x0, 0xffffffff, 0x0⟩,
  ⟨0x5011c, 8, 0x1000, 16, 0x40, 0x0, 0x0, 0x0, 0x0, 0xf8ffffff, 0x0⟩,
  ⟨0x50120, 8, 0x1000, 16, 0x40, 0x0, 0x0, 0x0, 0x0, 0xffffffff, 0x0⟩,
  ⟨0x50124, 8, 0x1000, 16, 0x40, 0x0, 0x0, 0x0, 0x0, 0xffffffff, 0x0⟩,
  ⟨0x50128, 8, 0x1000, 16, 0x40, 0x0, 0x0, 0x0, 0x0, 0x0, 0x0⟩,
  ⟨0x50600, 8, 0x1000, 4, 0x10, 0x0, 0xbf000003, 0x0, 0x0, 0xbf000003, 0x0⟩,
  ⟨0x50604, 8, 0x1000, 4, 0x10, 0x0, 0xffffffff, 0x0, 0x0, 0xffffffff, 0x0⟩,
  ⟨0x50608, 8, 0x1000, 4, 0x10, 0x0, 0x0, 0x0, 0x0, 0xffffffff, 0x0⟩,
  ⟨0x5060c, 8, 0x1000, 4, 0x10, 0x0, 0x0, 0x0, 0x0, 0xffffffff, 0x0⟩,
  ⟨0x50800, 8, 0x1000, 1, 0x4, 0xfd00, 0x10000000, 0xefffffff, 0x0, 0xffffffff, 0x0⟩,
  ⟨0x50804, 8, 0x1000, 1, 0x4, 0x0, 0xffff0000, 0x0, 0x0, 0xffff0000, 0x0⟩,
  ⟨0x50810, 8, 0x1000, 4, 0x4, 0x0, 0xffffffff, 0x0, 0x0, 0xffffffff, 0x0⟩,
  ⟨0x50820, 8, 0x1000, 1, 0x4, 0x0, 0x0, 0x0, 0x0, 0xffffffff, 0x0⟩,
  ⟨0x50824, 8, 0x1000, 2, 0x4, 0x0, 0x0, 0x0, 0x0, 0xffffffff, 0x0⟩,
  ⟨0x5082c, 8, 0x1000, 1, 0x4, 0x0, 0x0, 0x0, 0x0, 0xffffffff, 0x0⟩,
  ⟨0x50830, 8, 0x1000, 1, 0x4, 0x0, 0x0, 0x0, 0x0, 0xf0000000, 0x0⟩,
  ⟨0x50834, 8, 0x1000, 2, 0x4, 0x0, 0xffffffff, 0x0, 0x0, 0xffffffff, 0x0⟩,
  ⟨0x5083c, 8, 0x1000, 2, 0x4, 0x0, 0x0, 0x0, 0x0, 0xffffffff, 0x0⟩]
/-- The descriptors of one region. -/
def descSyn : List RegDesc := descSyn0 ++ descSyn1
/-- Descriptors of the registers TB_CTL to TB_CMP_TARGET. -/
def descTb0 : List RegDesc := [
  ⟨0x40000, 8, 0x100, 1, 0x4, 0x0, 0x0, 0x3, 0x0, 0x3, 0x0⟩,
  ⟨0x40004, 9, 0x100, 1, 0x4, 0x0, 0x0, 0x0, 0x0, 0xffffffff, 0x0⟩,
  ⟨0x40008, 9, 0x100, 1, 0x4, 0x0, 0x0, 0x0, 0x0, 0xffff0000, 0x0⟩,
  ⟨0x4000c, 8, 0x100, 1, 0x4, 0x0, 0xffffffff, 0x0, 0x0, 0xffffffff, 0x0⟩,
  ⟨0x40010, 8, 0x100, 1, 0x4, 0x100, 0xffff, 0x0, 0x0, 0xffff, 0x0⟩,
  ⟨0x40014, 8, 0x100, 1, 0x4, 0x0, 0x0, 0x0, 0x0, 0xffffffff, 0x0⟩,
  ⟨0x40018, 8, 0x100, 1, 0x4, 0x0, 0x0, 0x0, 0x0, 0xffff, 0x0⟩,
  ⟨0x4001c, 8, 0x100, 1, 0x4, 0x0, 0xffff0000, 0x0, 0x0, 0xffff0000, 0x0⟩,
  ⟨0x40020, 8, 0x100, 1, 0x4, 0x0, 0x0, 0x0, 0x0, 0x0, 0x0⟩,
  ⟨0x40024, 9, 0x100, 1, 0x4, 0x0, 0x0, 0x0, 0x3, 0xffff0007, 0x0⟩,
  ⟨0x40028, 8, 0x100, 1, 0x4, 0x0, 0xffffffff, 0x0, 0x0, 0xffffffff, 0x0⟩,
  ⟨0x40900, 1, 0x1000000, 1, 0x4, 0x0, 0x0, 0x0, 0x0, 0xf, 0x0⟩,
  ⟨0x40904, 1, 0x1000000, 1, 0x4, 0x0, 0x0, 0x0, 0x0, 0xffff, 0x0⟩,
  ⟨0x40910, 9, 0x8, 1, 0x4, 0x0, 0x0, 0x0, 0x0, 0xffffffff, 0x0⟩,
  ⟨0x40914, 9, 0x8, 1, 0x4, 0x0, 0x0, 0x0, 0x0, 0xffff0000, 0x0⟩,
  ⟨0x41000, 12, 0x10, 1, 0x4, 0x0, 0xf0070000, 0x0, 0x0, 0xf007ffff, 0x0⟩,
  ⟨0x41004, 12, 0x10, 1, 0x4, 0x0, 0x0, 0x0, 0x0, 0xffffffff, 0x0⟩,
  ⟨0x41008, 12, 0x10, 1, 0x4, 0x0, 0x0, 0x0, 0x0, 0xffff009f, 0x0⟩,
  ⟨0x4100c, 12, 0x10, 1, 0x4, 0x0, 0x0, 0x0, 0x0, 0xffffffff, 0x0⟩,
  ⟨0x41200, 4, 0x10, 1, 0x4, 0x64, 0x8007ffff, 0x0, 0x40000000, 0xc007ffff, 0x0⟩,
  ⟨0x41204, 4, 0x10, 1, 0x4, 0x0, 0xffffffff, 0x0, 0x0, 0xffffffff, 0x0⟩,
  ⟨0x41208, 4, 0x10, 1, 0x4, 0x3b9aca00, 0xffffffff, 0x0, 0x0, 0xffffffff, 0x0⟩,
  ⟨0x41400, 16, 0x10, 1, 0x4, 0x0, 0xa0000007, 0x0, 0x40000000, 0xe0000007, 0x0⟩,
  ⟨0x41404, 16, 0x10, 1, 0x4, 0x0, 0xffffffff, 0x0, 0x0, 0xffffffff, 0x0⟩]
/-- Descriptors of the registers TB_CMP_PER to TB_VLAT_TBLF. -/
def descTb1 : List RegDesc := [
  ⟨0x41408, 16, 0x10, 1, 0x4, 0x0, 0xffffffff, 0x0, 0x0, 0xffffffff, 0x0⟩,
  ⟨0x4140c, 16, 0x10, 1, 0x4, 0x0, 0x0, 0x0, 0x0, 0xffffffff, 0x0⟩,
  ⟨0x48000, 2048, 0x10, 1, 0x4, 0x0, 0x0, 0x0, 0x0, 0xffffffff, 0x0⟩,
  ⟨0x48004, 2048, 0x10, 1, 0x4, 0x0, 0x7, 0x0, 0x0, 0xffffff07, 0x0⟩,
  ⟨0x48008, 2048, 0x10, 1, 0x4, 0x0, 0x0, 0x0, 0x0, 0xffffffff, 0x0⟩,
  ⟨0x4800c, 2048, 0x10, 1, 0x4, 0x0, 0x0, 0x0, 0x0, 0x0, 0x0⟩]
/-- The descriptors of one region. -/
def descTb : List RegDesc := descTb0 ++ descTb1
/-- Descriptors of the registers EVT_ROUTE to FLT_PEND. -/
def descFlt : List RegDesc := [
  ⟨0x3f000, 17, 0x4, 1, 0x4, 0x0, 0x803f0000, 0x0, 0x0, 0x803fffff, 0x0⟩,
  ⟨0x20000, 1, 0x1000000, 1, 0x4, 0x3, 0xf, 0x0, 0x0, 0xf, 0x0⟩,
  ⟨0x20004, 1, 0x1000000, 1, 0x4, 0x6, 0x0, 0x3, 0x0, 0x80000003, 0x4⟩,
  ⟨0x20008, 1, 0x1000000, 1, 0x4, 0x0, 0x0, 0x0, 0x3f, 0x3f, 0x0⟩,
  ⟨0x20010, 6, 0x4, 1, 0x4, 0x7000000, 0x870007ff, 0x0, 0x0, 0x870007ff, 0x0⟩,
  ⟨0x20040, 6, 0x4, 1, 0x4, 0x0, 0xff00ffff, 0x0, 0x0, 0xff00ffff, 0x0⟩,
  ⟨0x20060, 1, 0x1000000, 1, 0x4, 0x6e050000, 0xffff0000, 0x0, 0x0, 0xffffffff, 0x0⟩,
  ⟨0x20064, 1, 0x1000000, 1, 0x4, 0x0, 0x0, 0x0, 0x0, 0xffff, 0x0⟩,
  ⟨0x20068, 1, 0x1000000, 1, 0x4, 0x0, 0x0, 0x0, 0x80000000, 0x9f03ffff, 0x0⟩,
  ⟨0x20100, 21, 0x4, 1, 0x4, 0x0, 0x0, 0x0, 0x0, 0xffffffff, 0x0⟩]
/-- Descriptors of the registers DB_TX to DB_FN_STAT. -/
def descDb : List RegDesc := [
  ⟨0x700000, 64, 0x1000, 1, 0x4, 0x0, 0x0, 0x0, 0x0, 0x0, 0x0⟩,
  ⟨0x700004, 64, 0x1000, 1, 0x4, 0x0, 0x0, 0x0, 0x0, 0x0, 0x0⟩,
  ⟨0x700008, 64, 0x1000, 1, 0x4, 0x0, 0x0, 0x0, 0x0, 0x0, 0x0⟩,
  ⟨0x70000c, 64, 0x1000, 1, 0x4, 0x0, 0x0, 0x0, 0x0, 0x0, 0x0⟩,
  ⟨0x700010, 64, 0x1000, 1, 0x4, 0x0, 0x0, 0x0, 0x0, 0x0, 0x0⟩,
  ⟨0x700020, 64, 0x1000, 1, 0x4, 0x0, 0xffffffff, 0x0, 0x0, 0x0, 0x0⟩,
  ⟨0x700024, 64, 0x1000, 1, 0x4, 0x0, 0xffffffff, 0x0, 0x0, 0x0, 0x0⟩,
  ⟨0x700028, 64, 0x1000, 1, 0x4, 0x0, 0xffffffff, 0x0, 0x0, 0x0, 0x0⟩,
  ⟨0x70002c, 64, 0x1000, 1, 0x4, 0x0, 0xffffffff, 0x0, 0x0, 0x0, 0x0⟩,
  ⟨0x700030, 64, 0x1000, 1, 0x4, 0x0, 0x8007ff0f, 0x0, 0x0, 0x0, 0x0⟩,
  ⟨0x700040, 64, 0x1000, 1, 0x4, 0x0, 0x7000fff, 0x0, 0x0, 0x0, 0x0⟩,
  ⟨0x700044, 64, 0x1000, 1, 0x4, 0x0, 0x0, 0x0, 0x0, 0x0, 0x0⟩,
  ⟨0x700048, 64, 0x1000, 1, 0x4, 0x0, 0x0, 0x0, 0x0, 0x0, 0x0⟩,
  ⟨0x70004c, 64, 0x1000, 1, 0x4, 0x0, 0x0, 0x0, 0x0, 0x0, 0x0⟩,
  ⟨0x700050, 64, 0x1000, 1, 0x4, 0x0, 0x0, 0x0, 0x0, 0x0, 0x0⟩,
  ⟨0x700060, 64, 0x1000, 1, 0x4, 0x0, 0x0, 0x0, 0x0, 0xffff, 0x0⟩]
/-- Descriptors of the registers BOOT_STATUS to BOOT_ARG. -/
def descBoot : List RegDesc := [
  ⟨0xb00010, 1, 0x1000000, 1, 0x4, 0x0, 0x0, 0x0, 0x0, 0xffff, 0x0⟩,
  ⟨0xb00014, 1, 0x1000000, 1, 0x4, 0x0, 0x0, 0x0, 0x0, 0xf73f0fff, 0x0⟩,
  ⟨0xb00018, 1, 0x1000000, 1, 0x4, 0x0, 0x0, 0x0, 0x0, 0x1ffffff, 0x0⟩,
  ⟨0xb00000, 1, 0x1000000, 1, 0x4, 0x0, 0x0, 0x0, 0x0, 0x10000000, 0x0⟩,
  ⟨0xb00004, 1, 0x1000000, 1, 0x4, 0x0, 0x0, 0x0, 0x0, 0xff00ffff, 0x0⟩,
  ⟨0xb00008, 1, 0x1000000, 1, 0x4, 0x0, 0x0, 0x0, 0x0, 0xffffffff, 0x0⟩,
  ⟨0xb0000c, 1, 0x1000000, 1, 0x4, 0x0, 0x0, 0x0, 0x0, 0xffffffff, 0x0⟩,
  ⟨0xb0001c, 1, 0x1000000, 1, 0x4, 0x0, 0x0, 0x0, 0x0, 0xffff, 0x0⟩,
  ⟨0xb00020, 1, 0x1000000, 1, 0x4, 0x0, 0x0, 0x0, 0x0, 0xffffffff, 0x0⟩,
  ⟨0xb00040, 16, 0x4, 1, 0x4, 0x0, 0xffffffff, 0x0, 0x0, 0xffffffff, 0x0⟩]
/-- Descriptors of the registers DMA_CH_CFG to GRD_PROF_C. -/
def descDma : List RegDesc := [
  ⟨0x800000, 64, 0x40, 1, 0x4, 0x1000, 0xe03fdfff, 0x0, 0x0, 0xe03fdfff, 0x0⟩,
  ⟨0x800004, 64, 0x40, 1, 0x4, 0x0, 0x1, 0x0, 0x0, 0x1, 0x0⟩,
  ⟨0x800008, 64, 0x40, 1, 0x4, 0x0, 0x0, 0x0, 0x0, 0x0, 0x0⟩,
  ⟨0x80000c, 64, 0x40, 1, 0x4, 0x0, 0x0, 0x0, 0x0, 0x0, 0x0⟩,
  ⟨0x800010, 64, 0x40, 1, 0x4, 0x0, 0x0, 0x0, 0x0, 0x0, 0x0⟩,
  ⟨0x800014, 64, 0x40, 1, 0x4, 0x0, 0x0, 0x0, 0x0, 0x0, 0x0⟩,
  ⟨0x800018, 64, 0x40, 1, 0x4, 0x0, 0x0, 0x0, 0x0, 0xffffffff, 0x0⟩,
  ⟨0x802000, 1, 0x1000000, 1, 0x4, 0x0, 0x0, 0x0, 0x0, 0x0, 0x0⟩,
  ⟨0x802004, 1, 0x1000000, 1, 0x4, 0x0, 0x0, 0x0, 0x0, 0x0, 0x0⟩,
  ⟨0x804000, 16, 0x10, 1, 0x4, 0x0, 0xf07fffff, 0x0, 0x0, 0xf07fffff, 0x0⟩,
  ⟨0x804004, 16, 0x10, 1, 0x4, 0x0, 0xffffffff, 0x0, 0x0, 0xffffffff, 0x0⟩,
  ⟨0x804008, 16, 0x10, 1, 0x4, 0x0, 0xffffff, 0x0, 0x0, 0xffffff, 0x0⟩]
/-- Descriptors of the registers SEC_STAT to SEC_TRUST. -/
def descSec : List RegDesc := [
  ⟨0x900000, 1, 0x1000000, 1, 0x4, 0x2, 0x0, 0x0, 0x0, 0xf00780ff, 0x0⟩,
  ⟨0x900004, 1, 0x1000000, 1, 0x4, 0x0, 0x0, 0x0, 0x0, 0xff, 0x0⟩,
  ⟨0x900010, 1, 0x1000000, 1, 0x4, 0x0, 0xffffff, 0x0, 0x0, 0xffffff, 0x0⟩,
  ⟨0x900014, 1, 0x1000000, 1, 0x4, 0x0, 0x0, 0x0, 0x0, 0x8f00ffff, 0x0⟩,
  ⟨0x900100, 4, 0x40, 12, 0x4, 0x0, 0x0, 0x0, 0x0, 0xffffffff, 0x0⟩,
  ⟨0x900200, 12, 0x4, 1, 0x4, 0x0, 0x0, 0x0, 0x0, 0xffffffff, 0x0⟩,
  ⟨0x900300, 12, 0x4, 1, 0x4, 0x0, 0x0, 0x0, 0x0, 0xffffffff, 0x0⟩,
  ⟨0x901000, 239, 0x40, 16, 0x4, 0x0, 0x0, 0x0, 0x0, 0xffffffff, 0x0⟩,
  ⟨0x908000, 256, 0x40, 16, 0x4, 0x0, 0x0, 0x0, 0x0, 0xffffffff, 0x0⟩]
/-- Descriptors of the registers PWR_CTL to PWR_PORT_WHY. -/
def descPwr : List RegDesc := [
  ⟨0xa00000, 1, 0x1000000, 1, 0x4, 0x3e8, 0xffff, 0x0, 0x0, 0x8000ffff, 0x0⟩,
  ⟨0xa00008, 1, 0x1000000, 1, 0x4, 0x0, 0x0, 0x0, 0x0, 0xffff, 0x0⟩,
  ⟨0xa01000, 128, 0x8, 1, 0x4, 0x0, 0x0, 0x0, 0x0, 0xffffffff, 0x0⟩,
  ⟨0xa01004, 128, 0x8, 1, 0x4, 0x0, 0x0, 0x0, 0x0, 0x7, 0x0⟩]
/-- Descriptors of the registers ULC_CN_CTL to ULC_TIME. -/
def descUlc : List RegDesc := [
  ⟨0xc10000, 4, 0x10, 1, 0x4, 0x0, 0x0, 0x833003ff, 0x0, 0x833003ff, 0x0⟩,
  ⟨0xc10004, 4, 0x10, 1, 0x4, 0x0, 0x0, 0x0, 0x0, 0xffe00000, 0x0⟩,
  ⟨0xc10100, 1, 0x1000000, 1, 0x4, 0x0, 0x0, 0x0, 0x0, 0xffffffff, 0x0⟩]

/-- Whether a register's copies include the offset. -/
def RegDesc.has (r : RegDesc) (off : Nat) : Bool :=
  Nat.ble r.base off && Nat.blt ((off - r.base) / r.s1) r.n1 &&
  Nat.blt ((off - r.base) % r.s1 / r.s2) r.n2 && Nat.beq ((off - r.base) % r.s1 % r.s2) 0

/-- The descriptors of the region an offset lies in (R25). -/
def regRegion (off : Nat) : List RegDesc :=
  if Nat.blt off 0x10000 then descGlb
  else if Nat.blt off 0x20000 then []
  else if Nat.blt off 0x40000 then descFlt
  else if Nat.blt off 0x50000 then descTb
  else if Nat.blt off 0x100000 then descSyn
  else if Nat.blt off 0x200000 then descPrt
  else if Nat.blt off 0x300000 then descLn
  else if Nat.blt off 0x400000 then descSp
  else if Nat.blt off 0x500000 then descFwd
  else if Nat.blt off 0x600000 then descCrf
  else if Nat.blt off 0x700000 then descFrer
  else if Nat.blt off 0x800000 then descDb
  else if Nat.blt off 0x900000 then descDma
  else if Nat.blt off 0xA00000 then descSec
  else if Nat.blt off 0xB00000 then descPwr
  else if Nat.blt off 0xC00000 then descBoot
  else descUlc

/-- The base offset of the shell an offset lies in: a device shell (R11), or a compound shell or mirror (R507). -/
def shellBaseOf (off : Nat) : Option Nat :=
  if Nat.ble 0x10000 off && Nat.blt off 0x1A540 then some (off - off % 0x40)
  else if Nat.ble 0xC00000 off && Nat.blt off 0xC00800 && Nat.blt (off % 0x200) 0x140 then some (off - off % 0x40)
  else none

/-- The descriptor of the register at an offset; none at a reserved offset (R27). -/
def regDesc (off : Nat) : Option RegDesc :=
  match shellBaseOf off with
  | some b => descShell.find? (fun r => Nat.beq r.base (off - b))
  | none => (regRegion off).find? (fun r => r.has off)

end Sys2Proof.Machine
end

