-- ==== Sys2Proof/Machine/State.lean ====
section
/-! DEFINITION. The state of the block: every register (sparse, under its BAR0 offset), every memory, table, queue and
latch the spec names, as plain data; the reasons a step may stop; the state right after reset. -/

namespace Sys2Proof.Machine

/-- Reasons for a fault. The block has no exception entry and no address space with holes that a command could reach
without the spec giving the access a meaning (R27), so no meaning raises a fault; the type is empty of constructors
but for this one, which no command answers with (safe). -/
inductive Fault where
  | noSuchCommand
  deriving DecidableEq, Repr

/-- Reasons for a refusal. `notModelled`: the command has no meaning yet; raised by exec's arm of that command (safe). -/
inductive Refusal where
  | notModelled (mnemonic : String)
  deriving DecidableEq, Repr

/-- The class an error event carries (R14, R429); `none` where nothing is latched. -/
inductive Cls where
  | none
  | corr
  | cont
  | fatal
  deriving DecidableEq, Repr

/-- What leaves the block (the model's record of outputs, log entry 6). -/
inductive Emit where
  /-- A frame begins to leave port `p` (from its SFD on; bytes without FCS). -/
  | frame (p : Nat) (bytes : Bytes)
  /-- The frame in flight at port `p` ends with an inverted FCS (R100). -/
  | stomp (p : Nat)
  /-- An MSI-X message on global vector `v` (R360). -/
  | msix (v : Nat)
  /-- A reply on a side interface: SMBus (R532), JTAG (R533), the DOE mailbox or the network (R405, R418). -/
  | reply (src : Nat) (bytes : Bytes)
  /-- The boundary register drives the pins with `v`, under instruction `code` (R533): as it stands, in pulses, or in a train. -/
  | scan (code v : Nat)
  /-- A PPS_OUT edge (R293). -/
  | pps (j : Nat) (level : Bool)
  /-- A PTP message the hardware sends at port `p` (R319 to R321): kind 0 Sync, 1 Follow_Up, 2 Pdelay_Req,
  3 Pdelay_Resp, 4 Pdelay_Resp_Follow_Up; its time fields; its AUTHENTICATION TLV (no bytes: none); and SCI, association number and
  packet number of its SecTAG. -/
  | ptp (p kind : Nat) (fields : List Int) (tlv : Bytes) (sec : Option (Nat × Nat × Nat))
  /-- An MKPDU sent at port `p` (R411); the association number of a SAK it distributes. -/
  | mka (p : Nat) (sak : Option Nat)
  /-- The Clause 73 base page a port begins to send (R46): the lane that carries it, the technology ability as mode and medium
  (1: copper cable), the FEC ability it requires (0 none, 1 Clause 74, 2 Clause 108, 3 RS(544,514)). -/
  | anPage (p lane mode medium fec : Nat)
  /-- A Ulicon transfer of one kind (R497) at port `p`. -/
  | ulicon (p kind : Nat) (data : List Nat)
  /-- A Ulicon frame (R497, R499) on port `p`: one to four cells of one frame, with what the header before each carries: ingress member and
  port, handle and marks, class, and the timed-release entry's T, CUE and LATE. -/
  | cells (p : Nat) (head : CellHead) (tc : Nat) (trq : Option (Nat × Bool × Bool)) (data : List Bytes)
  deriving DecidableEq, Repr

/-- One time counter (R274, R278): accumulator in 2^-40 ns (72 bits), rate in force, servo term, the latch of
TB_SERVO_HI (R301), and whether a wrap by counting awaits its WRAP command. -/
structure Tb where
  acc : Nat
  inc : Nat
  servo : Int
  servoHi : Nat
  wrapDue : Bool
  deriving DecidableEq, Repr

/-- A counter at power-on (R277). -/
def Tb.rst : Tb := ⟨0, 0x10000000000, 0, 0, false⟩

/-- The tick (R30 to R36, R158): anchor in 2^-16 ns, number of the anchor tick, ticks since the anchor of the next
tick to start (64 bits), the start of that tick in 2^-16 ns of the bound base (48 bits), whether a tick is current,
the late mark of this tick and the mark to give the next one (R133), and which parts of the boundary sequence of the
tick to come have run (0 the flip, 1 the launch latch, 2 the servo load), and the base clock of the boundary. -/
structure Tick where
  run : Bool
  anchor : Nat
  n0 : Nat
  idx : Nat
  next : Nat
  cur : Bool
  start : Nat
  late : Bool
  lateNext : Bool
  cutDone : List Nat
  startAt : Nat
  deriving DecidableEq, Repr

/-- Before COMMIT no tick runs (R35). -/
def Tick.rst : Tick := ⟨false, 0, 0, 0, 0, false, 0, false, false, [], 0⟩

/-- A unit reset (R19, R442): RST still reads 1; the source whose reaction it is, latched again at the end (R439); the
base clock at which the reset shadow ends. -/
structure RstSt where
  active : Bool
  running : Bool
  relatch : Option Nat
  shadowEnd : Nat
  deriving DecidableEq, Repr

/-- No reset. -/
def RstSt.none : RstSt := ⟨false, false, Option.none, 0⟩

/-- One watched-source instance (R436): the count, the base clock of the event that started it, and that of the last event
(R457: an event in the clock of a write of its FLT_WATCHk). A count that a severe event has returned to zero has 1 as its start. -/
structure WatchSt where
  count : Nat
  start : Nat
  last : Nat
  deriving DecidableEq, Repr

/-- A count at zero. -/
def WatchSt.zero : WatchSt := ⟨0, 0, 0⟩

/-- A descriptor ring (R342 to R347): its creation parameters, counters, the copies held (index, eight words), the entry at which it
is parked, the started entries' results in index order (index, (word, value) pairs), and its statistics (R367). -/
structure Ring where
  created : Bool
  fn : Nat
  loc : Nat
  log2 : Nat
  base : Nat
  shadow : Nat
  vec : Nat
  mod : Nat
  tb : Nat
  rxHold : Nat
  sched : Nat
  head : Nat
  tail : Nat
  pub : Nat
  next : Nat
  copies : List (Nat × List Nat)
  parked : Option Nat
  done : List (Nat × List (Nat × Nat))
  cntA : Nat
  cntB : Nat
  cntC : Nat
  marker : Nat
  seq : Nat
  modEnd : Nat
  owed : Bool
  destroying : Bool
  deriving DecidableEq, Repr

/-- A ring that is not created. -/
def Ring.none : Ring :=
  ⟨false, 0, 0, 0, 0, 0, 0, 0, 0, 0, 0, 0, 0, 0, 0, [], .none, [], 0, 0, 0, 0, 0, 0, false, false⟩

/-- One MSI-X vector (R360): masked, pending, and the base clock plus one of the latest message of a ring (0: none yet). -/
structure VecSt where
  masked : Bool
  pend : Bool
  ringAt : Nat
  deriving DecidableEq, Repr

/-- A vector at reset: masked (PRESUMED: the PCI Express default of the MSI-X table, log entry 9). -/
def VecSt.rst : VecSt := ⟨true, false, 0⟩

/-- The PCI Express endpoint (R339): generation and width of the trained link, the target speed of a retraining, the codes of the payload
and read-request sizes, NumVFs and VF Enable, the command register, and the base address of each BAR (physical BAR0, 2, 4 at 0, 2, 4; the
virtual functions' BAR0 at 6). -/
structure PcieCfg where
  gen : Nat
  width : Nat
  target : Nat
  payload : Nat
  readReq : Nat
  vfs : Nat
  vfOn : Bool
  command : Nat
  bars : Tab Nat
  deriving DecidableEq, Repr

/-- The PCI Express defaults (R363), with the link at its fastest (PRESUMED, log entry 9): 128-byte payloads, 512-byte read requests, no
virtual function. -/
def PcieCfg.dflt : PcieCfg := ⟨5, 16, 5, 0, 2, 0, false, 0, []⟩

/-- Lanes of a link width. -/
def linkLanes : LinkWidth → Nat
  | .x4 => 4
  | .x8 => 8
  | .x16 => 16

/-- The device ID of a function (R339). -/
def deviceId (f : Nat) : Nat := if f = 0 then 0x5128 else 0x5129

/-- The class code of function 0 (R339). -/
def classCode : Nat := 0x020000

/-- A frame on its way to the host (R351, R352): bytes without FCS, ingress port, class, handle, the nine-counter
receive stamp as (time base, 2^-16 ns) for the ring's base, flags, and the base clock at which it began to wait. -/
structure HostFrame where
  bytes : Bytes
  port : Nat
  tc : Nat
  handle : Option Nat
  stamps : List Nat
  tsv : Bool
  auth : Bool
  sec : Bool
  since : Nat
  deriving DecidableEq, Repr

/-- One DMA channel (R372 to R385): a job has been taken from the ring; its first read has been issued (it is in flight);
waiting for its level request, or the request is withdrawn; parked at a chain element; every burst has
been written, so that the commit point comes next; a chain; the element's address and eight words; the sixteen grinder
profiles as they were at its start (R393); bytes moved of the element; elements done; the WDRAWN result; the tick after which a tick-bound job is cut, plus one
(0: not bound yet); staging reserved; the base clock plus one of an ABORT at the commit point, and of the last MISSED with the
count before it (R394: events of one clock). -/
structure DmaCh where
  job : Bool
  issued : Bool
  waiting : Bool
  withdrawn : Bool
  parked : Bool
  commit : Bool
  chain : Bool
  elem : Nat
  words : List Nat
  prof : List Nat
  pos : Nat
  elems : Nat
  wdrawn : Bool
  deadline : Nat
  stage : Nat
  aborted : Nat
  missed : Nat × Nat
  deriving DecidableEq, Repr

/-- A channel with no job (R390: power-on). -/
def DmaCh.idle : DmaCh :=
  ⟨false, false, false, false, false, false, false, 0, [], [], 0, 0, false, 0, 0, 0, (0, 0)⟩

/-- One lane (R51 to R54, R431): signal or lock lost; out of the active set for a contained SD_MEM; a margin sample has
been taken; the last sample met VMIN and HMIN; signal or lock was lost in a part of the 1 ms interval in progress; the error metric
of the last interval judged exceeded ERR_MAX. -/
structure LaneSt where
  lost : Bool
  out : Bool
  sampled : Bool
  healthy : Bool
  gapped : Bool
  errBad : Bool
  deriving DecidableEq, Repr

/-- A lane at power-on. -/
def LaneSt.rst : LaneSt := ⟨false, false, false, false, false, false⟩

/-- A frame in a queue (R79, R85 to R88, R222): its identity (shared by the copies of one frame), the bytes from DA to
the end of payload without a received redundancy tag, L of R79, ingress port (128: a host ring), sequence number, stream
handle, class, VLAN identity (VID, PCP, DEI, whether it carries an outer tag), whether its tail has yet to arrive, whether a
recovery instance holds it out of its queue (R230); for the timed-release queue: cued, LATE = SKIP,
due at once, T; the host ring entry it came from, if any, with TS_REQ; an HSR tag kept unchanged (R238); whether stage 5 has judged
it; admitted cut through, so that it may start before its tail has come (R99). -/
structure QFrame where
  id : Nat
  bytes : Bytes
  len : Nat
  inPort : Nat
  seq : Option Nat
  handle : Option Nat
  tc : Nat
  vid : Nat
  pcp : Nat
  dei : Bool
  tagged : Bool
  arriving : Bool
  held : Bool
  cue : Bool
  skip : Bool
  due : Bool
  t : Nat
  host : Option (Nat × Nat)
  tsReq : Bool
  keep : Bool
  recovered : Bool
  cutOk : Bool
  deriving DecidableEq, Repr

/-- The frame a transmitter is sending (R82, R97, R100): identity, express, cut through with an ingress that has not ended, the base
clock of its SFD and that of the next one it allows, its bytes with the FCS, the frame (none for what the device sends itself, and once
the rest of it waits to be resumed), resumed, cut through with an ingress that has not ended bad. -/
structure TxSt where
  id : Nat
  express : Bool
  ct : Bool
  startAt : Nat
  endAt : Nat
  len : Nat
  fr : Option QFrame
  again : Bool
  wasCt : Bool
  deriving DecidableEq, Repr

/-- What the device itself is to send on a port. `copy`: a carafe copy in passage (R189): its identity, entry and direction, length
from DA to FCS, bytes, receive stamp on the tick's time base, whether it passed step 1, and, once its end has come, the bytes that
leave and whether with an inverted FCS. `head`: a launch of a head entry (R195), its direction and image. `ptp`: a PTP message of a
domain (R321): kind, one-step, two time fields (1/256 ns) and the receive stamp they rest on. `cold`: a cold-start frame of this node
(R256): time base, SEQ, SYNC. `relay`: one passed on (R257): time base, bytes, receive stamp, link delay of the ingress port (2^-16 ns).
`own`: any other frame of the device, with what leaves. -/
inductive Job where
  | copy (id car : Nat) (dirB : Bool) (len : Nat) (bytes : Bytes) (rx : Nat) (ok : Bool) (ended : Option (Bytes × Bool))
  | head (car : Nat) (dirB : Bool) (img : Bytes)
  | ptp (n kind : Nat) (oneStep : Bool) (a b : Int) (rx : Nat)
  | cold (n seq : Nat) (sync : Bool)
  | relay (n : Nat) (bytes : Bytes) (rx add : Nat)
  | own (len : Nat) (e : Emit)
  deriving DecidableEq, Repr

/-- A frame of the device that waits for the transmitter (R182): what, from which base clock on, and the SFD operand of its stamp. -/
structure Due where
  job : Job
  ready : Nat
  var : Nat
  deriving DecidableEq, Repr

/-- A port before what took its lanes or the port itself out in one base clock (R60, R457: the events of one clock are one retirement,
and a unit reset, or a write of FLT_WATCHk, of that clock wins over them): the clock, mode, active set and the lanes that left it,
STATE, RTR_FOLLOW, the guardian's STATE, whether a retreat ran, LN_STAT of the four lanes, the classes of RETREAT and RETIRE, the page
the port then sent, and the queues that were emptied. -/
structure LeaveSt where
  clock : Nat
  mode : Nat
  act : Nat
  left : Nat
  st : Nat
  follow : Nat
  grd : Nat
  retr : Bool
  stat : List Word
  retreat : Cls
  retire : Cls
  page : Option Emit
  gone : List (Nat × List QFrame)
  deriving DecidableEq, Repr

/-- One port beyond its registers: the base clock a retreat began (R57), of the last link-up (R285); preemption active
and its verification (R96); the frame in flight and the preempted frame with the bytes it has yet to send (R97); memory
halt (R432); the SAFE masks of R84 in force; transmit stamps awaiting completion (R285); base clock of the last network SPDM request (R405);
base clock of the last Ulicon time word and the summaries last sent (R497), the receive stamp of the last time word received, and, at a
link group's lowest port, how many Ulicon frames of cells the group has sent (R494); the port before lanes, or the port, last went out; the base
clock from which the verify attempt in progress counts (R110); the frames of the device that wait for the transmitter. -/
structure PortSt where
  retreating : Bool
  retreatAt : Nat
  upAt : Nat
  preempt : Bool
  tries : Nat
  tx : Option TxSt
  rest : Option (QFrame × Nat)
  memHalt : Bool
  safe : Bool
  stamps : Nat
  spdmAt : Nat
  ulcAt : Nat
  ulcSent : List Nat
  ulcRx : Nat
  ulcTurn : Nat
  was : Option LeaveSt
  verAt : Nat
  jobs : List Due
  deriving DecidableEq, Repr

/-- A port at power-on. -/
def PortSt.rst : PortSt := ⟨false, 0, 0, false, 0, none, none, false, false, 0, 0, 0, [], 0, 0, none, 0, []⟩

/-- A frame arriving at a port (one per MAC, R98): the frame, its ingress port, the places it was admitted to (port, class
or 8 for the timed-release queue), the ports it is cut through to, whether nothing of it goes on, whether a guardian blocked
it, delivery to the host, its receive stamps per counter (2^-16 ns), the pending marks it holds (instance, and its number if it has
one), the instances that judged it (R231), its stream handle, whether its end teaches its source address, the timed-release fields of
its stream entry (CUE, LATE, TICKS, LAUNCH_OFS), its MACsec association, the domain whose host copy it is, for a frame
the host injected, whether VLAN or filter rules dropped it (R349), the TBL stamp at which a guardian cuts it (R252), whether stages
5 to 7 wait for its end (R237), the SFDs of its cut-through copies, and the base clock its header came. -/
structure RxOpen where
  fr : QFrame
  port : Nat
  places : List (Nat × Nat)
  cts : List Nat
  dropped : Bool
  blocked : Bool
  toHost : Bool
  stamps : List Nat
  stamped : Bool
  marks : List (Nat × Option Nat)
  insts : List Nat
  handle : Option Nat
  learn : Bool
  trq : Option (Nat × Nat × Nat × Nat)
  sec : Option (Nat × Nat × Nat)
  ptp : Option Nat
  vlanDrop : Bool
  cut : Option Nat
  late : Bool
  varTx : Tab Nat
  came : Nat
  deriving DecidableEq, Repr

/-- Token state of a flow meter (R92, R94): committed and excess tokens in units of 10^-6 bit (so that kbit/s times ns is
exact), and the base clock of the last update. -/
structure MeterSt where
  com : Nat
  exc : Nat
  upd : Nat
  deriving DecidableEq, Repr

/-- One recovery instance beyond its table entry (R227 to R232): history (bit k stands for RECOV_SEQ - k), pending marks
(ingress port, number if the frame has one), base clock of the last pass, base clocks of the last good frame per path (`none`: not since
the path came up), bases of PASSED and DISCARDED, base clock at which the latent-error period and reset began, and whether the silence
since the last pass has already reset it (R228). -/
structure RecSt where
  hist : Nat
  pend : List (Nat × Option Nat)
  lastPass : Nat
  good : List (Option Nat)
  baseP : Nat
  baseD : Nat
  perAt : Nat
  resetAt : Nat
  wasReset : Bool
  deriving DecidableEq, Repr

/-- An instance that has seen nothing. -/
def RecSt.rst : RecSt := ⟨0, [], 0, [none, none, none, none], 0, 0, 0, 0, false⟩

/-- A copy held out of its queues (R230): the instance and the ingress port whose pending frame it waits for, its number,
its own ingress port and frame identity, whether it still has to be judged (same ingress port), the instances that judge it
afterwards, and, once it has ended, how, with what its end has to do. -/
structure HeldSt where
  inst : Nat
  onPort : Nat
  seq : Option Nat
  port : Nat
  id : Nat
  judge : Bool
  todo : List Nat
  ended : Option (Bool × RxOpen)
  deriving DecidableEq, Repr

/-- One comparator of a schedule processor (R126); `miss`: its firing is to raise CMP_MISS. -/
structure Tcmp where
  target : Nat
  armed : Bool
  fired : Bool
  miss : Bool
  deriving DecidableEq, Repr

/-- A comparator at power-on. -/
def Tcmp.rst : Tcmp := ⟨0, false, false, false⟩

/-- The key of a staged write (R135): port gate mask, stream gate, port hold state, port NEXTEV, table word. -/
inductive StageKey where
  | gate (p : Nat)
  | sgate (i : Nat)
  | hold (p : Nat)
  | nextev (p : Nat)
  | table (a : Nat)
  deriving DecidableEq, Repr

/-- What a schedule processor is doing (R146). -/
inductive SpRun where
  | halted
  | exec
  | waitTick
  | waitTime
  | mck
  | reload
  deriving DecidableEq, Repr

/-- What the standard gate-control-list program holds besides table memory and TCMP0 (R165 to R177): each port's CYCLE_NS, read when the
port started (R174); the ports whose EN the last tick entry found set, and those that wait for a BASE in the future, bit i for port
8g + i (R171); the last two change times with the clocks they cost, hook calls after them included (R173); the clocks the last tick entry
took; the budget count at the hook call in progress, and whether it is the tick entry's (R176). -/
structure Gcl where
  cyc : Tab Nat
  enSeen : Nat
  toBase : Nat
  last : Option (Nat × Nat)
  prior : Option (Nat × Nat)
  entry : Nat
  hookAt : Option (Nat × Bool)
  deriving DecidableEq, Repr

/-- Before the program has run. -/
def Gcl.rst : Gcl := ⟨[], 0, 0, none, none, 0, none⟩

/-- What a word finds outside its processor in its first clock (R130): the base clock of that clock, TSTART, TICKNUM, PMODE, HOSTARG and
the buffer of slot PISEL on the device's side. -/
structure SpRead where
  at_ : Nat
  tstart : Nat
  num : Nat
  pmode : Nat
  arg : Nat
  dev : Nat
  deriving DecidableEq, Repr

/-- No word has begun. -/
def SpRead.rst : SpRead := ⟨0, 0, 0, 0, 0, 0⟩

/-- One schedule processor (R115, R134, R139, R140): registers, comparators, stage buffer, run state, whether a trap routine
runs, the length of the run of held words, the budget count, the clocks of the tick spent in a wait-tick and not counted
(R162), whether the budget-low cause has been raised this tick, whether vector 0 is entered at the next boundary or its word is yet to
run (R155), whether it was cut off in this tick, whether this tick was entered after a cut-off (R133). While the processor waits, `pc` is
the address of the waiting word. Of the word at `pc`: whether it began before C (R159), whether a boundary has passed since, and NOW in
its first clock, with what it finds outside the processor there (R130). Of a cut-off: its base clock, and OVERRUNS, the watched source and
its class before it (R155). Of a COMMIT: its base clock, and what the state held under its keys (R155). The base clock until which a
control-store access runs (R151). The host's writes of its table memory since the word began: base clock, word and what it held (R130, R155,
R167, R177).
The standard program's own state. -/
structure Sp where
  w : Tab Nat
  flags : Nat
  pc : Nat
  stack : List Nat
  psel : Nat
  stsel : Nat
  pisel : Nat
  tcmp : Tab Tcmp
  stage : List (StageKey × Nat)
  run : SpRun
  inTrap : Bool
  holdRun : Nat
  count : Nat
  skew : Nat
  lowRaised : Bool
  vec0 : Bool
  cut : Bool
  late : Bool
  begun : Bool
  crossed : Bool
  nowAt : Nat
  rd : SpRead
  undoCut : Option (Nat × Nat × WatchSt × Cls)
  undoCommit : Option (Nat × List (StageKey × Nat))
  csEnd : Nat
  hostW : List (Nat × Nat × Nat)
  gcl : Gcl
  deriving DecidableEq, Repr

/-- A processor at power-on (R115). -/
def Sp.rst : Sp :=
  ⟨[], 0, 0x1000, [], 0, 0, 0, [], [], .halted, false, 0, 0, 0, false, false, false, false, false, false, 0, .rst, none, none, 0, [], .rst⟩

/-- One process-image slot beyond CRF_PI_SLOT (R39, R133): the device-side buffer (cur of an out slot, dw of an in slot),
the ready buffer; a PUBLISH met the flip of this tick (R42); OVF rose since the last flip, and had risen at the last flip. -/
structure PiSt where
  dev : Nat
  rdy : Option Nat
  flipPend : Bool
  ovfNow : Bool
  ovfLast : Bool
  deriving DecidableEq, Repr

/-- A slot at power-on (R41). -/
def PiSt.rst : PiSt := ⟨0, none, false, false, false⟩

/-- One event input (R291): stamps held (48-bit stamp on its base, TBL ns), oldest first, and the instant of the last accepted
edge, in units of 125 ps. -/
structure EvinSt where
  store : List (Nat × Nat)
  last : Option Nat
  deriving DecidableEq, Repr

/-- An input at power-on. -/
def EvinSt.rst : EvinSt := ⟨[], none⟩

/-- One path of a selected node (R313, R325, R326): delay in force (1/256 ns), deviations of this round (2^-16 ns),
frozen, estimate offered, holdoff rounds left, last residual and pre-change residual (2^-16 ns), the residual of the last round
in which it was measured while frozen, whether it rejoins at the next round, and the deviations of a round that has closed (R315). -/
structure PathSt where
  dly : Int
  devs : List Int
  frozen : Bool
  offered : Bool
  hold : Nat
  last : Option Int
  base : Int
  now : Option Int
  rejoin : Bool
  shut : List Int
  deriving DecidableEq, Repr

/-- A path without history. -/
def PathSt.rst : PathSt := ⟨0, [], false, false, 0, none, 0, none, false, []⟩

/-- One selected node (R313): its tracking time e_last in ns, its measurements of this round, its two paths, the measurements of a round
that has closed. -/
structure NodeSt where
  eLast : Nat
  meas : Nat
  p0 : PathSt
  p1 : PathSt
  shut : Nat
  deriving DecidableEq, Repr

/-- A node at power-on. -/
def NodeSt.rst : NodeSt := ⟨0, 0, PathSt.rst, PathSt.rst, 0⟩

/-- The servo of a time base (R315 to R318): rate term, thin rounds in a row, whether a closed round awaits its load, whether the
round in progress has begun and whether it has closed; SYN_GAIN and SYN_PATH as they stay in force until the next round or sync
interval (R331). -/
structure SynSt where
  rate : Int
  thin : Nat
  due : Bool
  begun : Bool
  closed : Bool
  was : Option (Nat × Nat)
  deriving DecidableEq, Repr

/-- A servo at power-on. -/
def SynSt.rst : SynSt := ⟨0, 0, false, false, false, none⟩

/-- An asymmetry watch entry (R327): ticks in a row beyond PATH_JUMP, up to 2, whether a suspicion stands, what it froze (2j + p for
a node path, 32 and 33 for the slave ports). -/
structure AswSt where
  cnt : Nat
  susp : Bool
  froze : List Nat
  deriving DecidableEq, Repr

/-- A watch entry at power-on. -/
def AswSt.rst : AswSt := ⟨0, false, []⟩

/-- One slave port of a domain (R320, R328): base clock of the last usable Sync, the Sync that awaits its Follow_Up
(correction in 1/256 ns, receive stamps on the time base and on TBL in 2^-16 ns), frozen with the base clock at which its holdoff ends and its cause (`mld`: a
changed meanLinkDelay),
estimate offered, last offset, pre-change offset, and a change not yet compared with the other port's (2^-16 ns). -/
structure PtpSt where
  liveAt : Nat
  sync : Option (Int × Nat × Nat)
  frozen : Bool
  mld : Bool
  hold : Nat
  offered : Bool
  last : Option Int
  base : Int
  delta : Option Int
  deriving DecidableEq, Repr

/-- A slave port at power-on. -/
def PtpSt.rst : PtpSt := ⟨0, none, false, false, 0, false, none, 0, none⟩

/-- A domain's last Sync (R321): preciseOriginTimestamp and correction (1/256 ns), receive stamp on TBL (2^-16 ns), slave index, cumulative rate
offset. -/
structure DomSt where
  origin : Int
  corr : Int
  at_ : Nat
  slave : Nat
  cum : Int
  deriving DecidableEq, Repr

/-- No Sync received. -/
def DomSt.rst : DomSt := ⟨0, 0, 0, 0, 0⟩

/-- Pdelay on a port (R319), which every domain shares: the base clock from which the next request is due; the transmit stamp of the
request that awaits its response; the responder's transmit stamp, the receive stamp and the base clock of the last exchange;
neighborRateRatio less 1, in 2^-41. Its own stamps are those of TBL, the local clock that no step moves (log entry 61). -/
structure PdSt where
  next : Nat
  sent : Option Nat
  last : Option (Nat × Nat × Nat)
  ratio : Int
  deriving DecidableEq, Repr

/-- No exchange yet. -/
def PdSt.rst : PdSt := ⟨0, none, none, 0⟩

/-- The first cold-start frame kept in Integrate (R259): sender, SYNC, SEQ, the sender's time at reception (48-bit stamp),
the receive stamp on TBL. -/
structure CsFirst where
  sender : Nat
  sync : Nat
  seq : Nat
  time : Nat
  rx : Nat
  deriving DecidableEq, Repr

/-- Cold start of a time base before a time-out of Listen or Integrate, a restart or an integration (R273): the base clock in which that
came, the state, timer and first frame before it, whether it was a restart, and SYN_CS_STEP, INTEG and FROM before. -/
structure CsUndo where
  clock : Nat
  st : Nat
  timer : Nat
  first : Option CsFirst
  restart : Bool
  step : Nat
  integ : Nat
  src : Nat
  deriving DecidableEq, Repr

/-- A step that is added to time base `n` at the end of the base clock (R280, R281): by an amount in 2^-16 ns, or to a stamp (SET_TIME);
where the tick is re-phased after it, the start and number of the sender's tick (R260, R504); of a grant, the sequence number it
named; and whether an integration makes it (R259). -/
structure StepDue where
  n : Nat
  amount : Int
  value : Option Nat
  rephase : Option (Nat × Nat)
  grant : Option Nat
  join : Bool
  deriving DecidableEq, Repr

/-- Cold start of a time base (R257 to R259): base clock at which the state's timer ends; frames sent since Coldstart was
entered; base clock of the last send; senders and base clocks of the SYNC = 0 frames received less than SLOT ago; the first frame kept; number of
the next frame sent; last SEQ relayed by sender and SYNC (2 * SENDER + SYNC); sender and base clock of the last frame used of either
SYNC; and what there was before the latest time-out, restart or integration (R273). -/
structure CstSt where
  timer : Nat
  sent : Nat
  lastSend : Option Nat
  lastRx : List (Nat × Nat)
  first : Option CsFirst
  seq : Nat
  relayed : List (Nat × Nat)
  lastAny : Option (Nat × Nat)
  undo : Option CsUndo
  deriving DecidableEq, Repr

/-- Cold start at power-on. -/
def CstSt.rst : CstSt := ⟨0, 0, none, [], none, 0, [], none, none⟩

/-- A guardian (R249): base clock of the last frame passed in Startup. -/
structure GrdSt where
  lastPass : Option Nat
  deriving DecidableEq, Repr

/-- A guardian at power-on. -/
def GrdSt.rst : GrdSt := ⟨none⟩

/-- An installed receive secure association (R411): secure channel, association number, lowest packet number not yet
received. -/
structure SaSt where
  sc : Nat
  an : Nat
  next : Nat
  deriving DecidableEq, Repr

/-- One station in one tick (R185, R193 to R195): latched STALE and OVR, SIPGAP sent with this launch and the one to send
with the next, AGE of the ranges settled, a valid copy A and B verified, a copy failed, REUSE seen, GIVEUP has passed, the
first valid copy with its REUSE. `rflags` holds the STALE and OVR that came with a remote station's pour data (R505). `same` is the base
clock of the last valid copy, the ranges it settled, and whether it made sip ready (R220: copies of one clock). `olds` are the bytes that
writes of the sip buffer replaced in this tick, with their base clock and place (R220); `known` the ranges that have arrived for a station
served for another member's ring, and `rtick` one more than the index of the tick whose remote latch was the last (R505). -/
structure StnSt where
  stale : Bool
  ovr : Bool
  gap : Bool
  lastGap : Bool
  age : List (Option Nat)
  aOk : Bool
  bOk : Bool
  bad : Bool
  reuse : Bool
  gpass : Bool
  first : Option (Bytes × Bool)
  rflags : Nat
  same : Option (Nat × List Nat × Bool)
  olds : List (Nat × Nat × Bytes)
  known : List Nat
  rtick : Nat
  deriving DecidableEq, Repr

/-- A station at power-on. -/
def StnSt.rst : StnSt :=
  ⟨false, false, false, false, [none, none, none, none], false, false, false, false, false, none, 0, none, [], [], 0⟩

/-- One head entry in one tick (R195 to R197, R203): the image to launch, the stamps of both launches, trip and loop of the
valid returns (stamps in 2^-16 ns), which return was taken and its data area, lowest failing position, DIVERGE, returns
already lost at the deadline, a valid return in the tick before, a reset that cleared the merge image, and the base clock at which the
first return was taken (R220). -/
structure CarSt where
  image : Option Bytes
  origA : Nat
  origB : Nat
  retA : Option (Nat × Nat)
  retB : Option (Nat × Nat)
  first : Option Bool
  area : Bytes
  wkc : Option Nat
  div : Bool
  lostA : Bool
  lostB : Bool
  prev : Bool
  cleared : Bool
  firstAt : Nat
  deriving DecidableEq, Repr

/-- A head entry at COMMIT: no return yet, so the first launch carries REUSE. -/
def CarSt.rst : CarSt := ⟨none, 0, 0, none, none, none, [], none, false, false, false, false, false, 0⟩

/-- What becomes of a copy whose header has arrived: it is accepted; it is dropped and counts at its port alone (R182, R188); a
guardian blocked it (R249); a guardian has cut it, and its end has taken place (R252). -/
inductive CopyFate where
  | taken
  | dropped
  | blocked
  | cut
  deriving DecidableEq, Repr

/-- What protects a frame that is sent (R411): cipher suite and confidentiality as PRT_SEC_CFG.CS and CONF have them, the key, SCI,
association number, packet number. -/
structure TxSa where
  cs : Nat
  conf : Nat
  key : Bytes
  sci : Nat
  an : Nat
  pn : Nat
  deriving DecidableEq, Repr

/-- A copy in arrival (R189, R196): identity, entry, fate, the bytes sent on, whether it arrived with UIF, failed step 1,
leaves by the egress port (false at a head, and where that port was down), the LOOP it leaves with once its SFD has left, whether its
egress link went down in its passage, the window's tick, its MACsec association and packet number, its receive stamp on the tick's time
base, the TBL stamp at which a guardian cuts it, its length from DA to FCS, and the association under which it leaves. -/
structure CopySt where
  id : Nat
  car : Nat
  fate : CopyFate
  bytes : Bytes
  uif : Bool
  mism : Bool
  sent : Bool
  loop : Option Nat
  broken : Bool
  tick : Nat
  sec : Option (Nat × Nat × Nat)
  rx : Nat
  cut : Option Nat
  len : Nat
  sa : Option TxSa
  deriving DecidableEq, Repr

/-- The accept window of the carafe engine (R187, R188): open, its tick number and start, whether its sip cut has come, and the tick of the
window before it. -/
structure CrfSt where
  win : Bool
  tick : Nat
  start : Nat
  cut : Bool
  before : Option Nat
  deriving DecidableEq, Repr

/-- No window before the first latch. -/
def CrfSt.rst : CrfSt := ⟨false, 0, 0, false, none⟩

/-- An owner slot's fuses (R398): the 384 hash bits as a number, the marker, the revocation fuse. -/
structure OwnerSlot where
  hash : Nat
  marker : Bool
  revoked : Bool
  deriving DecidableEq, Repr

/-- A slot whose fuses are all zero: Empty. -/
def OwnerSlot.empty : OwnerSlot := ⟨0, false, false⟩

/-- An entry of the attestation log (R403, R404): its type and argument, and what is measured; the views compute its digest. -/
structure LogE where
  typ : Nat
  arg : Nat
  data : Bytes
  deriving DecidableEq, Repr

/-- A connection of the SPDM responder (R405): how far it is (0 nothing, 1 version, 2 capabilities, 3 algorithms agreed), and the messages
its signatures cover: those that agree on these three, those of GET_DIGESTS and GET_CERTIFICATE, and unsigned GET_MEASUREMENTS. -/
structure SpdmSt where
  phase : Nat
  vca : Bytes
  certs : Bytes
  meas : Bytes
  deriving DecidableEq, Repr

/-- No connection. -/
def SpdmSt.rst : SpdmSt := ⟨0, [], [], []⟩

/-- The security processor (R398 to R417): owner slots, the log, the trust list (64-byte entries), the challenge in force with
the base clock of its issue, whether pair handshakes are disabled (R417), and the SPDM responder's connections, 0 over DOE and p + 1 over
port p (R405). -/
structure SecSt where
  slots : Tab OwnerSlot
  log : List LogE
  trust : Tab Bytes
  chal : Option (Bytes × Nat)
  hsOff : Bool
  spdm : Tab SpdmSt
  deriving DecidableEq, Repr

/-- A live peer of a port's key agreement (R411): receive channel, key server priority, SCI, base clock of its last MKPDU. -/
structure PeerSt where
  sc : Nat
  prio : Nat
  sci : Nat
  heard : Nat
  deriving DecidableEq, Repr

/-- The keys of a port (R407 to R415): the latest HS1 sent and those before it, the base clock of the last HS1, the secrets of its
ephemerals (ECDH scalar, ML-KEM seed); CAK and CKN in force and the base clock at which they came; while the PTP key before them is still
accepted, the base clock of the takeover and the CAK and CKN it stood on; live peers; base clock of the last MKPDU sent; association
number of the latest SAK, and the SAK itself. -/
structure KeySt where
  hs1 : Option Bytes
  hs1Old : List Bytes
  hs1At : Nat
  eph : Bytes × Bytes
  cak : Option Bytes
  ckn : Bytes
  cakAt : Nat
  oldPtp : Option (Nat × Bytes × Bytes)
  peers : List PeerSt
  helloAt : Nat
  an : Nat
  sak : Bytes
  deriving DecidableEq, Repr

/-- A port without keys. -/
def KeySt.rst : KeySt := ⟨none, [], 0, ([], []), none, [], 0, none, [], 0, 0, []⟩

/-- What the device knows of a member of its compound node (R497, R498, R507, R508): base clocks of the last summary over a
direct link and of the last at all, the members it reports present and directly linked, its shell as last reported, its power
state, whether it was lost and not heard since (R515), and how it was last heard (R498): depth and peer of the link, and whether by a relay
at that depth. -/
structure UlcMem where
  at_ : Option Nat
  reach : Option Nat
  present : Nat
  direct : Nat
  shell : List Word
  ps : Nat
  lost : Bool
  via : Nat × Nat × Bool
  deriving DecidableEq, Repr

/-- A member of which nothing is known. -/
def UlcMem.rst : UlcMem := ⟨none, none, 0, 0, [], 0, false, (0, 0, false)⟩

/-- A member's part in its compound node (R502, R504): the other members (4 * depth + number), the offsets to the leader of
this tick (1/256 ns), whether it has joined by a step, the leader's SYNC as last reported, and per depth the CUR of its own mirror there that
it last reported (R497). -/
structure UlcSt where
  mem : Tab UlcMem
  ofs : List Int
  joined : Bool
  sync : Bool
  cur : List Nat
  deriving DecidableEq, Repr

/-- Outside a compound node. -/
def UlcSt.rst : UlcSt := ⟨[], [], false, false, [0, 0, 0, 0]⟩

/-- The boot engine (R477, R478, R487): where the image it runs begins in the device's byte memories (the staging window, or
the retained copy), the image byte of the instruction that comes next, the base clock at which a WAIT_UNTIL in progress
times out; of a CLAIM_OWNER whose hash fuses are programmed and whose marker is not, whether they read back right (R399); and the base
clock of the last writes of BAR2, with their places and the bytes they replaced (R492). -/
structure BootSt where
  base : Nat
  pos : Nat
  waitEnd : Nat
  claim : Option Bool
  wrote : Nat × List (Nat × Bytes)
  deriving DecidableEq, Repr

/-- The engine in STATE 0. -/
def BootSt.rst : BootSt := ⟨0, 0, 0, none, (0, [])⟩

/-- The test access port (R533): the instruction register and the boundary-scan latch that SAMPLE/PRELOAD loads. -/
structure JtagSt where
  ir : Nat
  latch : Nat
  deriving DecidableEq, Repr

/-- Test-Logic-Reset selects IDCODE. -/
def JtagSt.rst : JtagSt := ⟨0x01, 0⟩

/-- The block's state. -/
structure State where
  /-- Every register word that differs from its power-on value, under its BAR0 offset. -/
  regs : Tab Word
  /-- The device's byte memories (INVENTORY, State). -/
  mem : Memory
  /-- Host memory as the device reads and writes it. -/
  hostMem : Memory
  /-- The commands that wait, first in, first out. -/
  pending : List Instr
  /-- The model's counter of free values drawn (log entry 1). -/
  free : Nat
  /-- What has left the block, oldest first. -/
  out : List Emit
  /-- Base clocks since the time PLL first locked. -/
  now : Nat
  locked : Bool
  hostLocked : Bool
  fatal : Bool
  hbLost : Bool
  collector : Bool
  tbs : Tab Tb
  /-- Steps that this base clock's end adds, in order (R280, R311). -/
  steps : List StepDue
  tick : Tick
  srcs : Tab Cls
  reacts : Tab Bool
  /-- The base clock, plus one, of the latest latch of a source (by `srcK`), of the latest merge of a shell, and of the latest
  latch and clearing of a FLT_NEW bit: events that meet a write of the same clock (R22, R457). -/
  evAt : Tab Nat
  /-- What a line that is active now carries (R428): the severity and the information its source gives. -/
  lines : Tab (Sev × Nat)
  /-- The mesh links that have stopped (R434): bit 4 i + j is the link slice i receives from slice j. -/
  meshOff : Nat
  resets : Tab RstSt
  watch : Tab WatchSt
  rings : Tab Ring
  steer : Tab (Option Nat)
  rxHold : List (Nat × HostFrame)
  vecs : Tab VecSt
  fnMsix : Tab Bool
  pcie : PcieCfg
  /-- The base clock of the host-interface halt in force (R362, R370). -/
  haltAt : Nat
  /-- Doorbells that the head in force refuses and a publication of this clock may yet admit (R371): kind, function, local ring, tail, and
  the entry whose fetch fails. -/
  bells : List (Nat × Nat × Nat × Nat × Option Nat)
  /-- The base clock of the latest RX_HOLD (R371), with its ring, the frames it dropped, and the ring's count before. -/
  holdGone : Nat × Nat × List (Nat × HostFrame) × Nat
  /-- The base clock of the latest publication (R371), with the shadow addresses written in that clock and the words they held. -/
  shadowWas : Nat × List (Nat × Bytes)
  dma : Tab DmaCh
  dmaLast : Nat
  dreq : Nat
  lanes : Tab LaneSt
  ports : Tab PortSt
  ctrHi : Tab Nat
  ids : Nat
  queues : Tab (List QFrame)
  rxOpen : Tab (Option RxOpen)
  heldFrames : List HeldSt
  /-- The base clock of the latest admission to a queue, with the admissions of that clock (R114): port group of the ingress, port,
  queue, frame. -/
  claims : Nat × List (Nat × Nat × Nat × Nat)
  /-- The base clock in which a generator last gave a number, with the numbers of that clock, a generator's latest first (R225):
  generator, port group of the ingress, frame. -/
  given : Nat × List (Nat × Nat × Nat)
  /-- Recovery instances whose latent-error period ends in this clock (R232, R248). -/
  laerrs : List Nat
  str : Tab Word
  meters : Tab (Option MeterSt)
  fdbSeen : Tab Nat
  frer : Tab Word
  recs : Tab RecSt
  fwdHist : Tab (List Nat)
  nodeSeen : Tab Nat
  sps : Tab Sp
  cs : Tab (BitVec 136)
  csCopy : Option (Tab (BitVec 136))
  csHost : List (Nat × BitVec 136)
  nextev : Tab (Option Nat)
  nextevWas : Tab (Nat × Option Nat)
  pi : Tab PiSt
  evin : Tab EvinSt
  targetLate : Tab Bool
  /-- The base clock in which a host comparator last fired, with the comparators of that clock and their CNT before (R311). -/
  fired : Nat × List (Nat × Word)
  ppsHigh : Tab Nat
  nodes : Tab NodeSt
  syns : Tab SynSt
  asws : Tab AswSt
  ptps : Tab PtpSt
  doms : Tab DomSt
  mlds : Tab (Option Int)
  pds : Tab PdSt
  csts : Tab CstSt
  grds : Tab GrdSt
  rxSas : Tab (List SaSt)
  txPn : Tab Nat
  stns : Tab StnSt
  cars : Tab CarSt
  copies : Tab (Option CopySt)
  crf : CrfSt
  /-- Power state a unit is on its way to (R463). -/
  pwr : Tab (Option Nat)
  /-- Base clock since which a port has been without signal on its active lanes, or in STATE 1 (R460). -/
  quiet : Tab Nat
  /-- Base clock from which the next Sync of a time base on a master port is due (R321, R461). -/
  syncNext : Tab (Option Nat)
  sec : SecSt
  keys : Tab KeySt
  ulc : UlcSt
  boot : BootSt
  jtag : JtagSt
  /-- SMB_ADDR[1:0] as sampled when PWR_OK rose (R526). -/
  smbAddr : Nat
  /-- Lost reference clocks REFCLK_SD[g] (R528). -/
  sdLost : Tab Bool
  deriving DecidableEq, Repr

/-- The measurements every power-up enters in the log (R403): BOOT_ROM and FUSES, over the fuses given (log entry 14). -/
def bootLog (fuses : Bytes) : List LogE := [⟨1, 0, []⟩, ⟨2, 0, fuses⟩]

/-- The numbers of the fuses: of the owner slots in slot order hash, marker, revocation (R398), then the debug locks (R403). -/
def fuseNums (slots : Tab OwnerSlot) : List Nat :=
  (List.range 4).flatMap (fun i =>
    let x := tget OwnerSlot.empty slots i
    [x.hash, x.marker.toNat, x.revoked.toNat]) ++ [Config.debugLock]

/-- TB_CLK_STAT of the dark state: locked, a 10 MHz reference (R290, R305, R484; log entry 7). -/
def clkStat (ref : Nat) : Word := w32 (8 + (if ref = 0 then 4 else 0) + ref)

/-- The machine in the dark state that follows a power-on reset (R277, R483, R484), with these fuses, straps and time
reference: every register at its power-on value, the collector running, the time PLL locked. -/
def State.dark (slots : Tab OwnerSlot) (straps ref : Nat) : State where
  regs := [(0x40900, clkStat ref)]
  mem := []
  hostMem := []
  pending := []
  free := 0
  out := []
  now := 0
  locked := false
  hostLocked := false
  fatal := false
  hbLost := false
  collector := true
  tbs := []
  steps := []
  tick := Tick.rst
  srcs := []
  reacts := []
  evAt := []
  lines := []
  meshOff := 0
  resets := []
  watch := []
  rings := []
  steer := []
  rxHold := []
  vecs := []
  fnMsix := []
  pcie := PcieCfg.dflt
  haltAt := 0
  bells := []
  holdGone := (0, 0, [], 0)
  shadowWas := (0, [])
  dma := []
  dmaLast := 0
  dreq := 0
  lanes := []
  ports := []
  ctrHi := []
  ids := 1
  queues := []
  rxOpen := []
  heldFrames := []
  claims := (0, [])
  given := (0, [])
  laerrs := []
  str := []
  meters := []
  fdbSeen := []
  frer := []
  recs := []
  fwdHist := []
  nodeSeen := []
  sps := []
  cs := []
  csCopy := none
  csHost := []
  nextev := []
  nextevWas := []
  pi := []
  evin := []
  targetLate := []
  fired := (0, [])
  ppsHigh := []
  nodes := []
  syns := []
  asws := []
  ptps := []
  doms := []
  mlds := []
  pds := []
  csts := []
  grds := []
  rxSas := []
  txPn := []
  stns := []
  cars := []
  copies := []
  crf := .rst
  pwr := []
  quiet := []
  syncNext := []
  sec := ⟨slots, bootLog (Config.fuseBytes (fuseNums slots)), [], none, false, []⟩
  keys := []
  ulc := UlcSt.rst
  boot := BootSt.rst
  jtag := JtagSt.rst
  smbAddr := straps
  sdLost := []

/-- The machine right after reset: the dark state with every fuse unprogrammed (R398: unowned; log entry 10), SMB_ADDR
strapped to 0 (log entry 8) and a 10 MHz time reference (log entry 7). -/
def State.reset : State := State.dark [] 0 1

end Sys2Proof.Machine
end

