-- ==== Sys2Proof/Machine/Ops.lean ====
section
/-! DEFINITION. The operations over registers, memories, time counters, shells and outputs that every meaning is
written with. -/

namespace Sys2Proof.Machine

/-! ### Units and shells (R9, R11, R507) -/

/-- Shell key of a lane, port, port group and slice; the device is 0, the compound shell of depth c is 700 + c. -/
def laneK (l : Nat) : Nat := 149 + l
/-- Shell key of port `p`. -/
def portK (p : Nat) : Nat := 21 + p
/-- Shell key of port group `g`. -/
def grpK (g : Nat) : Nat := 5 + g
/-- Shell key of slice `i`. -/
def sliceK (i : Nat) : Nat := 1 + i
/-- Shell key of the compound shell of depth `c`. -/
def compK (c : Nat) : Nat := 700 + c

/-- The key of a shell named by a command. -/
def shellKey : ShellId → Nat
  | .dev k => k.val
  | .comp c => compK c.val

/-- Base offset of a shell's registers (R11, R507). -/
def shellBase (k : Nat) : Nat := if k < 700 then 0x10000 + 64 * k else 0xC00000 + 0x200 * (k - 700)

/-- The key of the shell whose registers begin at a base offset; mirrors (R507) have none. -/
def shellKeyOf (b : Nat) : Option Nat :=
  if b < 0x20000 then some ((b - 0x10000) / 64)
  else if (b - 0xC00000) % 0x200 = 0 then some (compK ((b - 0xC00000) / 0x200)) else none

/-- Level of a device unit: 1 lane, 2 port, 3 port group, 4 slice, 5 device, 6 compound (R9). -/
def levelOf (k : Nat) : Nat :=
  if k = 0 then 5 else if k < 5 then 4 else if k < 21 then 3 else if k < 149 then 2 else if k < 700 then 1 else 6

/-- Unit number of a device unit (R9). -/
def unitNum (k : Nat) : Nat :=
  match levelOf k with
  | 5 => 0x5000
  | 4 => 0x4000 + (k - 1)
  | 3 => 0x3000 + (k - 5)
  | 2 => 0x2000 + (k - 21)
  | _ => 0x1000 + (k - 149)

/-- Number of children in the device (R13); a compound shell's are member nodes (R507). -/
def childCount (k : Nat) : Nat :=
  match levelOf k with
  | 1 => 0
  | 3 => 8
  | 6 => 0
  | _ => 4

/-- Shell key of the first child (R11, R13); 0 for a lane. -/
def childBase (k : Nat) : Nat :=
  match levelOf k with
  | 5 => 1
  | 4 => 5 + 4 * (k - 1)
  | 3 => 21 + 8 * (k - 5)
  | 2 => 149 + 4 * (k - 21)
  | _ => 0

/-- Shell key of the parent; the device is its own. -/
def parentOf (k : Nat) : Nat :=
  match levelOf k with
  | 1 => 21 + (k - 149) / 4
  | 2 => 5 + (k - 21) / 8
  | 3 => 1 + (k - 5) / 4
  | _ => 0

/-- The unit and everything beneath it, parents first. -/
def subtree : Nat → Nat → List Nat
  | 0, k => [k]
  | d + 1, k => k :: ((List.range (childCount k)).map (childBase k + ·)).flatMap (subtree d)

/-- The unit and every unit beneath it. -/
def unitsOf (k : Nat) : List Nat := subtree (levelOf k - 1) k

/-- Whether unit `k` lies in the subtree of unit `r` (both device units). -/
def inSubtree (r k : Nat) : Bool :=
  let k1 := parentOf k
  let k2 := parentOf k1
  let k3 := parentOf k2
  r == 0 || k == r || k1 == r || k2 == r || k3 == r

/-- The slice a unit belongs to; none for the device. -/
def sliceOf (k : Nat) : Option Nat :=
  match levelOf k with
  | 4 => some (k - 1)
  | 3 => some ((k - 5) / 4)
  | 2 => some ((k - 21) / 32)
  | 1 => some ((k - 149) / 128)
  | _ => none

/-! ### Register words and fields -/

/-- The register file: words by BAR0 offset. -/
abbrev Regs := Tab Word

/-- Bits [lo+w-1:lo] of a word. -/
def getField (x : Word) (lo w : Nat) : Nat := x.toNat / 2 ^ lo % 2 ^ w

/-- The word with bits [lo+w-1:lo] replaced by `v` modulo 2^w. -/
def setField (x : Word) (lo w v : Nat) : Word :=
  BitVec.ofNat 32 (x.toNat % 2 ^ lo + (v % 2 ^ w) * 2 ^ lo + x.toNat / 2 ^ (lo + w) * 2 ^ (lo + w))

/-- Power-on value of the register word at an offset: the register tables (R4), with the values that depend on the
unit, function or kind (R11, R13, R17, R341, R437). -/
def regRst (off : Nat) : Word :=
  match shellBaseOf off with
  | some b =>
    match shellKeyOf b, off - b with
    | some k, 0 =>
      if k < 700 then w32 (unitNum k * 0x10000 + 0x8000 + childBase k * 16 + childCount k) else w32 0x8000
    | some k, 0xC => if k = 0 ∨ 700 ≤ k then 0 else 0x404
    | some _, 0x10 => 0xFFFFFFFF
    | some _, 0x14 => 0x07D00000
    | _, _ => 0
  | none =>
    if 0x1000 ≤ off ∧ off < 0x1400 then
      if off = 0x1000 then 4096 else if off = 0x1004 then 4096
      else if off = 0x1008 then 0x00400040 else if off = 0x100C then 2048 else 0
    else if 0x20040 ≤ off ∧ off < 0x20058 then
      match (off - 0x20040) / 4 with
      | 0 => w32 (16 * 0x1000000 + 1000)
      | 1 => w32 (32 * 0x1000000 + 1000)
      | 2 => w32 (8 * 0x1000000 + 1000)
      | 3 => w32 (16 * 0x1000000 + 1000)
      | 4 => w32 (3 * 0x1000000 + 100)
      | _ => w32 (8 * 0x1000000 + 10000)
    else
      match regDesc off with
      | some r => w32 r.rst
      | none => 0

/-- Read a stored register word. -/
def rword (r : Regs) (off : Nat) : Word := tget (regRst off) r off

/-- Store a register word. -/
def wword (r : Regs) (off : Nat) (v : Word) : Regs := tset (regRst off) r off v

/-- Read a field. -/
def fget (r : Regs) (f : F) : Nat := getField (rword r f.off) f.lo f.w

/-- Write a field (modulo its width). -/
def fset (r : Regs) (f : F) (v : Nat) : Regs := wword r f.off (setField (rword r f.off) f.lo f.w v)

/-- Add to a counter field, saturating at its largest value. -/
def fsat (r : Regs) (f : F) (n : Nat) : Regs := fset r f (min (fget r f + n) (2 ^ f.w - 1))

/-- Add to a counter field, wrapping. -/
def fwrap (r : Regs) (f : F) (n : Nat) : Regs := fset r f (fget r f + n)

/-- A field as a flag. -/
def fbit (r : Regs) (f : F) : Bool := fget r f != 0

/-- Two fields that share no bit. -/
abbrev F.apart (f g : F) : Prop := g.off ≠ f.off ∨ g.lo + g.w ≤ f.lo ∨ f.lo + f.w ≤ g.lo

/-- A field that lies in its word. -/
abbrev F.fits (f : F) : Prop := f.lo + f.w ≤ 32

/-- Read a field of the state's registers. -/
def State.get (s : State) (f : F) : Nat := fget s.regs f
/-- Read a one-bit field. -/
def State.flag (s : State) (f : F) : Bool := fbit s.regs f
/-- Write a field of the state's registers. -/
def State.set (s : State) (f : F) (v : Nat) : State := { s with regs := fset s.regs f v }
/-- Write a one-bit field. -/
def State.setB (s : State) (f : F) (b : Bool) : State := s.set f b.toNat
/-- Saturating increment of a counter field. -/
def State.inc (s : State) (f : F) : State := { s with regs := fsat s.regs f 1 }
/-- Saturating addition to a counter field. -/
def State.incBy (s : State) (f : F) (n : Nat) : State := { s with regs := fsat s.regs f n }
/-- Wrapping increment of a counter field. -/
def State.incW (s : State) (f : F) : State := { s with regs := fwrap s.regs f 1 }
/-- Store a whole register word. -/
def State.setW (s : State) (off : Nat) (v : Word) : State := { s with regs := wword s.regs off v }

/-! ### Numbers -/

/-- A w-bit two's complement number. -/
def toInt (w n : Nat) : Int := if n % 2 ^ w < 2 ^ (w - 1) then (n % 2 ^ w : Nat) else (n % 2 ^ w : Nat) - (2 ^ w : Nat)

/-- The w-bit two's complement code of an integer. -/
def ofInt (w : Nat) (x : Int) : Nat := (x % (2 ^ w : Nat)).toNat

/-- An integer held to the range of a w-bit two's complement number. -/
def satInt (w : Nat) (x : Int) : Int := max (-(2 ^ (w - 1) : Nat)) (min x ((2 ^ (w - 1) : Nat) - 1))

/-- R8: a 32-bit ns target is in the past when target - now lies in (-2^31, 0]. -/
def isPast (target now : Nat) : Bool :=
  let d := (target + 2 ^ 32 - now % 2 ^ 32) % 2 ^ 32
  d == 0 || d > 2 ^ 31

/-- The rule of R8 on 48-bit stamps (2^-16 ns), as R30 compares tick starts. -/
def isPast48 (target now : Nat) : Bool :=
  let d := (target + 2 ^ 48 - now % 2 ^ 48) % 2 ^ 48
  d == 0 || d > 2 ^ 47

/-- Signed difference of two 48-bit stamps. -/
def diff48 (a b : Nat) : Int := toInt 48 (a + 2 ^ 48 - b % 2 ^ 48)

/-- Signed difference of two 32-bit times (R8). -/
def diff32 (a b : Nat) : Int := toInt 32 (a + 2 ^ 32 - b % 2 ^ 32)

/-! ### Time counters (R274, R275) -/

/-- Nanosecond part of a counter. -/
def Tb.ns (t : Tb) : Nat := t.acc / 2 ^ 40 % 2 ^ 32
/-- The 48-bit stamp of a counter: ns above 16 bits of fraction (R275). -/
def Tb.stamp (t : Tb) : Nat := t.acc / 2 ^ 24 % 2 ^ 48
/-- Counter `n`; 8 is TBL. -/
def State.tb (s : State) (n : Nat) : Tb := tget Tb.rst s.tbs n
/-- Replace counter `n`. -/
def State.setTb (s : State) (n : Nat) (t : Tb) : State := { s with tbs := tset Tb.rst s.tbs n t }
/-- Nanoseconds of counter `n`. -/
def State.tbNs (s : State) (n : Nat) : Nat := (s.tb n).ns
/-- Stamp of counter `n`. -/
def State.tbStamp (s : State) (n : Nat) : Nat := (s.tb n).stamp
/-- The tick's time base (R32). -/
def State.tickTb (s : State) : Nat := s.get GLB_TICK_CTL_TB
/-- Nanoseconds of the tick's time base. -/
def State.tickNs (s : State) : Nat := s.tbNs s.tickTb

/-! ### Tick starts (R30) -/

/-- P in 2^-16 ns. -/
def tickPer (s : State) : Nat := s.get GLB_TICK_PER_NS * 65536 + s.get GLB_TICK_FRAC_FRAC

/-- Start of the tick that comes `k` ticks after the anchor, on the bound time base. -/
def tickStart (s : State) (k : Int) : Nat :=
  let c : Int := (s.get GLB_TICK_CTL_CYCLE : Int)
  let p : Int := (tickPer s : Int)
  ofInt 48 (if c = 0 then (s.tick.anchor : Int) + k * p
    else (s.tick.anchor : Int) + k / c * (65536 * (s.get GLB_TICK_CYCNS_CYCNS : Int)) + k % c * p)

/-! ### Outputs and free values -/

/-- Record an output. -/
def State.emit (s : State) (e : Emit) : State := { s with out := s.out ++ [e] }

/-- Draw a free value. -/
def State.draw (s : State) : Nat × State := (Config.freeNat s.free, { s with free := s.free + 1 })

/-! ### Device memories: where each lies in `State.mem` -/

/-- Table memory word `w` of SPg (R116). -/
def tmA (g w : Nat) : Nat := 0x308000 + 0x10000 * g + 4 * w
/-- Pour buffer of station `st` (R207). -/
def pourA (st : Nat) : Nat := 0x510000 + 0x400 * st
/-- Sip buffer of station `st` (R207). -/
def sipA (st : Nat) : Nat := 0x520000 + 0x800 * st
/-- Buffer `b` of process-image slot `n` (R38). -/
def piA (n b : Nat) : Nat := 0x540000 + 0xC00 * n + 0x400 * b
/-- The mailbox buffer (R418). -/
def mboxA : Nat := 0x910000
/-- Staging window byte `o` (R26, R473). -/
def bar2A (o : Nat) : Nat := 0x4000000 + o
/-- Merge image of carafe entry `c` (R197). -/
def mergeA (c : Nat) : Nat := 0x6000000 + 0x4000 * c
/-- Pour data last latched by station `st` (R191). -/
def latchA (st : Nat) : Nat := 0x7000000 + 0x400 * st

/-- Read `n` bytes of device memory. -/
def State.bytes (s : State) (a n : Nat) : Bytes := s.mem.getBytes a n
/-- Write bytes of device memory. -/
def State.putBytes (s : State) (a : Nat) (b : Bytes) : State := { s with mem := s.mem.putBytes a b }
/-- Write bytes of host memory. -/
def State.hostPut (s : State) (a : Nat) (b : Bytes) : State := { s with hostMem := s.hostMem.putBytes a b }
/-- A word of host memory. -/
def State.hostWord (s : State) (a : Nat) : Nat := s.hostMem.getLE a 4

/-- Writes of the host to its own memory that it has made visible (R344). -/
def State.hostWrites (s : State) (hw : HostWrites) : State :=
  { s with hostMem := hw.foldl (fun m e => m.put e.1 e.2) s.hostMem }

/-- The result type of exec. -/
abbrev Out := Host.Outcome State Fault Refusal

end Sys2Proof.Machine
end

