-- ==== Sys2Proof/Machine/Host.lean ====
section
/-! DEFINITION. What the host side of the block does on behalf of every other part: MSI-X messages and their latched
times (R286, R360), publications (R347), event records (R354 to R357), the halt (R361, R362). -/

namespace Sys2Proof.Machine

/-- Key of a ring: kind 0 transmit, 1 receive, 2 DMA job, 3 event, 4 command (the function's number). -/
def ringK (kind ring : Nat) : Nat := kind * 4096 + ring

/-- A ring. -/
def State.ring (s : State) (kind ring : Nat) : Ring := tget Ring.none s.rings (ringK kind ring)
/-- Replace a ring. -/
def State.setRing (s : State) (kind ring : Nat) (r : Ring) : State :=
  { s with rings := tset Ring.none s.rings (ringK kind ring) r }

/-- Size of a ring in entries (R342). -/
def Ring.size (r : Ring) : Nat := 2 ^ r.log2
/-- Entries between head and tail (R343). -/
def Ring.fill (r : Ring) : Nat := (r.tail + 65536 - r.head % 65536) % 65536
/-- Address of entry `i` (R343). -/
def Ring.slot (r : Ring) (i : Nat) : Nat := r.base + 32 * (i % r.size)

/-- Whether the host interface is halted (R362). -/
def State.halted (s : State) : Bool := s.flag BOOT_STATUS_HIHALT

/-- A vector's state. -/
def State.vec (s : State) (v : Nat) : VecSt := tget VecSt.rst s.vecs v
/-- Whether a function's MSI-X is enabled in its configuration space. -/
def State.msixOn (s : State) (f : Nat) : Bool := tget false s.fnMsix f

/-- The message itself: the time latch of R286 and the write to host memory. -/
def msixNow (s : State) (v : Nat) : State :=
  let s1 := (s.set (TB_VLAT_NS_NS v) (s.tbNs (s.get (TB_VLAT_CTL_TB v)))).set (TB_VLAT_TBL_TBL_NS v) (s.tbNs 8)
  (s1.incW (TB_VLAT_CTL_CNT v)).emit (.msix v)

/-- Send a message of function `f` on global vector `v`, or set its pending bit while it is masked (R360). -/
def sendMsix (s : State) (f v : Nat) : State :=
  if !s.msixOn f then s
  else if (s.vec v).masked then { s with vecs := tset VecSt.rst s.vecs v { s.vec v with pend := true } }
  else msixNow s v

/-- The message of a ring's publication, under its moderation (R360): rings on one vector that publish in one clock cause one message. -/
def ringMessage (s : State) (kind ring : Nat) : State :=
  let r := s.ring kind ring
  if s.now < r.modEnd then s.setRing kind ring { r with owed := true }
  else
    let r' := if r.mod = 0 then r else { r with modEnd := s.now + 1000 * r.mod }
    let s1 := s.setRing kind ring { r' with owed := false }
    if (s.vec r.vec).ringAt = s.now + 1 then s1
    else
      let s2 := sendMsix s1 r.fn r.vec
      { s2 with vecs := tset VecSt.rst s2.vecs r.vec { s2.vec r.vec with ringAt := s.now + 1 } }

/-- Publish index `i` of a ring (R347): shadow word, DB_RSTAT, message. -/
def publish (s : State) (kind ring i : Nat) : State :=
  let r := s.ring kind ring
  let was := if s.shadowWas.1 = s.now then s.shadowWas.2 else []
  let s0 := { s with shadowWas := (s.now, (r.shadow, s.hostMem.getBytes r.shadow 4) :: was) }
  let s1 := (s0.hostPut r.shadow (leBytes 4 (i % 65536))).setRing kind ring { r with pub := i % 65536 }
  ringMessage s1 kind ring

/-- The words of an event record (R354), as 32 bytes. -/
def recordBytes (unit code data ns frac kind tbl seq data2 : Nat) : Bytes :=
  leBytes 4 (unit * 65536 + code % 65536) ++ leBytes 4 (data % 2 ^ 32) ++ leBytes 4 ns ++
  leBytes 4 (frac * 65536 + kind * 4096) ++ leBytes 4 tbl ++ leBytes 4 (seq % 65536) ++
  leBytes 4 (data2 % 2 ^ 32) ++ leBytes 4 0

/-- Write one record at an event ring's tail. -/
def putRecord (s : State) (ring unit code data kind data2 : Nat) (stamp tbl : Nat) : State :=
  let r := s.ring 3 ring
  let bs := recordBytes unit code data (stamp / 65536) (stamp % 65536) kind tbl r.seq data2
  (s.hostPut (r.slot r.tail) bs).setRing 3 ring { r with tail := (r.tail + 1) % 65536, seq := (r.seq + 1) % 65536 }

/-- Post a record whose event has stamp `stampOf` per counter (R354 to R357): written to the routed ring, or dropped and
counted in EVT_ROUTE.DROP or in the ring's EVT_OVF. In the fatal state rings stop as in a halt (R448). -/
def postRecAt (s : State) (route unit code data kind data2 : Nat) (stampOf : Nat → Nat) : State :=
  let ring := s.get (EVT_ROUTE_RING route)
  let r := s.ring 3 ring
  if !s.flag (EVT_ROUTE_EN route) || !r.created || s.halted || s.fatal then s.inc (EVT_ROUTE_DROP route)
  else if r.fill ≥ r.size then
    s.setRing 3 ring { r with cntC := min (r.cntC + 1) (2 ^ 32 - 1), marker := min (r.marker + 1) (2 ^ 32 - 1) }
  else putRecord s ring unit code data kind data2 (stampOf r.tb) (stampOf 8 / 65536)

/-- Post a record of an event that happens now. -/
def postRec (s : State) (route unit code data kind data2 : Nat) : State :=
  postRecAt s route unit code data kind data2 s.tbStamp

/-- Post a device record (KIND 2 to 6, route 0, unit 0x5000). -/
def devRec (s : State) (kind code data data2 : Nat) : State := postRec s 0 0x5000 code data kind data2

/-- Whether a function has a local vector (R341): a virtual function uses at most 256, and a range is cut at the device's last
vector. -/
def hasVec (s : State) (f loc : Nat) : Bool :=
  loc < s.get (GLB_FN_VEC_VN f) && s.get (GLB_FN_VEC_VBASE f) + loc < 2048 && (f == 0 || loc < 256)

/-- The halt messages: local vector 0 of every function whose MSI-X is enabled (R360). -/
def haltMessages (s : State) : State :=
  (List.range 64).foldl (fun t f => if hasVec t f 0 then sendMsix t f (t.get (GLB_FN_VEC_VBASE f)) else t) s

/-- The host-interface halt (R361, R362, R370): only the first malformed entry halts. -/
def hostHalt (s : State) (cause kind fn ring index : Nat) (frag : Option Nat) : State :=
  if s.halted then s
  else
    let s1 := ({ s with haltAt := s.now }.set BOOT_STATUS_HIHALT 1).setW BOOT_HALT0
      (w32 (cause * 2 ^ 28 + kind * 2 ^ 24 + fn * 65536 + ring % 4096))
    haltMessages (s1.setW BOOT_HALT1
      (w32 ((match frag with | some f => 2 ^ 24 + (f % 256) * 65536 | none => 0) + index % 65536)))

/-- Rank of the halt record (R370): function, then KIND, then ring. -/
def haltRank (s : State) : Nat := s.get BOOT_HALT0_FN * 2 ^ 15 + s.get BOOT_HALT0_KIND * 2 ^ 12 + s.get BOOT_HALT0_RING

/-- Run what the host interface does in its own time (R362): nothing while it is halted, but for an entry found malformed in the clock of
the halt, which takes over the record where it ranks lower (R370). -/
def whileRuns (s : State) (op : State → State) : State :=
  if s.fatal then s
  else if !s.halted then op s
  else if s.now ≠ s.haltAt then s
  else
    let t := op (s.set BOOT_STATUS_HIHALT 0)
    if t.halted && decide (haltRank t < haltRank s) then
      (s.setW BOOT_HALT0 (rword t.regs BOOT_HALT0)).setW BOOT_HALT1 (rword t.regs BOOT_HALT1)
    else s

/-- A word of a 32-byte entry. -/
def entryWord (e : List Nat) (i : Nat) : Nat := e.getD i 0

/-- The OWN bit of an entry (R344). -/
def entryOwn (e : List Nat) : Bool := entryWord e 7 / 2 ^ 31 % 2 == 1

/-- Bits [hi:lo] of a number. -/
def bits (x hi lo : Nat) : Nat := x / 2 ^ lo % 2 ^ (hi + 1 - lo)

/-- The eight words at a host address. -/
def hostEntry (s : State) (a : Nat) : List Nat := (List.range 8).map (fun i => s.hostWord (a + 4 * i))

/-- Record a result of the started entry `i` of a ring: the words to write before word 7, and word 7 itself, which
clears OWN (R347). The entry waits for its COMPLETION. -/
def ringResult (s : State) (kind ring i : Nat) (ws : List (Nat × Nat)) : State :=
  let r := s.ring kind ring
  s.setRing kind ring { r with done := r.done ++ [(i, ws)] }

end Sys2Proof.Machine
end

