-- ==== Sys2Proof/Machine/Collector.lean ====
section
/-! DEFINITION. The fault collector's own operations: the summary bits of the shells (R14, R15), the record of an event
(R428, R429, R444), merging and reset shadows (R441 to R443), watched counts (R436), the fault pins (R446). -/

namespace Sys2Proof.Machine

/-- Key of a source: shell key and bit. -/
def srcK (k bit : Nat) : Nat := k * 16 + bit

/-- The class of the latest event of a source; `.none` while its SRC bit is 0. -/
def State.src (s : State) (k bit : Nat) : Cls := tget Cls.none s.srcs (srcK k bit)

/-- Whether a reaction of the source is in progress (R441). -/
def State.reacting (s : State) (k bit : Nat) : Bool := tget false s.reacts (srcK k bit)

/-- Mark a reaction as in progress. -/
def State.react (s : State) (k bit : Nat) (b : Bool) : State := { s with reacts := tset false s.reacts (srcK k bit) b }

/-- The reset of a unit. -/
def State.rst (s : State) (k : Nat) : RstSt := tget RstSt.none s.resets k

/-- SRC of a shell (R14). -/
def srcWord (s : State) (k : Nat) : Nat :=
  ((List.range 16).map (fun b => if s.src k b = .none then 0 else 2 ^ b)).sum

/-- Whether shell `k` reports upward (R13). -/
def reports (s : State) (k : Nat) : Bool := s.flag (SHELL_CTL_RPT_EN (shellBase k))

/-- The child of `a` through which a set bit of device unit `k` shows at `a`; none where a shell between has RPT_EN = 0.
The fuel is the height of the tree. -/
def childVia (s : State) (a : Nat) : Nat → Nat → Option Nat
  | 0, _ => none
  | d + 1, k =>
    if k = 0 ∨ levelOf k = 6 then none
    else if !reports s k then none
    else if parentOf k = a then some (k - childBase a)
    else childVia s a d (parentOf k)

/-- CHILD of a device shell (R14). -/
def childBits (s : State) (a : Nat) : Nat :=
  (List.range 8).foldl
    (fun m i => if s.srcs.any (fun e => decide (childVia s a 4 (e.1 / 16) = some i)) then m + 2 ^ i else m) 0

/-- A class bit of a device shell (R14, R15): an own SRC bit carries the class, or a reporting child shows it. -/
def clsBit (s : State) (a : Nat) (c : Cls) : Bool :=
  s.srcs.any (fun e => decide (e.2 = c) && (e.1 / 16 == a || (childVia s a 4 (e.1 / 16)).isSome))

/-- The fault pin pair (FAULT_P, FAULT_N), R446, R447. -/
def faultPins (s : State) : Bool × Bool :=
  if !s.collector || s.hbLost then (false, false)
  else if clsBit s 0 .fatal || (clsBit s 0 .cont && s.flag FLT_PIN_MASK_CONT) ||
      (clsBit s 0 .corr && s.flag FLT_PIN_MASK_CORR) then (false, true)
  else (true, false)

/-- Keys of `State.evAt` beyond those of sources: the merges of a shell, the starts of unit resets, and the latches and clearings of
FLT_NEW bits. -/
def mergeK (k : Nat) : Nat := 2 ^ 20 + k
/-- Start of a unit reset. -/
def rstK (k : Nat) : Nat := 2 ^ 22 + k
/-- Key of the stamp of the last warm device reset (R492). -/
def warmK : Nat := 2 ^ 23
/-- Latch of FLT_NEW bit `k`. -/
def newK (k : Nat) : Nat := 2 ^ 21 + k
/-- Clearing of FLT_NEW bit `k` while it was 1. -/
def newGoneK (k : Nat) : Nat := 2 ^ 21 + 8 + k

/-- Note that the event with a key of `State.evAt` happens in this clock. -/
def State.stampEv (s : State) (key : Nat) : State := { s with evAt := tset 0 s.evAt key (s.now + 1) }
/-- Whether the event with a key of `State.evAt` has happened in this clock. -/
def State.evNow (s : State) (key : Nat) : Bool := tget 0 s.evAt key == s.now + 1

/-- A merged event (R441): counted in the shell of the event that started the reaction, or of the reset (R442). -/
def mergeInto (s : State) (k : Nat) : State :=
  ((s.inc (SHELL_CNT_MERGED_N (shellBase k))).set (SHELL_STAT_MERGED (shellBase k)) 1).stampEv (mergeK k)

/-- Whether the shadow of a unit reset of `r` masks source (k, bit) of a unit outside its subtree (R442). -/
def masksBeside (r k bit : Nat) : Bool :=
  (levelOf r == 1 && parentOf r == k && (bit == 0 || bit == 1)) ||
  (2 ≤ levelOf r && levelOf r ≤ 4 && k == 0 && (9 ≤ bit && bit ≤ 12))

/-- Whether a unit reset of `r` masks source (k, bit) (R442): its own unit and those beneath it, and, where it opens a shadow, the
sources masked besides. -/
def masks (s : State) (r k bit : Nat) : Bool :=
  inSubtree r k || (s.get (SHELL_RST_SHADOW (shellBase r)) != 0 && masksBeside r k bit)

/-- The unit whose running reset or open shadow masks source (k, bit); the highest unit first (R457). -/
def maskedBy (s : State) (k bit : Nat) : Option Nat :=
  (s.resets.find? (fun e => e.2.active && masks s e.1 k bit)).map (·.1)

/-- Scopes of FLT_NEW an event of unit `k` belongs to (R444). -/
def scopesOf (k : Nat) (c : Cls) : List Nat :=
  (if k = 0 then [0] else match sliceOf k with | some i => [1 + i] | none => []) ++ (if c = .fatal then [5] else [])

/-- The bit of FLT_VEC.CLS a class has. -/
def clsMaskBit : Cls → Nat
  | .none => 3
  | .corr => 0
  | .cont => 1
  | .fatal => 2

/-- Set one FLT_NEW bit if the class is enabled for it, and send the scope's message when the bit rises (R444). In the
fatal state only the message of FLT_VEC5 leaves (R448); in a halt none does (R362). A latch in the clock of the W1C write of its bit
wins and sends no second message (R457). -/
def raiseNew (s : State) (c : Cls) (k : Nat) : State :=
  if k ≠ 5 ∧ s.get (FLT_VEC_CLS k) / 2 ^ clsMaskBit c % 2 = 0 then s
  else
    let old := s.get FLT_NEW_NEW
    let s1 := (s.set FLT_NEW_NEW (old ||| 2 ^ k)).stampEv (newK k)
    if old / 2 ^ k % 2 = 0 ∧ !s.evNow (newGoneK k) ∧ s.flag (FLT_VEC_EN k) ∧ !s.halted ∧ (!s.fatal ∨ k = 5) then
      sendMsix s1 0 (s.get (FLT_VEC_VEC k))
    else s1

/-- Record an event in its shell with its class (R428, R429) and in FLT_NEW (R444). -/
def record (s : State) (k bit : Nat) (c : Cls) : State :=
  (scopesOf k c).foldl (fun t sc => raiseNew t c sc)
    (({ s with srcs := tset Cls.none s.srcs (srcK k bit) c } : State).stampEv (srcK k bit))

/-- Whether the collector latches an event of the source now, and the state after merging it if it does not
(R428, R441 to R443): fatal events are never masked or merged. Without a shadow an event merges only in the clock in which the reset
starts (R457). -/
def admitEvent (s : State) (k bit : Nat) (fatalCls : Bool) : Bool × State :=
  if !s.collector then (false, s)
  else if fatalCls then (true, s)
  else
    match maskedBy s k bit with
    | some r => (false, if s.get (SHELL_RST_SHADOW (shellBase r)) = 0 ∧ !s.evNow (rstK r) then s else mergeInto s r)
    | none => if s.reacting k bit then (false, mergeInto s k) else (true, s)

/-- Record an event whose class is known and which starts no reaction here. -/
def note (s : State) (k bit : Nat) (c : Cls) : State :=
  match admitEvent s k bit (decide (c = .fatal)) with
  | (true, s1) => record s1 k bit c
  | (false, s1) => s1

/-- Key of a watched-source instance (R436): kind, then lane, port, group or node. -/
def watchK (kind inst : Nat) : Nat := kind * 4096 + inst

/-- N of a watched kind; 0 acts as 1 (R453). -/
def watchN (s : State) (kind : Nat) : Nat := max 1 (s.get (FLT_WATCH_N kind))

/-- W of a watched kind in base clocks; 0 acts as 1 ms, above 64,000 as 64,000 ms (R453). -/
def watchW (s : State) (kind : Nat) : Nat := 1000000 * min 64000 (max 1 (s.get (FLT_WATCH_W kind)))

/-- Count one event of a watched instance (R436): whether it is severe, and the state. -/
def watchEvent (s : State) (kind inst : Nat) : Bool × State :=
  let w := tget WatchSt.zero s.watch (watchK kind inst)
  let w1 : WatchSt :=
    if w.count = 0 ∨ s.now - w.start ≥ watchW s kind then ⟨1, s.now, s.now⟩ else ⟨w.count + 1, w.start, s.now⟩
  let severe := decide (w1.count ≥ watchN s kind)
  (severe, { s with watch := tset WatchSt.zero s.watch (watchK kind inst) (if severe then ⟨0, 1, s.now⟩ else w1) })

/-- An event of a watched source: counted unless merged; recorded with contained class when severe and corrected class
below the threshold (R14, R429, R436, R437). -/
def watched (s : State) (k bit kind inst : Nat) : Bool × State :=
  match admitEvent s k bit false with
  | (false, s1) => (false, s1)
  | (true, s1) =>
    let (sev, s2) := watchEvent s1 kind inst
    (sev, record s2 k bit (if sev then .cont else .corr))

/-- The current LIVE bit of a source set or cleared (R16). -/
def setLive (s : State) (k bit : Nat) (b : Bool) : State :=
  let f := SHELL_LIVE_LIVE (shellBase k)
  let m := s.get f
  s.set f (m - (m / 2 ^ bit % 2) * 2 ^ bit + (if b then 2 ^ bit else 0))

end Sys2Proof.Machine
end

