-- ==== Sys2Proof/Machine/Queues.lean ====
section
/-! DEFINITION. Port counters, cells, queues and their admission (R79 to R88, R111 to R113). -/

namespace Sys2Proof.Machine

/-- A port beyond its registers. -/
def State.port (s : State) (p : Nat) : PortSt := tget PortSt.rst s.ports p
/-- Replace a port. -/
def State.setPort (s : State) (p : Nat) (x : PortSt) : State := { s with ports := tset PortSt.rst s.ports p x }
/-- A lane beyond its registers. -/
def State.lane (s : State) (l : Nat) : LaneSt := tget LaneSt.rst s.lanes l
/-- Replace a lane. -/
def State.setLane (s : State) (l : Nat) (x : LaneSt) : State := { s with lanes := tset LaneSt.rst s.lanes l x }

/-- PRT_STAT.STATE codes (R62). -/
def stOff : Nat := 0
/-- Auto-negotiation. -/
def stAn : Nat := 1
/-- Training. -/
def stTrain : Nat := 2
/-- Up. -/
def stUp : Nat := 3
/-- Retreating. -/
def stRetreat : Nat := 4
/-- Retired. -/
def stRetired : Nat := 5

/-- A 64-bit port counter as a number (R113): low word at `off`, high word behind it. -/
def cnt64 (r : Regs) (off : Nat) : Nat := (rword r off).toNat + 2 ^ 32 * (rword r (off + 4)).toNat

/-- Add to a 64-bit port counter, wrapping. -/
def addCnt (s : State) (off n : Nat) : State :=
  let v := cnt64 s.regs off + n
  (s.setW off (w32 v)).setW (off + 4) (w32 (v / 2 ^ 32))

/-- Cells of a frame of length `len` (R79). -/
def cellsOf (len : Nat) : Nat := (len + 255) / 256

/-- Key of a queue: port and class, 8 for the timed-release queue. -/
def qK (p tc : Nat) : Nat := p * 16 + tc

/-- A queue, oldest first. -/
def State.queue (s : State) (p tc : Nat) : List QFrame := tget [] s.queues (qK p tc)
/-- Replace a queue. -/
def State.setQueue (s : State) (p tc : Nat) (q : List QFrame) : State :=
  { s with queues := tset [] s.queues (qK p tc) q }

/-- Cells charged to a queue (R79), those of copies held out of it among them (DESIGN CHOICE, log entry 116). -/
def queueUse (s : State) (p tc : Nat) : Nat := ((s.queue p tc).map (fun f => cellsOf f.len)).sum

/-- Cells reserved for a queue; none for the timed-release queue (R80). -/
def queueMin (s : State) (p tc : Nat) : Nat := if tc < 8 then s.get (PRT_QMIN_MIN p tc) else 0

/-- Sum of MIN over the queues of a slice (R81): only words written can be non-zero. -/
def minSum (s : State) (i : Nat) : Nat :=
  (s.regs.map (fun e =>
    if 0x100000 ≤ e.1 ∧ e.1 < 0x200000 ∧ (e.1 - 0x100000) / 0x40000 = i ∧
        0x120 ≤ e.1 % 0x2000 ∧ e.1 % 0x2000 < 0x140 then getField e.2 16 16 else 0)).sum

/-- A frame a transmitter holds: on the line, or cut through and not ended. -/
def onLine (s : State) (t : TxSt) : Bool := t.ct || decide (s.now < t.endAt)

/-- Frames stored in a slice: every entry of its queues, and the frames its transmitters hold. -/
def storedIn (s : State) (i : Nat) : List (Nat × Nat) :=
  (s.queues.flatMap (fun e => if e.1 / 512 = i then e.2.map (fun f => (f.id, cellsOf f.len)) else [])) ++
  (s.ports.flatMap (fun e =>
    if e.1 / 32 = i then
      (match e.2.tx with
       | some t => (match t.fr with | some f => if onLine s t then [(f.id, cellsOf f.len)] else [] | none => [])
       | none => []) ++
      (match e.2.rest with | some (f, _) => [(f.id, cellsOf f.len)] | none => [])
    else []))

/-- Cells of the distinct frames of a list (a multicast frame is stored once per slice, R79). -/
def distinctCells : List (Nat × Nat) → Nat
  | [] => 0
  | (i, n) :: r => (if r.any (fun e => e.1 == i) then 0 else n) + distinctCells r

/-- Part of the slice's queues' use that their reservations cover. -/
def coveredIn (s : State) (i : Nat) : Nat :=
  (s.queues.map (fun e =>
    if e.1 / 512 = i then min ((e.2.map (fun f => cellsOf f.len)).sum) (queueMin s (e.1 / 16) (e.1 % 16)) else 0)).sum

/-- FWD_BUF.FREE (R81, R106): shared cells free, from the frames stored (reading of FREE: log entry 15). -/
def sliceFree (s : State) (i : Nat) : Nat :=
  131072 - minSum s i - (distinctCells (storedIn s i) - coveredIn s i)

/-- Admission of `n` cells to queue `tc` of port `p` (R80); none to a slice that stands after a LINK_MEM (R434). -/
def admits (s : State) (p tc n : Nat) : Bool :=
  let use := queueUse s p tc
  let mn := queueMin s p tc
  let sl := p / 32
  !s.reacting (sliceK sl) 1 && (use + n ≤ mn || (use - mn + n) * 8 ≤ 2 ^ s.get (FWD_BUF_ALPHA sl) * sliceFree s sl)

/-- Remove the entries of a queue that satisfy `x`. -/
def dropFrom (s : State) (p tc : Nat) (x : QFrame → Bool) : State :=
  s.setQueue p tc ((s.queue p tc).filter (fun f => !x f))

/-- Results of a host entry whose frame has left or been dropped (R347 to R349). -/
def hostDone (s : State) (f : QFrame) (status ns frac : Nat) (tsv : Bool) (store : List (Nat × Nat)) : State :=
  match f.host with
  | none => s
  | some (ring, i) =>
    ringResult s 0 ring i ([(6, ns), (7, tsv.toNat * 2 ^ 30 + status * 2 ^ 26 + frac)] ++ store)

/-- A host frame that leaves the queue without being sent for a reason that R349 gives no STATUS: the code is free. -/
def hostLost (s : State) (f : QFrame) : State :=
  match f.host with
  | none => s
  | some _ =>
    let (v, s1) := s.draw
    hostDone s1 f (v % 16) 0 0 false []

/-- Frames lost with their queues: the descriptors of those that came from a ring complete (R349). -/
def hostsLost (s : State) (fs : List QFrame) : State := fs.foldl hostLost s

/-- Frames of a queue are lost. -/
def loseFrom (s : State) (p tc : Nat) (x : QFrame → Bool) : State :=
  hostsLost (dropFrom s p tc x) ((s.queue p tc).filter x)

/-- Change the entries of every queue that carry a frame identity. -/
def mapFrame (s : State) (id : Nat) (f : QFrame → QFrame) : State :=
  { s with queues := s.queues.map (fun e => (e.1, e.2.map (fun q => if q.id = id then f q else q))) }

/-- Remove a frame from every queue. -/
def dropFrame (s : State) (id : Nat) : State :=
  { s with queues := (s.queues.map (fun e => (e.1, e.2.filter (fun q => q.id != id)))).filter (fun e => e.2 != []) }

/-- A frame is lost from every queue. -/
def loseFrame (s : State) (id : Nat) : State :=
  hostsLost (dropFrame s id) ((s.queues.flatMap (·.2)).filter (fun q => q.id == id))

/-- Whether the timed entry `a` leaves before `b` (R86): launch-time order; cued entries wait behind. -/
def launchesBefore (a b : QFrame) : Bool := !a.cue && (b.cue || decide (diff32 a.t b.t < 0))

/-- Put an entry into the timed-release queue: behind every entry that does not leave after it. -/
def trqInsert (q : List QFrame) (x : QFrame) : List QFrame :=
  if x.cue then q ++ [x]
  else q.takeWhile (fun y => !launchesBefore x y) ++ [x] ++ q.dropWhile (fun y => !launchesBefore x y)

/-- Drop every entry of a port's timed-release queue into PRT_CNT_TRQ_SKIP (R88). Entries from a host ring complete with
STATUS 2 (R349). -/
def skipEntries (s : State) (p : Nat) (x : QFrame → Bool) : State :=
  let gone := (s.queue p 8).filter x
  let s1 := addCnt (dropFrom s p 8 x) (PRT_CNT_TRQ_SKIP p) gone.length
  gone.foldl (fun t f => match f.host with
    | some (r, i) => ringResult t 0 r i [(6, 0), (7, 2 * 2 ^ 26)]
    | none => t) s1

/-- Gbit/s of a mode (R43). -/
def modeSpeed : Nat → Nat
  | 1 => 10
  | 2 => 25
  | 3 => 25
  | 4 => 25
  | 5 => 50
  | 6 => 100
  | 7 => 100
  | 8 => 200
  | 9 => 200
  | 10 => 400
  | 11 => 400
  | 12 => 400
  | _ => 0

/-- Speed of a port in Gbit/s in its mode in use. -/
def portSpeed (s : State) (p : Nat) : Nat := modeSpeed (s.get (PRT_STAT_CUR_MODE p))

/-- Base clocks (ns) from the SFD of a frame of `len` bytes to that of the next the line can carry, gap and preamble between them,
rounded up. -/
def wireNs (s : State) (p len : Nat) : Nat :=
  let r := portSpeed s p
  if r = 0 then 0 else ((len + 20) * 8 + r - 1) / r

/-- A frame is in flight at a port now. -/
def inFlight (s : State) (p : Nat) : Option TxSt :=
  match (s.port p).tx with
  | some t => if onLine s t then some t else none
  | none => none

/-- A fragment is in flight (R97): a preemptable frame started and not finished. -/
def fragInFlight (s : State) (p : Nat) : Bool :=
  (s.port p).rest.isSome || (match inFlight s p with | some t => !t.express | none => false)

end Sys2Proof.Machine
end

