-- ==== Sys2Proof/Machine/Tables.lean ====
section
/-! DEFINITION. The tables reached by window (R102, R239), redundancy groups (R234), and the path health of recovery instances (R231). -/

namespace Sys2Proof.Machine

/-! ### Tables reached by window -/

/-- Key of word `w` of entry `i` of a forwarding or redundancy table. -/
def entK (t i w : Nat) : Nat := t * 2 ^ 24 + i * 16 + w

/-- A word of a forwarding table (R102). -/
def State.strW (s : State) (t i w : Nat) : Nat := (tget (0 : Word) s.str (entK t i w)).toNat

/-- Write a word of a forwarding table. -/
def State.setStr (s : State) (t i w v : Nat) : State := { s with str := tset (0 : Word) s.str (entK t i w) (w32 v) }

/-- A word of a redundancy table (R239). -/
def State.frW (s : State) (t i w : Nat) : Nat := (tget (0 : Word) s.frer (entK t i w)).toNat

/-- Write a word of a redundancy table. -/
def State.setFr (s : State) (t i w v : Nat) : State := { s with frer := tset (0 : Word) s.frer (entK t i w) (w32 v) }

/-- Increment a wrapping counter of table 3 of the redundancy window (R233). -/
def frCount (s : State) (i w n : Nat) : State := s.setFr 3 i w (s.frW 3 i w + n)

/-- Indices of the entries of table `t` whose word `w` is not zero, lowest first. -/
def entriesOf (tab : Tab Word) (t w : Nat) : List Nat :=
  tab.filterMap (fun e => if e.1 / 2 ^ 24 = t ∧ e.1 % 16 = w then some (e.1 % 2 ^ 24 / 16) else none)

/-- Replace bits [hi:lo] of a number. -/
def putBits (x hi lo v : Nat) : Nat :=
  x % 2 ^ lo + (v % 2 ^ (hi + 1 - lo)) * 2 ^ lo + x / 2 ^ (hi + 1) * 2 ^ (hi + 1)

/-- Ones among the low 16 bits. -/
def popCount (x : Nat) : Nat := ((List.range 16).map (fun i => x / 2 ^ i % 2)).sum

/-! ### Groups of ports -/

/-- The enabled group a port belongs to. -/
def groupOf (s : State) (p : Nat) : Option Nat :=
  (List.range 16).find? (fun r => s.flag (DUP_RG_CFG_EN r) &&
    (s.get (DUP_RG_CFG_PORT_A r) == p || s.get (DUP_RG_CFG_PORT_B r) == p))

/-- PORT_A of a group. -/
def portA (s : State) (r : Nat) : Nat := s.get (DUP_RG_CFG_PORT_A r)

/-- PORT_B of a group. -/
def portB (s : State) (r : Nat) : Nat := s.get (DUP_RG_CFG_PORT_B r)

/-- Whether a group is an HSR ring. -/
def isHsr (s : State) (r : Nat) : Bool := s.flag (DUP_RG_CFG_MODE r)

/-- A Ulicon port. -/
def isUlc (s : State) (p : Nat) : Bool := s.flag (PRT_ULC_EN p)

/-! ### Path health (R231) -/

/-- Path `k` of a recovery instance's entry word 1 (R226). -/
def instPath (s : State) (i k : Nat) : Nat := bits (s.frW 2 i 1) (30 - 8 * k) (24 - 8 * k)

/-- NPATH of an instance. -/
def instNpath (s : State) (i : Nat) : Nat := bits (s.frW 2 i 2) 31 29

/-- PATH_OK of an instance. -/
def instPathOk (s : State) (i : Nat) : Nat := bits (s.frW 2 i 4) 11 8

/-- LOSS_TMO of an instance in ms. -/
def instLossTmo (s : State) (i : Nat) : Nat := bits (s.frW 2 i 2) 28 16

/-- Recovery instances whose entries list paths (NPATH is at least 1 in an entry that has been written). -/
def pathInsts (s : State) : List Nat := entriesOf s.frer 2 2

/-- A recovery instance beyond its entry. -/
def State.rec_ (s : State) (i : Nat) : RecSt := tget RecSt.rst s.recs i

/-- Replace an instance. -/
def State.setRec (s : State) (i : Nat) (r : RecSt) : State := { s with recs := tset RecSt.rst s.recs i r }

/-- Give an instance new PATH_OK bits: HEALTH follows; a change of HEALTH posts a record, a fall also latches PATH. -/
def setPathOk (s : State) (i ok : Nat) : State :=
  let h0 := popCount (instPathOk s i)
  let h1 := popCount (ok % 16)
  let w := putBits (putBits (s.frW 2 i 4) 14 12 h1) 11 8 ok
  let s1 := s.setFr 2 i 4 w
  if h1 = h0 then s1
  else
    let s2 := devRec s1 5 (if h1 < h0 then 1 else 2) i (ok % 16 * 256 + h1)
    if h1 < h0 then note s2 0 12 .corr else s2

/-- The paths of instance `i` that are port `p`. -/
def pathsOn (s : State) (i p : Nat) : List Nat :=
  (List.range (min 4 (instNpath s i))).filter (fun k => instPath s i k == p)

/-- A port has left STATE 3: its PATH_OK bits fall. -/
def pathsDown (s : State) (p : Nat) : State :=
  (pathInsts s).foldl (fun t i =>
    let ks := pathsOn t i p
    let t1 := t.setRec i { t.rec_ i with good := (t.rec_ i).good.mapIdx (fun k g => if k ∈ ks then none else g) }
    let ok := ks.foldl (fun m k => putBits m k k 0) (instPathOk t1 i)
    if ok = instPathOk t1 i then t1 else setPathOk t1 i ok) s

/-- A port has entered STATE 3: the bits of instances without LOSS_TMO rise. -/
def pathsUp (s : State) (p : Nat) : State :=
  (pathInsts s).foldl (fun t i =>
    if instLossTmo t i ≠ 0 then t
    else
      let ok := (pathsOn t i p).foldl (fun m k => putBits m k k 1) (instPathOk t i)
      if ok = instPathOk t i then t else setPathOk t i ok) s

end Sys2Proof.Machine
end

