-- ==== Sys2Proof/Machine/HostRx.lean ====
section
/-! DEFINITION. Delivery of frames to the receive rings (R350 to R353, R358). -/

namespace Sys2Proof.Machine

/-- The copy held of entry `i`. -/
def Ring.copy (r : Ring) (i : Nat) : Option (List Nat) := (r.copies.find? (fun e => e.1 == i)).map (·.2)

/-- Entry `i` is outstanding (R343). -/
def Ring.outstanding (r : Ring) (i : Nat) : Bool :=
  (i + 65536 - r.head) % 65536 < (r.tail + 65536 - r.head) % 65536

/-- The next entry to process: outstanding, held with OWN = 1 (R346). -/
def Ring.ready (r : Ring) : Option (List Nat) :=
  if r.created && r.outstanding r.next && !r.destroying then
    (match r.copy r.next with | some e => if entryOwn e then some e else .none | _ => .none)
  else .none

/-- A fragment: address, length, and whether the entry breaks R353. -/
def fragEntry (s : State) (a : Nat) : Nat × Nat × Bool :=
  let w2 := s.hostWord (a + 8)
  let len := w2 % 2 ^ 14
  (s.hostWord a + 2 ^ 32 * s.hostWord (a + 4), len,
    w2 / 2 ^ 14 != 0 || s.hostWord (a + 12) != 0 || len == 0 || len > 9216)

/-- The fragments of a table. -/
def fragTable (s : State) (a n : Nat) : List (Nat × Nat × Bool) := (List.range n).map (fun i => fragEntry s (a + 16 * i))

/-- The 64-bit address in words `i` and `i + 1`. -/
def entryAddr (e : List Nat) (i : Nat) : Nat := entryWord e i + 2 ^ 32 * entryWord e (i + 1)

/-- Scatter bytes over a buffer or its fragments. -/
def scatter (s : State) : List (Nat × Nat) → Bytes → State
  | [], _ => s
  | (a, n) :: r, bs => if bs.isEmpty then s else scatter (s.hostPut a (bs.take n)) r (bs.drop n)

/-- Gather bytes from a buffer or its fragments. -/
def gather (s : State) (fs : List (Nat × Nat)) : Bytes := fs.flatMap (fun f => s.hostMem.getBytes f.1 f.2)

/-- The pieces of a transmit or receive buffer (R348, R350, R353). -/
def buffer (s : State) (e : List Nat) : List (Nat × Nat) :=
  let w2 := entryWord e 2
  if bits w2 31 31 = 1 then (fragTable s (entryAddr e 0) (bits w2 24 16)).map (fun f => (f.1, f.2.1))
  else [(entryAddr e 0, bits w2 13 0)]

/-- Words 5 to 7 of a filled receive descriptor (R350). -/
def rxWords (r : Ring) (fr : HostFrame) : List (Nat × Nat) :=
  let st := fr.stamps.getD r.tb 0
  [(5, fr.handle.getD 0 % 65536 * 65536 + fr.bytes.length % 2 ^ 14), (6, if fr.tsv then st / 65536 else 0),
   (7, fr.tsv.toNat * 2 ^ 30 + fr.handle.isSome.toNat * 2 ^ 29 + fr.auth.toNat * 2 ^ 28 + fr.sec.toNat * 2 ^ 27 +
      fr.tc % 8 * 2 ^ 24 + fr.port % 128 * 65536 + (if fr.tsv then st % 65536 else 0))]

/-- Write a frame into the ring's next outstanding entry; the answer tells whether there was one (R351). A frame longer
than BUFLEN is dropped into DROP_BIG and the entry stays. -/
def rxFill (s : State) (ring : Nat) (fr : HostFrame) : Bool × State :=
  let r := s.ring 1 ring
  match r.ready with
  | none => (false, s)
  | some e =>
    if bits (entryWord e 2) 13 0 < fr.bytes.length then
      (true, s.setRing 1 ring { r with cntC := min (r.cntC + 1) (2 ^ 32 - 1) })
    else
      let s1 := scatter s (buffer s e) fr.bytes
      let s2 := s1.setRing 1 ring { s1.ring 1 ring with next := (r.next + 1) % 65536 }
      (true, ringResult s2 1 ring r.next (rxWords r fr))

/-- Saturating count of 16 bits. -/
def sat16 (n : Nat) : Nat := min (n + 1) 65535

/-- Cells of 256 bytes in the receive hold store (R352). -/
def holdUsed (s : State) : Nat := (s.rxHold.map (fun e => (e.2.bytes.length + 255) / 256)).sum

/-- Hand a frame to a receive ring (R351, R352): behind the frames that wait for it, if any. -/
def rxOffer (s : State) (ring : Nat) (fr : HostFrame) : State :=
  let r := s.ring 1 ring
  let full := decide (holdUsed s + (fr.bytes.length + 255) / 256 > 8192)
  match (if s.rxHold.any (fun e => e.1 == ring) then (false, s) else rxFill s ring fr) with
  | (true, s1) => s1
  | (false, _) =>
    if r.sched / 2 ^ fr.tc % 2 = 1 then s.setRing 1 ring { r with cntA := sat16 r.cntA }
    else if r.rxHold == 0 || full then s.setRing 1 ring { r with cntB := sat16 r.cntB }
    else { s with rxHold := s.rxHold ++ [(ring, fr)] }

/-- Waiting frames of a ring take its new entries in arrival order (R352). -/
def rxWaiting (s : State) (ring : Nat) : State :=
  let mine := s.rxHold.filter (fun e => e.1 == ring)
  mine.foldl (fun t e =>
    if t.rxHold.any (fun x => x.1 == ring && decide (x.2 = e.2)) then
      (match rxFill t ring e.2 with
       | (true, t1) => { t1 with rxHold := t1.rxHold.erase e }
       | (false, _) => t)
    else t) s

/-- Steering key of a kind and key (R358). -/
def steerK (skind key : Nat) : Nat := skind * 65536 + key

/-- The receive ring of a frame (R351); `ptp` is the time base of a PTP copy. -/
def steerOf (s : State) (fr : HostFrame) (ptp : Option Nat) : Option Nat :=
  let look : Nat → Option Nat := fun k => tget none s.steer k
  match ptp.bind (fun n => look (steerK 2 n)) with
  | some r => some r
  | none =>
    match fr.handle.bind (fun h => look (steerK 1 h)) with
    | some r => some r
    | none => look (steerK 0 (fr.port % 128 + fr.tc % 8 * 256))

/-- Deliver a frame to the host (R351, R352, R362). -/
def toHost (s : State) (fr : HostFrame) (ptp : Option Nat) : State :=
  if s.fatal then s
  else if s.halted then s.inc GLB_HOST_DROP_NORING
  else match steerOf s fr ptp with
  | none => s.inc GLB_HOST_DROP_NOSTEER
  | some ring => if (s.ring 1 ring).created then rxOffer s ring fr else s.inc GLB_HOST_DROP_NORING

end Sys2Proof.Machine
end

