-- ==== Sys2Proof/Machine/Recovery.lean ====
section
/-! DEFINITION. Sequence recovery (R226 to R233), generation (R225), and the node table of PRP and HSR groups (R234 to
R238). -/

namespace Sys2Proof.Machine

/-! ### Instances (R226, R227) -/

/-- VALID of an instance. -/
def instValid (s : State) (i : Nat) : Bool := bits (s.frW 2 i 0) 31 31 == 1
/-- RECOV_SEQ. -/
def instSeq (s : State) (i : Nat) : Nat := bits (s.frW 2 i 4) 31 16
/-- TAKE_ANY. -/
def instAny (s : State) (i : Nat) : Bool := bits (s.frW 2 i 4) 15 15 == 1
/-- HISTLEN. -/
def instLen (s : State) (i : Nat) : Nat := bits (s.frW 2 i 0) 23 16

/-- Move RECOV_SEQ and clear TAKE_ANY. -/
def takeSeq (s : State) (i seq : Nat) : State := s.setFr 2 i 4 (putBits (putBits (s.frW 2 i 4) 31 16 seq) 15 15 0)

/-- How an instance judges a frame: it passes (with a pending mark or without), is discarded, or waits for the pending
frame of an ingress port (`judge`: it is judged when that frame has ended). -/
inductive Verdict where
  | pass (mark : Bool)
  | discard
  | wait (onPort : Nat) (judge : Bool)
  deriving DecidableEq, Repr

/-- A pass is pending on ingress port `p`, with the number it marks. -/
def addMark (s : State) (i p : Nat) (seq : Option Nat) : State :=
  let r := s.rec_ i
  s.setRec i { r with pend := r.pend ++ [(p, seq)] }

/-- A duplicate: it waits for the pending frame of its number, or is discarded. -/
def duplicate (s : State) (i seq : Nat) : Verdict × State :=
  match (s.rec_ i).pend.find? (fun e => e.2 == some seq) with
  | some (q, _) => (.wait q false, s)
  | none => (.discard, frCount s i 1 1)

/-- The zero bits among the positions of a history that a shift by `d` moves out. -/
def shiftedOut (hist len d : Nat) : Nat := ((List.range d).map (fun k => 1 - hist / 2 ^ (len - d + k) % 2)).sum

/-- The vector algorithm. -/
def judgeVector (s : State) (i p seq : Nat) : Verdict × State :=
  let r := s.rec_ i
  let n := instLen s i
  let d := toInt 16 (seq + 65536 - instSeq s i)
  if instAny s i then (.pass true, addMark ((takeSeq s i seq).setRec i { r with hist := 1 }) i p (some seq))
  else if d ≥ n ∨ d ≤ -(n : Int) then (.discard, frCount s i 5 1)
  else if d ≤ 0 then
    (if r.hist / 2 ^ (-d).toNat % 2 = 1 then duplicate s i seq
     else (.pass true, addMark (frCount (s.setRec i { r with hist := r.hist ||| 2 ^ (-d).toNat }) i 2 1) i p (some seq)))
  else
    let s1 := frCount s i 3 (shiftedOut r.hist n d.toNat)
    (.pass true, addMark ((takeSeq s1 i seq).setRec i { r with hist := (r.hist * 2 ^ d.toNat + 1) % 2 ^ n }) i p (some seq))

/-- The match algorithm. -/
def judgeMatch (s : State) (i p seq : Nat) : Verdict × State :=
  if !instAny s i && seq == instSeq s i then duplicate s i seq
  else
    let s1 := if !instAny s i && (seq + 65536 - instSeq s i) % 65536 != 1 then frCount s i 2 1 else s
    (.pass true, addMark (takeSeq s1 i seq) i p (some seq))

/-- An instance judges a frame that arrives on port `p` (R226, R227, R230). A frame without a number that passes is pending too: it
counts in PASSED or DAMAGED at its end (R230, R233). -/
def judgeOne (s : State) (i p : Nat) (seq : Option Nat) : Verdict × State :=
  if !instValid s i then (.pass false, s)
  else if (s.rec_ i).pend.any (fun e => e.1 == p) then (.wait p true, s)
  else match seq with
    | none =>
      let s1 := frCount s i 4 1
      if bits (s.frW 2 i 0) 29 29 = 1 then (.pass true, addMark s1 i p none) else (.discard, s1)
    | some n => if bits (s.frW 2 i 0) 30 30 = 1 then judgeMatch s i p n else judgeVector s i p n

/-- What a chain of instances decides: the marks the frame holds; whether it goes on; what it waits for, with the instances
still to come. -/
structure Judged where
  marks : List (Nat × Option Nat)
  go : Bool
  hold : Option (Nat × Nat × Bool × List Nat)
  deriving DecidableEq, Repr

/-- Individual recovery, then the instance itself (R224, R229). -/
def judgeAll (s : State) (p : Nat) (seq : Option Nat) (marks : List (Nat × Option Nat)) : List Nat → Judged × State
  | [] => (⟨marks, true, none⟩, s)
  | i :: rest =>
    match judgeOne s i p seq with
    | (.discard, s1) => (⟨marks, false, none⟩, s1)
    | (.wait q j, s1) => (⟨marks, false, some (i, q, j, rest)⟩, s1)
    | (.pass m, s1) => judgeAll s1 p seq (if m then marks ++ [(i, seq)] else marks) rest

/-- The path of an instance a port is (R226). -/
def pathIndex (s : State) (i p : Nat) : Option Nat := (pathsOn s i p).head?

/-- The instance of individual recovery a binding names for a frame from port `p` (R223, R229). -/
def bindOwn (s : State) (h p : Nat) : List Nat :=
  let w := s.frW 0 h 0
  if bits w 29 29 = 0 then []
  else ((pathIndex s (bits w 13 0) p).map (bits (s.frW 0 h 1) 13 0 + ·)).toList

/-- The instance of sequence recovery a binding names (R223). -/
def bindInst (s : State) (h : Nat) : List Nat :=
  let w := s.frW 0 h 0
  if bits w 30 30 = 1 then [bits w 13 0] else []

/-! ### Ends (R230, R231) -/

/-- History of an instance without the number of a damaged frame. -/
def histLess (s : State) (i : Nat) (seq : Option Nat) : Nat :=
  let h := (s.rec_ i).hist
  match seq with
  | none => h
  | some n =>
    let k := (instSeq s i + 65536 - n) % 65536
    if h / 2 ^ k % 2 = 1 ∧ k < 128 then h - 2 ^ k else h

/-- A pending mark becomes final, or is removed (R230). A pass that ends good ends the silence of R228; one that ends bad after it has taken
TAKE_ANY leaves the silence to reset the instance again. -/
def commitMark (s : State) (p i : Nat) (seq : Option Nat) (good : Bool) : State :=
  let r := s.rec_ i
  let r1 := { r with pend := r.pend.filter (fun e => !(e.1 == p && e.2 == seq)) }
  if !r.pend.contains (p, seq) then s
  else if good then frCount (s.setRec i { r1 with lastPass := s.now, wasReset := false }) i 0 1
  else frCount (s.setRec i { r1 with hist := histLess s i seq, wasReset := r.wasReset && instAny s i }) i 8 1

/-- A good frame of an instance has arrived on port `p`: its path is healthy (R231). -/
def goodOnPath (s : State) (i p : Nat) : State :=
  (pathsOn s i p).foldl (fun t k =>
    let r := t.rec_ i
    let t1 := t.setRec i { r with good := r.good.set k (some t.now) }
    if instLossTmo t i ≠ 0 ∧ instPathOk t i / 2 ^ k % 2 = 0 ∧ t.get (PRT_STAT_STATE p) = stUp then
      setPathOk t1 i (instPathOk t i + 2 ^ k)
    else t1) s

/-! ### Node table (R235, R236) -/

/-- The node entry of a group with a MAC address. -/
def nodeOf (s : State) (r mac : Nat) (proxy : Bool) : Option Nat :=
  (entriesOf s.frer 4 1).find? (fun e =>
    let w := s.frW 4 e 1
    bits w 15 15 == 1 && bits w 11 8 == r && (bits w 14 14 == 1) == proxy &&
    s.frW 4 e 0 * 65536 + w / 65536 == mac)

/-- The lowest free place of the node table. -/
def nodePlace (s : State) : Option Nat := (List.range 4096).find? (fun e => bits (s.frW 4 e 1) 15 15 == 0)

/-- Instances of a group's pool that remote entries own. -/
def poolUsed (s : State) (r : Nat) : List Nat :=
  ((entriesOf s.frer 4 1).filter (fun e =>
    let w := s.frW 4 e 1
    bits w 15 15 == 1 && bits w 14 14 == 0 && bits w 11 8 == r)).map (fun e => bits (s.frW 4 e 2) 13 0)

/-- A free instance of a group's pool. -/
def poolFree (s : State) (r : Nat) : Option Nat :=
  let used := poolUsed s r
  ((List.range (s.get (DUP_RG_POOL_N r))).map (s.get (DUP_RG_POOL_BASE r) + ·)).find? (fun i => !used.contains i)

/-- PATH_OK of an instance whose paths have just come up (R226, R231). -/
def freshPathOk (s : State) (i : Nat) : Nat :=
  if instLossTmo s i ≠ 0 then 0
  else ((List.range (min 4 (instNpath s i))).map (fun k =>
    if s.get (PRT_STAT_STATE (instPath s i k)) = stUp then 2 ^ k else 0)).sum

/-- Write an instance entry (R226): words 0 to 3, and its state as of new. A change of HEALTH posts a record as any other (R231). -/
def instWrite (s : State) (i : Nat) (ws : List Nat) : State :=
  let s1 := (List.range 4).foldl (fun t k => t.setFr 2 i k (ws.getD k 0)) s
  let s2 := (List.range 10).foldl (fun t k => t.setFr 3 i k 0) s1
  let s3 := setPathOk s2 i (freshPathOk s2 i)
  (s3.setFr 2 i 4 (putBits (putBits (s3.frW 2 i 4) 31 16 0) 15 15 1)).setRec i
    { RecSt.rst with lastPass := s.now, perAt := s.now, resetAt := s.now }

/-- The instance a remote entry takes from its group's pool (R236). -/
def poolTake (s : State) (r i : Nat) : State :=
  instWrite s i [2 ^ 31 + 2 ^ 29 + s.get (DUP_RG_CFG_HIST r) * 65536 + s.get DUP_CFG_FORGET_MS,
    portA s r * 2 ^ 24 + portB s r * 2 ^ 16, 2 * 2 ^ 29, 0]

/-- Make a node entry at a place. -/
def nodeMake (s : State) (e r mac : Nat) (proxy : Bool) (inst : Nat) : State :=
  let s1 := ((s.setFr 4 e 0 (mac / 65536)).setFr 4 e 1 (mac % 65536 * 65536 + 2 ^ 15 + proxy.toNat * 2 ^ 14 + r * 256))
  let s2 := (s1.setFr 4 e 2 inst).setFr 4 e 3 0
  { s2 with nodeSeen := tset 0 s2.nodeSeen e s2.now }

/-- Refresh a node entry. -/
def nodeTouch (s : State) (e : Nat) : State := { s with nodeSeen := tset 0 s.nodeSeen e s.now }

/-- The instance of a frame's remote source in a group (R236): found, created, or none, counted in NOSLOT. -/
def remoteInst (s : State) (r mac : Nat) : Option Nat × State :=
  match nodeOf s r mac false with
  | some e => (some (bits (s.frW 4 e 2) 13 0), nodeTouch s e)
  | none =>
    match nodePlace s, poolFree s r with
    | some e, some i => (some i, nodeMake (poolTake s r i) e r mac false i)
    | _, _ => (none, s.inc (DUP_RG_CNT_NOSLOT r))

/-- The next number of a frame's proxy in a group (R236): its entry is created if absent. -/
def proxyNumber (s : State) (r mac : Nat) : Option Nat × State :=
  match nodeOf s r mac true with
  | some e =>
    let n := bits (s.frW 4 e 2) 31 16
    (some n, nodeTouch (s.setFr 4 e 2 (putBits (s.frW 4 e 2) 31 16 (n + 1))) e)
  | none =>
    match nodePlace s with
    | some e => (some 0, (nodeMake s e r mac true 0).setFr 4 e 2 65536)
    | none => (none, s.inc (DUP_RG_CNT_NOSLOT r))

/-! ### Numbers on the way out (R224, R225, R236) -/

/-- The numbers given in this clock (R225). -/
def givenNow (s : State) : List (Nat × Nat × Nat) := if s.given.1 = s.now then s.given.2 else []

/-- Whether a frame is on the line of some port. -/
def started (s : State) (id : Nat) : Bool := s.ports.any (fun e => e.2.tx.any (fun t => t.id == id))

/-- The frames of this clock with numbers of generator `g` that give way to one from port group `pg`: those of higher-numbered groups, from
the latest number down, until one is on the line already (R225; log entry 11). -/
def laterGiven (s : State) (g pg : Nat) : List (Nat × Nat × Nat) :=
  ((givenNow s).filter (fun e => e.1 == g)).takeWhile (fun e => decide (pg < e.2.1) && !started s e.2.2)

/-- Generator `g` gives frame `id` of port group `pg` its number: SEQ advances by one, and the frames of this clock that come after it move
on by one each (R225). -/
def giveNumber (s : State) (g pg id : Nat) : Option Nat × State :=
  let n := s.frW 1 g 0 % 65536
  let later := laterGiven s g pg
  let mine := (givenNow s).filter (fun e => e.1 == g)
  let s1 := later.foldl (fun t e =>
    mapFrame t e.2.2 (fun q => { q with seq := q.seq.map (fun v => (v + 1) % 65536) })) (s.setFr 1 g 0 ((n + 1) % 65536))
  (some ((n + 65536 - later.length) % 65536), { s1 with
    given := (s.now, later ++ [(g, pg, id)] ++ mine.drop later.length ++ (givenNow s).filter (fun e => e.1 != g)) })

/-- The number a binding's generator gives a frame, if it has one. -/
def generate (s : State) (handle : Option Nat) (pg id : Nat) : Option Nat × State :=
  match handle with
  | none => (none, s)
  | some h =>
    let w := s.frW 0 h 0
    if bits w 31 31 = 0 then (none, s) else giveNumber s (bits w 28 16) pg id

/-- Link-local destination addresses (R234). -/
def linkLocal (b : Bytes) : Bool := beField b 0 6 / 16 == 0x0180C200000

/-- Give the entries of frame `id` in the queues of port `p` a number. -/
def setSeqOn (s : State) (id p : Nat) (seq : Option Nat) : State :=
  { s with queues := s.queues.map (fun e =>
      if e.1 / 16 = p then (e.1, e.2.map (fun q => if q.id = id then { q with seq := seq } else q)) else e) }

/-- The numbers of a frame per egress port: the generator's, else the received one; into a group the generator's, else the
proxy's, and none for a link-local frame (R234). -/
def numbersFor (s : State) (o : RxOpen) (recv : Option Nat) (sa : Nat) (ports : List Nat) (ll : Bool) :
    List (Nat × Option Nat) × State :=
  let (gen, s1) := generate s o.handle (o.port / 8) o.fr.id
  let groups := if ll then [] else (List.range 16).filter (fun r => ports.any (fun p => groupOf s p == some r))
  let (nums, s2) := groups.foldl (fun (a : List (Nat × Option Nat) × State) r =>
    if gen.isSome then (a.1 ++ [(r, gen)], a.2)
    else
      let (n, t) := proxyNumber a.2 r sa
      (a.1 ++ [(r, n)], t)) ([], s1)
  (ports.map (fun p =>
    match groupOf s p with
    | none => (p, if gen.isSome then gen else recv)
    | some r => (p, ((nums.find? (fun e => e.1 == r)).bind (·.2)))), s2)

end Sys2Proof.Machine
end

