-- ==== Sys2Proof/Machine/Ends.lean ====
section
/-! DEFINITION. What the end of a frame does to its stored copies (R76, R77, R85, R88, R100), to the copies that wait for it (R230), and the end of a frame that ends bad. -/

namespace Sys2Proof.Machine

/-- FID of a VLAN. -/
def vlanFid (s : State) (vid : Nat) : Nat := bits (s.strW 5 vid 8) 11 0

/-- The valid FDB entry of an address in a FID; the lowest index where software wrote several. -/
def fdbFind (s : State) (mac fid : Nat) : Option Nat :=
  (entriesOf s.str 6 2).find? (fun i =>
    bits (s.strW 6 i 2) 31 31 == 1 && s.strW 6 i 0 * 65536 + s.strW 6 i 1 / 65536 == mac &&
    bits (s.strW 6 i 1) 11 0 == fid)

/-- A frame on its way through the pipeline whose stages drop it. -/
def RxOpen.drop (o : RxOpen) : RxOpen := { o with dropped := true }

/-- Learning at a good end (R77): a new entry takes the lowest free place. An entry with MC or HOST set is neither moved nor refreshed
(DESIGN CHOICE, log entry 92). -/
def learn (s : State) (mac fid port : Nat) : State :=
  let mark : Nat → State → State := fun i t => { t with fdbSeen := tset 0 t.fdbSeen i (t.now + 1) }
  match fdbFind s mac fid with
  | some i =>
    let w := s.strW 6 i 2
    if bits w 30 28 ≠ 0 then s else mark i (s.setStr 6 i 2 (w / 65536 * 65536 + port))
  | none =>
    let used := entriesOf s.str 6 2
    let free := used.foldl (fun k i => if i = k ∧ bits (s.strW 6 i 2) 31 31 = 1 then k + 1 else k) 0
    if free ≥ 262144 then s
    else mark free (((s.setStr 6 free 0 (mac / 65536)).setStr 6 free 1 (mac % 65536 * 65536 + fid)).setStr 6 free 2
      (2 ^ 31 + port))

/-- Launch time of an entry (R85). -/
def trqTime (s : State) (ticks ofs : Nat) : Nat :=
  (tickStart s ((s.tick.idx : Int) - 1 + ticks) + 65536 * ofs) / 65536 % 2 ^ 32

/-- A timed-release entry enters its queue once its frame is stored (R86, R88). One whose time is past by then counts in TRQ_LATE alone,
however long it waits for the line (DESIGN CHOICE, log entry 116). -/
def trqPlace (s : State) (p : Nat) (f : QFrame) (cue late t : Nat) : State :=
  if cue = 1 then s.setQueue p 8 (trqInsert (s.queue p 8) { f with cue := true, arriving := false })
  else
    let past := isPast t s.tickNs
    let e := { f with cue := false, arriving := false, skip := late == 1, t := t, due := past }
    if !past then s.setQueue p 8 (trqInsert (s.queue p 8) e)
    else if late = 1 ∨ ¬ s.flag (PRT_STAT_LINK p) then addCnt s (PRT_CNT_TRQ_SKIP p) 1
    else addCnt (s.setQueue p 8 (trqInsert (s.queue p 8) e)) (PRT_CNT_TRQ_LATE p) 1

/-- The entry of a stream's frame (R85). The tick in which it leaves the pipeline is that of its end, when it is stored whole (DESIGN
CHOICE, log entry 93). -/
def trqEnter (s : State) (p : Nat) (f : QFrame) (x : Nat × Nat × Nat × Nat) : State :=
  let (cue, late, ticks, ofs) := x
  trqPlace s p f cue late (trqTime s ticks ofs)

/-- A timed-release frame that crosses to another member carries its T, CUE and LATE (R499); `due` marks it. -/
def trqCross (s : State) (p tc id : Nat) (x : Nat × Nat × Nat × Nat) : State :=
  let (cue, late, ticks, ofs) := x
  let t := trqTime s ticks ofs
  s.setQueue p tc ((s.queue p tc).map (fun f =>
    if f.id = id then { f with due := true, cue := cue == 1, skip := late == 1, t := t } else f))

/-- A stored frame has arrived whole in its queues (R76): it may leave from now on. -/
def frameReady (s : State) (id : Nat) (trq : Option (Nat × Nat × Nat × Nat)) (places : List (Nat × Nat)) : State :=
  let s1 := mapFrame s id (fun q => { q with arriving := false })
  match trq with
  | none => s1
  | some x => places.foldl (fun t e =>
      if isUlc t e.1 then trqCross t e.1 e.2 id x else
      match (t.queue e.1 8).find? (fun q => q.id == id) with
      | some f => trqEnter (dropFrom t e.1 8 (fun q => q.id == id)) e.1 f x
      | none => t) s1

/-- The egress copies that were cut through end (R100, R114). -/
def endCuts (s : State) (o : RxOpen) (good : Bool) : State :=
  o.cts.foldl (fun t p =>
    let x := t.port p
    match x.tx with
    | some y =>
      if y.ct && y.id == o.fr.id then
        let t1 := t.setPort p { x with tx := some { y with ct := false, wasCt := good } }
        if good then t1 else addCnt (t1.emit (.stomp p)) (PRT_CNT_CT_STOMP p) 1
      else t
    | none => t) s

/-- The host's copy of a frame (R350). -/
def hostFrame (s : State) (o : RxOpen) (auth : Bool) : HostFrame :=
  ⟨o.fr.bytes, o.port, o.fr.tc, o.handle, o.stamps, o.stamped, auth, o.sec.isSome, s.now⟩

/-- The port an FDB entry names for a frame from port `p`: a group's PORT_A for either of its ports, link-local frames among them (R234;
DEDUCED, log entry 113). -/
def learnPort (s : State) (p : Nat) : Nat := match groupOf s p with | none => p | some r => portA s r

/-- What passes at a good end of a frame that went through stage 6: it is ready, teaches, and goes to the host. -/
def passEnd (s : State) (o : RxOpen) (auth : Bool) : State :=
  let s1 := frameReady s o.fr.id o.trq o.places
  let s2 := if o.learn then learn s1 (beField o.fr.bytes 6 6) (vlanFid s o.fr.vid) (learnPort s o.fr.inPort) else s1
  if o.toHost then toHost s2 (hostFrame s2 o auth) none else s2

/-- Remove a frame from its queues, but for what was already cut through. -/
def failEnd (s : State) (o : RxOpen) : State := dropFrame s o.fr.id

/-- The number a released copy leaves with on each of its ports. -/
def renumber (s : State) (o : RxOpen) (recv : Option Nat) : State :=
  let ps := o.places.map (·.1)
  let (ns, s1) := numbersFor s o recv (beField o.fr.bytes 6 6) ps (linkLocal o.fr.bytes)
  ns.foldl (fun t e => setSeqOn t o.fr.id e.1 e.2) (mapFrame s1 o.fr.id (fun q => { q with held := false }))

/-- The arriving frame of an identity, if it has not ended. -/
def openById (s : State) (id : Nat) : Option (Nat × RxOpen) :=
  s.rxOpen.findSome? (fun e => e.2.bind (fun o => if o.fr.id = id then some (e.1, o) else none))

/-- Replace an arriving frame. -/
def State.setOpen (s : State) (k : Nat) (o : Option RxOpen) : State := { s with rxOpen := tset none s.rxOpen k o }

/-- A resolver of the copies that wait for an instance's frame: instance, port, number, good. -/
abbrev Resolver := State → Nat → Nat → Option Nat → Bool → State

/-- The marks of a frame that has ended on port `p` become final or are removed, and what waits for them is resolved (R230). -/
def endMarks (k : Resolver) (s : State) (p : Nat) (ms : List (Nat × Option Nat)) (good : Bool) : State :=
  ms.foldl (fun t m => k (commitMark t p m.1 m.2 good) m.1 p m.2 good) s

/-- A held copy passes stage 5 with marks `ms`: it enters its queues; if it has ended already, its end takes place now. -/
def releaseHeld (k : Resolver) (s : State) (h : HeldSt) (ms : List (Nat × Option Nat)) : State :=
  match h.ended with
  | some (good, o) => endMarks k (if good then passEnd (renumber s o h.seq) o false else failEnd s o) h.port ms good
  | none =>
    match openById s h.id with
    | none => s
    | some (j, o) => (renumber s o h.seq).setOpen j (some { o with marks := o.marks ++ ms })

/-- Marks a copy holds that goes no further: they stay until its end. -/
def keepMarks (k : Resolver) (s : State) (h : HeldSt) (ms : List (Nat × Option Nat)) (drop : Bool) : State :=
  match h.ended, openById s h.id with
  | some (good, _), _ => endMarks k s h.port ms good
  | none, some (j, o) =>
    let o1 := { o with marks := o.marks ++ ms }
    s.setOpen j (some (if drop then { o1 with places := [], toHost := false, learn := false }.drop else o1))
  | none, none => s

/-- A held copy is discarded: its cells are freed; a copy sent on round an HSR ring stays. -/
def discardHeld (k : Resolver) (s : State) (h : HeldSt) (ms : List (Nat × Option Nat)) : State :=
  let qs := s.queues.map (fun e => (e.1, e.2.filter (fun q => q.id != h.id || q.keep)))
  keepMarks k { s with queues := qs.filter (fun e => e.2 != []) } h ms true

/-- Hold a copy on (R230). -/
def hold (s : State) (h : HeldSt) : State := { s with heldFrames := s.heldFrames ++ [h] }

/-- Go on with a held copy through the instances still to come. An instance that holds it for the first time counts it. -/
def continueHeld (k : Resolver) (s : State) (h : HeldSt) (ms : List (Nat × Option Nat)) (todo : List Nat) : State :=
  match judgeAll s h.port h.seq ms todo with
  | (⟨ms', true, _⟩, s1) => releaseHeld k s1 h ms'
  | (⟨ms', false, none⟩, s1) => discardHeld k s1 h ms'
  | (⟨ms', false, some (i, q, j, rest)⟩, s1) =>
    let s2 := if i = h.inst then s1 else frCount s1 i 9 1
    hold (keepMarks k s2 h ms' false) { h with inst := i, onPort := q, judge := j, todo := rest }

/-- The pending frame of a number ended bad: the first copy held for it passes, its own pass pending, and the others wait for its
end (R230). -/
def passFirst (k : Resolver) (s : State) (i n : Nat) : List HeldSt → State
  | [] => s
  | h :: rest =>
    match (s.rec_ i).pend.find? (fun e => e.2 == some n) with
    | some (q, _) => (h :: rest).foldl (fun t x => hold t { x with onPort := q }) s
    | none =>
      let r := s.rec_ i
      let b := (instSeq s i + 65536 - n) % 65536
      let s1 := s.setRec i { r with hist := if b < 128 then r.hist ||| 2 ^ b else r.hist }
      let s2 := rest.foldl (fun t x => hold t { x with onPort := h.port }) s1
      continueHeld k (addMark s2 i h.port (some n)) h [(i, some n)] h.todo

/-- The copies that waited for the frame of instance `i` with number `n` on port `p` (R230): copies of the number first, then frames
that are yet to be judged. The fuel bounds chains of copies that have ended themselves. -/
def resolveAll : Nat → Resolver
  | 0, s, _, _, _, _ => s
  | f + 1, s, i, p, n, good =>
    let copy : HeldSt → Bool := fun h => h.inst == i && h.onPort == p && !h.judge && n.isSome && h.seq == n
    let next : HeldSt → Bool := fun h => h.inst == i && h.onPort == p && h.judge
    let cs := s.heldFrames.filter copy
    let js := s.heldFrames.filter next
    let s1 := { s with heldFrames := s.heldFrames.filter (fun h => !copy h && !next h) }
    let s2 := if good then cs.foldl (fun t h => discardHeld (resolveAll f) (frCount t i 1 1) h []) s1
      else passFirst (resolveAll f) s1 i (n.getD 0) cs
    js.foldl (fun t h => continueHeld (resolveAll f) t h [] (h.inst :: h.todo)) s2

/-- The resolver with fuel for every copy held. -/
def resolve : Resolver := fun s => resolveAll (s.heldFrames.length + 1) s

/-- Whether a frame is held. -/
def isHeld (s : State) (id : Nat) : Bool := s.heldFrames.any (fun h => h.id == id)

/-- A held frame's end: its copies keep their places until stage 5 has decided (R230). -/
def endHeld (s : State) (o : RxOpen) (good : Bool) : State :=
  let t := { s with heldFrames := s.heldFrames.map (fun h => if h.id = o.fr.id then { h with ended := some (good, o) } else h) }
  if good then frameReady t o.fr.id none [] else failEnd t o

/-- A frame of the pipeline ends bad (R77, R100, R230): its stored copies go, its cut-through copies end with an inverted FCS. -/
def finishBad (s : State) (o : RxOpen) : State :=
  let s1 := endCuts s o false
  endMarks resolve (if isHeld s1 o.fr.id then endHeld s1 o false else failEnd s1 o) o.port o.marks false

/-- Key of a frame that arrives at a port: express or preemptable MAC (R98). -/
def rxK (p : Nat) (preempt : Bool) : Nat := 2 * p + preempt.toNat

/-- An arriving frame. -/
def State.arriving (s : State) (k : Nat) : Option RxOpen := tget none s.rxOpen k

/-- The frame open at a MAC ends bad before its last byte, counted in the port counter at `cnt`. -/
def cutOne (s : State) (p : Nat) (preempt : Bool) (cnt : Nat) : State :=
  match s.arriving (rxK p preempt) with
  | none => s
  | some o =>
    let s1 := addCnt (s.setOpen (rxK p preempt) none) cnt 1
    if o.blocked then s1 else finishBad s1 o

/-- The frame open at a MAC ends bad before its last byte (R98, R248): a preemptable one counts in FRAG_ERR. -/
def cutArrival (s : State) (p : Nat) (preempt : Bool) : State :=
  cutOne s p preempt (if preempt then PRT_CNT_FRAG_ERR p else PRT_CNT_RX_BAD p)

/-- What arrives at a port whose guardian cuts it (R252, R273): either MAC's frame ends as received with a bad FCS. -/
def cutGuarded (s : State) (p : Nat) : State := cutOne (cutOne s p false (PRT_CNT_RX_BAD p)) p true (PRT_CNT_RX_BAD p)

/-- A pipeline loses the frame that arrives under a key (R433, R440): it ends bad for all but its MAC. -/
def loseOpen (s : State) (k : Nat) : State :=
  match s.arriving k with
  | none => s
  | some o =>
    if o.blocked then s
    else (finishBad s o).setOpen k (some { o with
      dropped := true, places := [], cts := [], marks := [], insts := [], toHost := false, learn := false, ptp := none, late := false })

end Sys2Proof.Machine
end

