-- ==== Sys2Proof/Machine/Units.lean ====
section
/-! DEFINITION. What happens to ports, lanes and schedule processors as units: link changes, path health, retirement and
retreat (R43 to R60, R88, R231), fail-safe gates (R84, R95), pending trap causes (R137). -/

namespace Sys2Proof.Machine

/-! ### Compound nodes (R493, R501, R502, R511) -/

/-- Depth `c` is in use (R511). -/
def cnOn (s : State) (c : Nat) : Bool := s.flag (ULC_CN_CTL_EN c)

/-- The device's member number at a depth. -/
def cnMe (s : State) (c : Nat) : Nat := s.get (ULC_CN_CTL_ME c)

/-- Whether the device leads at every depth in use (R493): then it is the time leader. -/
def timeLeader (s : State) : Bool :=
  (List.range 4).all (fun c => !cnOn s c || s.get (ULC_CN_STAT_LEADER c) == cnMe s c)

/-- The outermost depth at which another member leads (R502). -/
def followDepth (s : State) : Option Nat :=
  [3, 2, 1, 0].find? (fun c => cnOn s c && s.get (ULC_CN_STAT_LEADER c) != cnMe s c)

/-- Whether the device follows another member in time base `n` (R502): its tick's time base, another member being the time
leader. -/
def followsTick (s : State) (n : Nat) : Bool := n == s.tickTb && (followDepth s).isSome

/-- Whether cold start runs on a time base (R256, R501). -/
def csOn (s : State) (n : Nat) : Bool := s.flag (SYN_CS_CTL_EN n) && !followsTick s n

/-- Whether the guardians wait for their time base (R249): cold start has not reached Sync; on a follower, SYNC is 0 (R502). -/
def grdWaits (s : State) : Bool :=
  let n := s.tickTb
  if followsTick s n then !s.flag (SYN_STAT_SYNC n) else s.flag (SYN_CS_CTL_EN n) && s.get (SYN_CS_STAT_STATE n) != 5

/-- Every guardian in Enforce returns to Startup (R249). -/
def guardsToStartup (s : State) : State :=
  (List.range 128).foldl (fun t p =>
    if t.flag (PRT_GRD_CTL_EN p) ∧ t.get (PRT_GRD_STAT_STATE p) = 2 then t.set (PRT_GRD_STAT_STATE p) 1 else t) s

/-! ### Schedule processors -/

/-- A schedule processor. -/
def State.sp (s : State) (g : Nat) : Sp := tget Sp.rst s.sps g
/-- Replace a schedule processor. -/
def State.setSp (s : State) (g : Nat) (x : Sp) : State := { s with sps := tset Sp.rst s.sps g x }

/-- Raise a deferrable trap cause (R137, R138): it stays pending until taken. -/
def pendTrap (s : State) (g v : Nat) : State := s.set (SP_TRAP_PEND g) (s.get (SP_TRAP_PEND g) ||| 2 ^ v)

/-- Stream gates whose OWNER is processor `g`. -/
def gatesOwned (s : State) (g : Nat) : List Nat :=
  (entriesOf s.str 3 0).filter (fun i => bits (s.strW 3 i 0) 23 20 == g)

/-- The fail-safe state of a port group (R84, R95, R141, R161): SAFE masks, SAFE_OPEN, no preemption hold. -/
def gatesSafe (s : State) (g : Nat) : State :=
  let s1 := (List.range 8).foldl (fun t i =>
    let p := 8 * g + i
    let t1 := (t.set (PRT_GATE_OPEN p) (t.get (PRT_GATE_SAFE p))).set (PRT_MM_HOLD p) 0
    t1.setPort p { t1.port p with safe := true }) s
  (gatesOwned s1 g).foldl (fun t i => t.setStr 3 i 0 (putBits (t.strW 3 i 0) 31 31 (bits (t.strW 3 i 0) 29 29))) s1

/-! ### Port modes (R43 to R49) -/

/-- Lanes a mode uses. -/
def modeLanes : Nat → Nat
  | 0 => 0
  | 8 => 2
  | 9 => 4
  | 10 => 4
  | 11 => 4
  | 12 => 4
  | m => if m ≤ 7 then 1 else 0

/-- The lane mask of a mode at LSEL (R43, R44). -/
def modeMask (mode lsel : Nat) : Nat :=
  match modeLanes mode with
  | 0 => 0
  | 1 => 2 ^ lsel
  | 2 => 3 * 2 ^ lsel
  | _ => 15

/-- Whether a mode of port `p` runs Clause 73 (R43, R46). -/
def usesAn (s : State) (p mode : Nat) : Bool :=
  mode == 6 || mode == 8 || mode == 9 || mode == 10 || (1 ≤ mode && mode ≤ 5 && s.flag (PRT_MODE_AN_EN p))

/-- LN_STAT.RATE of a mode (R70). -/
def modeRate (mode : Nat) : Nat :=
  if mode ≤ 1 then 0 else if mode ≤ 4 then 1 else if mode = 5 ∨ mode = 9 then 2 else 3

/-- Picoseconds as 1/256 ns, rounded (R48, R49). -/
def ps256 (ps : Nat) : Nat := (ps * 256 + 500) / 1000

/-- fix_rx and fix_tx of a mode in ps (R49). -/
def modeFix : Nat → Nat × Nat
  | 1 => (9200, 6000)
  | 2 => (13600, 8400)
  | 3 => (95200, 12100)
  | 4 => (236000, 14300)
  | 5 => (141500, 18200)
  | 6 => (88600, 17400)
  | 7 => (90100, 18000)
  | 8 => (96300, 22500)
  | 9 => (101700, 24000)
  | 10 => (132400, 57900)
  | 11 => (134000, 58600)
  | 12 => (132400, 57900)
  | _ => (0, 0)

/-- A lane that is off detects nothing (R44, R458): SIG_DET, CDR_LOCK, ADAPT and RATE read 0. -/
def laneDark (s : State) (l : Nat) : State :=
  (((s.set (LN_STAT_SIG_DET l) 0).set (LN_STAT_CDR_LOCK l) 0).set (LN_STAT_ADAPT l) 0).set (LN_STAT_RATE l) 0

/-- The LIVE bit of a lane's WATCH source (R16, R52, R58): the last sample judged was bad, the last interval judged was bad, or
signal or lock is lost. -/
def watchLive (s : State) (l : Nat) : State :=
  let x := s.lane l
  setLive s (laneK l) 0 ((x.sampled && !x.healthy) || x.errBad || x.lost)

/-- The LIVE bits of a lane that enters or leaves the active set (R16, R431): LOS is a condition of an active lane, and WATCH of a lane
that has left stays as it was (R58). -/
def liveActive (s : State) (l : Nat) (on : Bool) : State :=
  if on then watchLive (setLive s (laneK l) 1 (s.lane l).lost) l else setLive s (laneK l) 1 false

/-- Power state of a unit (R17). -/
def curPs (s : State) (k : Nat) : Nat := s.get (SHELL_PWR_CUR (shellBase k))

/-- The state a unit is on its way to. -/
def State.toPs (s : State) (k : Nat) : Option Nat := tget none s.pwr k

/-- Set the active set of a port: PRT_STAT.ACT_LANES, the lanes' LN_STAT, and their power floors (R460: a lane outside the
active set is in PS4, one of a port in PS3 or PS4 as the port, another in PS0). -/
def setActive (s : State) (p mode mask : Nat) : State :=
  (List.range 4).foldl (fun t i =>
    let l := 4 * p + i
    let on := mask / 2 ^ i % 2
    let t0 := if t.get (LN_STAT_ACTIVE l) = on then t else liveActive (t.set (LN_STAT_ACTIVE l) on) l (on == 1)
    let t1 := if on = 1 then t0 else laneDark t0 l
    let t2 := t1.set (SHELL_PWR_CUR (shellBase (laneK l))) (if on = 0 then 4 else if 3 ≤ curPs s (portK p) then curPs s (portK p) else 0)
    if on = 1 then t2.set (LN_STAT_RATE l) (modeRate mode) else t2)
    (s.set (PRT_STAT_ACT_LANES p) mask)

/-- A trap cause for a change of LINK or CUR_MODE of a port (R137). -/
def linkTrap (s : State) (p : Nat) : State := pendTrap s (p / 8) 7

/-- The lanes of a port's active set. -/
def activeLanes (s : State) (p : Nat) : List Nat :=
  ((List.range 4).map (4 * p + ·)).filter (fun l => s.flag (LN_STAT_ACTIVE l))

/-- A linked port (R460). -/
def linked (s : State) (p : Nat) : Bool := 1 ≤ s.get (PRT_STAT_STATE p) && s.get (PRT_STAT_STATE p) ≤ 4

/-- SHELL_PWR.BUSY of a unit, and with a port's that of the lanes which move with it (R463, R464). -/
def showBusy (s : State) (k : Nat) (lanes busy : Bool) : State :=
  (if lanes && levelOf k == 2 then activeLanes s (k - 21) else []).foldl (fun t l => t.setB (SHELL_PWR_BUSY (shellBase (laneK l))) busy)
    (s.setB (SHELL_PWR_BUSY (shellBase k)) busy)

/-- A transition of a unit to a state begins, or turns round; into and out of PS3 a port takes its active lanes along. -/
def psBegin (s : State) (k x : Nat) : State :=
  { showBusy s k (decide (3 ≤ max x (curPs s k))) true with pwr := tset none s.pwr k (some x) }

/-- A unit and those above it, the device first. -/
def withParents (k : Nat) : List Nat :=
  [parentOf (parentOf (parentOf (parentOf k))), parentOf (parentOf (parentOf k)), parentOf (parentOf k), parentOf k, k].eraseDups

/-- A demand on a unit and those above it (R463, R464): each that is not in PS0, or is leaving it, begins its wake. -/
def demand (s : State) (k : Nat) : State :=
  (withParents k).foldl (fun t u => if curPs t u = 0 ∧ t.toPs u = none then t else psBegin t u 0) s

/-- Whether the head of the timed-release queue of a port can start in the clock in which it falls due (R84, R87). -/
def trqClear (s : State) (p : Nat) : Bool :=
  s.flag (PRT_STAT_LINK p) && !(s.port p).memHalt && (!(s.port p).safe || s.flag (PRT_GATE_TRQ_SAFE p)) &&
  (inFlight s p).isNone && curPs s (portK p) == 0 && !(s.queue p 8).any (fun f => f.due && !f.cue && !f.arriving)

/-- A unit is in a state at once. -/
def psNow (s : State) (k x : Nat) : State :=
  { (showBusy s k true false).set (SHELL_PWR_CUR (shellBase k)) x with pwr := tset none s.pwr k none }

/-- Bring a unit and those above it to PS0 (R463, R464). -/
def wakeUp (s : State) (k : Nat) : State := (withParents k).foldl (fun t u => psNow t u 0) s

/-- Whether the reference clock of a port's group is lost (R528). -/
def clockLost (s : State) (p : Nat) : Bool := tget false s.sdLost (p / 8)

/-- The FEC ability a mode's base page advertises (R43, R46): 0 none, 1 Clause 74, 2 Clause 108, 3 RS(544,514). -/
def modeFec (m : Nat) : Nat := if m ≤ 2 then 0 else if m = 3 then 1 else if m = 4 then 2 else 3

/-- The lowest lane of a mask. -/
def lowestLane (m : Nat) : Nat := if m % 2 = 1 then 0 else if m % 4 = 2 then 1 else if m % 8 = 4 then 2 else 3

/-- A port runs Clause 73 on the lowest lane of its active set, advertising its mode for its medium alone (R46). -/
def anBegin (s : State) (p mode mask : Nat) : State :=
  if usesAn s p mode && !clockLost s p then
    s.emit (.anPage p (4 * p + lowestLane mask) mode (s.get (PRT_MODE_MEDIUM p)) (modeFec mode))
  else s

/-- A port begins to bring its link up in a mode on a set of lanes (R46, R482, R539): STATE 1. It is linked from now on (R460). Without the
reference clock of its group it stays there (R528). -/
def portStart (s : State) (p mode mask : Nat) : State :=
  let s1 := setActive (((if mode = 0 then s else wakeUp s (portK p)).set (PRT_STAT_CUR_MODE p) mode).set (PRT_STAT_STATE p)
    (if mode = 0 then stOff else stAn)) p mode mask
  let s2 := anBegin { s1 with quiet := tset 0 s1.quiet p s1.now } p mode mask
  if s.get (PRT_STAT_CUR_MODE p) = mode then s2 else linkTrap s2 p

/-- The keys of a port. -/
def State.key (s : State) (p : Nat) : KeySt := tget KeySt.rst s.keys p
/-- Replace the keys of a port. -/
def State.setKey (s : State) (p : Nat) (k : KeySt) : State := { s with keys := tset KeySt.rst s.keys p k }

/-- Whether a port runs the pair handshake (R407, R417). -/
def pairs (s : State) (p : Nat) : Bool := s.flag (PRT_SEC_CFG_PAIR_EN p) && !s.sec.hsOff

/-- A port's keys and associations are removed (R397, R417, R448); a Ulicon link without them carries nothing (R495). -/
def secClear (s : State) (p : Nat) : State :=
  let s1 := ((s.set (PRT_ULC_STAT_UP p) 0).setW (PRT_SEC_STAT p) 0).set (PRT_SEC_STAT_PAIR p) (if pairs s p then 1 else 0)
  { s1.setKey p KeySt.rst with rxSas := tset [] s1.rxSas p [], txPn := tset 0 s1.txPn p 0 }

/-- The frame a port is sending ends with a bad FCS (R58, R114): a cut-through one counts; a carafe copy still in passage is cut short
when it has passed (R201, R220). -/
def cutSending (s : State) (p : Nat) : State :=
  match inFlight s p with
  | none => s
  | some t =>
    if t.fr.isNone && s.copies.any (fun e => e.2.any (fun x => x.id == t.id && x.loop.isSome)) then
      { s with copies := s.copies.map (fun e =>
          (e.1, e.2.map (fun x => if x.id = t.id then { x with broken := true } else x))) }
    else if t.ct || t.wasCt then addCnt (s.emit (.stomp p)) (PRT_CNT_CT_STOMP p) 1
    else s.emit (.stomp p)

/-- The link of a port goes down (R58, R114, R231, R248): the transmitter stops, a frame in transmission ends with a bad FCS, frames in
arrival end bad, the fixed corrections no longer apply (PRT_TS_FIX reads 0 while the link is down: DEDUCED, log entry 94), preemption
must be verified anew, a pair handshake is abandoned (R410), path health falls. -/
def linkDrop (s : State) (p : Nat) : State :=
  if s.get (PRT_STAT_STATE p) ≠ stUp ∧ s.get (PRT_STAT_LINK p) = 0 then s
  else
    let s0 := cutArrival (cutArrival (cutSending s p) p false) p true
    let x := s0.port p
    let k := s0.key p
    let s1 := (s0.setPort p { x with tx := none, rest := none, preempt := false, tries := 0 }).setKey p
      { k with hs1 := none, hs1Old := [], eph := ([], []) }
    let s2 := ((((s1.set (PRT_STAT_LINK p) 0).set (PRT_ULC_STAT_UP p) 0).set (PRT_TS_FIX_FIX_RX p) 0).set (PRT_TS_FIX_FIX_TX p) 0).set
      (PRT_MM_VSTAT p) 0
    pathsDown (linkTrap s2 p) p

/-! ### Retirement and retreat (R53 to R60) -/

/-- The port a lane belongs to (R2). -/
def laneP (l : Nat) : Nat := l / 4

/-- Whether a lane can be used: neither retired nor out for a contained SD_MEM. -/
def laneFit (s : State) (l : Nat) : Bool := !s.flag (LN_STAT_RETIRED l) && !(s.lane l).out

/-- A set of lanes is healthy (R54). A lane that has never been sampled has no last sample, and is not healthy (DESIGN CHOICE, log
entry 87). -/
def setHealthy (s : State) (p mask : Nat) : Bool :=
  mask != 0 && (List.range 4).all (fun i =>
    mask / 2 ^ i % 2 == 0 || (laneFit s (4 * p + i) && (s.lane (4 * p + i)).healthy))

/-- Whether retreat entry `i` is valid (R55). -/
def rtrValid (s : State) (p i : Nat) : Bool :=
  let fm := s.get (PRT_RTR_FROM p i)
  let to_ := s.get (PRT_RTR_TO p i)
  s.flag (PRT_RTR_VALID p i) && usesAn s p fm && usesAn s p to_ && modeLanes to_ < modeLanes fm &&
  (if s.flag (PRT_RTR_BEST p i) then modeLanes to_ == 1
   else popCount (s.get (PRT_RTR_SETA p i)) == modeLanes to_ &&
     (s.get (PRT_RTR_SETB p i) == 0 || popCount (s.get (PRT_RTR_SETB p i)) == modeLanes to_))

/-- The fit lane with the greatest vertical margin at its last sample, lowest lane on a tie (R54). -/
def bestLane (s : State) (p : Nat) : Option Nat :=
  (List.range 4).foldl (fun b i =>
    if !laneFit s (4 * p + i) then b
    else match b with
      | none => some i
      | some j => if s.get (LN_MARGIN_VMARGIN (4 * p + i)) > s.get (LN_MARGIN_VMARGIN (4 * p + j)) then some i else b)
    none

/-- The target of a retreat: mode and lane set (R54). -/
def rtrTarget (s : State) (p : Nat) : Option (Nat × Nat) :=
  match (List.range 4).find? (fun i => rtrValid s p i && s.get (PRT_RTR_FROM p i) == s.get (PRT_STAT_CUR_MODE p)) with
  | none => none
  | some i =>
    let sets := if s.flag (PRT_RTR_BEST p i) then
        (match bestLane s p with | some j => [2 ^ j] | none => [])
      else [s.get (PRT_RTR_SETA p i), s.get (PRT_RTR_SETB p i)]
    (sets.find? (setHealthy s p)).map (fun m => (s.get (PRT_RTR_TO p i), m))

/-- Retrains of a port and its lanes are over (R441). -/
def retrainOver (s : State) (p : Nat) : State :=
  (List.range 4).foldl (fun t i => t.react (laneK (4 * p + i)) 1 false) (s.react (portK p) 1 false)

/-- Whether what went out of a port went out in this clock (R60, R457). -/
def leftNow (s : State) (p : Nat) : Option LeaveSt := (s.port p).was.filter (fun w => w.clock == s.now)

/-- Note what a port is before something takes its lanes, or the port itself, out; once a clock. -/
def leaveMark (s : State) (p : Nat) : State :=
  if (leftNow s p).isSome then s
  else
    let w : LeaveSt := {
      clock := s.now, mode := s.get (PRT_STAT_CUR_MODE p), act := s.get (PRT_STAT_ACT_LANES p), left := 0
      st := s.get (PRT_STAT_STATE p), follow := s.get (PRT_STAT_RTR_FOLLOW p), grd := s.get (PRT_GRD_STAT_STATE p)
      retr := (s.port p).retreating, stat := (List.range 4).map (fun i => rword s.regs (LN_STAT (4 * p + i)))
      retreat := s.src (portK p) 2, retire := s.src (portK p) 3, page := none, gone := [] }
    s.setPort p { s.port p with was := some w }

/-- Change the note of this clock. -/
def leaveNote (s : State) (p : Nat) (f : LeaveSt → LeaveSt) : State :=
  match leftNow s p with
  | some w => s.setPort p { s.port p with was := some (f w) }
  | none => s

/-- Queues of a port are emptied: the note of this clock keeps them. -/
def keepQueue (s : State) (p tc : Nat) : State :=
  if s.queue p tc = [] then s else leaveNote s p (fun w => { w with gone := (tc, s.queue p tc) :: w.gone })

/-- A port is retired (R54, R57, R68, R88, R432): STATE 5, its timed-release queue skipped. CUR_MODE and ACT_LANES keep what they held (DESIGN
CHOICE, log entry 83). -/
def portOut (s : State) (p : Nat) : State :=
  let s1 := retrainOver (linkDrop s p) p
  let x := s1.port p
  let s2 := (s1.setPort p { x with retreating := false }).set (PRT_STAT_STATE p) stRetired
  skipEntries (keepQueue s2 p 8) p (fun _ => true)

/-- Retire a port by R54 or R57 (R432): RETIRE latched, the reaction in progress until its unit reset. -/
def portRetire (s : State) (p : Nat) : State :=
  (note (portOut s p) (portK p) 3 .cont).react (portK p) 3 true

/-- Begin a retreat to a mode and set (R54, R58). -/
def portRetreat (s : State) (p mode mask : Nat) : State :=
  let s1 := portStart (linkDrop s p) p mode mask
  let s2 := s1.setPort p { s1.port p with retreating := true, retreatAt := s1.now }
  note (s2.set (PRT_STAT_RTR_FOLLOW p) 0) (portK p) 2 .corr

/-- A lane has left a port's active set (R54, R431): the port retreats or is retired. -/
def portLoses (s : State) (p : Nat) : State :=
  if s.get (PRT_STAT_STATE p) = stRetired ∨ s.get (PRT_STAT_STATE p) = stOff then s
  else if !s.flag (PRT_MODE_RTR_EN p) then portRetire s p
  else match rtrTarget s p with
    | some (m, k) => portRetreat s p m k
    | none => portRetire s p

/-- PRT_STAT.STATE as software and programs see it (R58, R62): 4 in the base clock in which a retreat of this side began, and what
the port is doing otherwise (log entry 91). -/
def shownState (s : State) (p : Nat) : Nat :=
  let x := s.port p
  if x.retreating && x.retreatAt == s.now && s.get (PRT_STAT_STATE p) == stAn && !s.flag (PRT_STAT_RTR_FOLLOW p) then stRetreat
  else s.get (PRT_STAT_STATE p)

/-- The queues that went with a port come back. A descriptor whose frame was among them has completed already. -/
def queuesBack (s : State) (p : Nat) (gone : List (Nat × List QFrame)) : State :=
  gone.foldl (fun t e =>
    addCnt (t.setQueue p e.1 (e.2.map (fun f => { f with host := none }) ++ t.queue p e.1))
      (if e.1 = 8 then PRT_CNT_TRQ_SKIP p else PRT_CNT_DROP_BUF p) (2 ^ 64 - e.2.length)) s

/-- A port as the note of this clock has it, but for its link, which is down, and for the lanes that stay retired. -/
def leaveUndo (s : State) (p : Nat) (w : LeaveSt) : State :=
  let s1 := (List.range 4).foldl (fun t i =>
    let r := t.get (LN_STAT_RETIRED (4 * p + i))
    (t.setW (LN_STAT (4 * p + i)) (w.stat.getD i 0)).set (LN_STAT_RETIRED (4 * p + i)) r) s
  let s2 := ((s1.set (PRT_STAT_CUR_MODE p) w.mode).set (PRT_STAT_RTR_FOLLOW p) w.follow).set
    (PRT_STAT_STATE p) (if w.st = stUp then stAn else w.st)
  let s3 := { s2 with
    srcs := tset Cls.none (tset Cls.none s2.srcs (srcK (portK p) 2) w.retreat) (srcK (portK p) 3) w.retire
    out := match w.page with | some e => (s2.out.reverse.erase e).reverse | none => s2.out }
  queuesBack ((s3.react (portK p) 3 false).setPort p { s3.port p with
    retreating := w.retr, was := some { w with page := none, gone := [] } }) p w.gone

/-- A port without the lanes that left in this clock: one lookup from what it was before (R54, R60). With all of them back, its link,
which went down, restarts. -/
def leaveJudge (s : State) (p : Nat) (w : LeaveSt) (left : Nat) : State :=
  let s1 := leaveNote (leaveUndo s p w) p (fun x => { x with left := left })
  let off := w.st = stRetired ∨ w.st = stOff
  if left = 0 ∧ ¬ off then portStart s1 p w.mode w.act
  else
    let n := s1.out.length
    let s2 := portLoses (setActive s1 p w.mode (w.act - left)) p
    leaveNote s2 p (fun x => { x with page := (s2.out.drop n).find? (fun e => match e with | .anPage .. => true | _ => false) })

/-- Take lanes of one port out of the active set and let the port react once: what leaves in one clock is one retirement with one
table lookup, from what the port was before (R54, R60). -/
def lanesLeave (s : State) (p mask : Nat) : State :=
  let s0 := leaveMark s p
  match leftNow s0 p with
  | none => s
  | some w =>
    let hit := (w.act - w.left) &&& mask
    if hit = 0 then s else leaveJudge s0 p w (w.left + hit)

/-- Whether a lane's detectors count (R430): it is in its port's active set, or was until others left it in this clock (R60). -/
def laneCounts (s : State) (l : Nat) : Bool :=
  s.flag (LN_STAT_ACTIVE l) ||
  (match leftNow s (laneP l) with | some w => (w.act - w.left).testBit (l % 4) | none => false)

/-- Retire lanes of one port (R53): the mask counts from lane 4p. -/
def lanesRetire (s : State) (p mask : Nat) : State :=
  let s1 := (List.range 4).foldl (fun t i =>
    if mask / 2 ^ i % 2 = 0 then t
    else ((t.set (LN_STAT_RETIRED (4 * p + i)) 1).set (PRT_STAT_RET_LANES p)
      (t.get (PRT_STAT_RET_LANES p) ||| 2 ^ i)).react (laneK (4 * p + i)) 0 true) s
  lanesLeave s1 p mask

/-- A lane retired in this clock is in service after all, and its port does not react to it (R60, R457). -/
def laneBack (s : State) (l : Nat) : State :=
  let p := laneP l
  match leftNow s p with
  | some w =>
    if s.flag (LN_STAT_RETIRED l) ∧ w.left.testBit (l % 4) then
      let s1 := (s.set (LN_STAT_RETIRED l) 0).set (PRT_STAT_RET_LANES p)
        (s.get (PRT_STAT_RET_LANES p) - s.get (PRT_STAT_RET_LANES p) / 2 ^ (l % 4) % 2 * 2 ^ (l % 4))
      leaveJudge (s1.react (laneK l) 0 false) p w (w.left - 2 ^ (l % 4))
    else s
  | none => s

/-- A port that a severe source retired in this clock is in service after all (R457): what its queues held is back, and its link, which
went down, restarts. -/
def portBack (s : State) (p : Nat) : State :=
  match leftNow s p with
  | some w => leaveJudge (s.set (PRT_GRD_STAT_STATE p) w.grd) p w 0
  | none => s

/-- The link of a port comes up (R47, R49, R58, R96, R285, R441, R539). -/
def linkRise (s : State) (p : Nat) : State :=
  let m := s.get (PRT_STAT_CUR_MODE p)
  let (fr, ft) := modeFix m
  let s1 := (((s.set (PRT_STAT_LINK p) 1).set (PRT_STAT_STATE p) stUp).set (PRT_TS_FIX_FIX_RX p) (ps256 fr)).set
    (PRT_TS_FIX_FIX_TX p) (ps256 ft)
  let x := s1.port p
  let s2 := if x.retreating then s1.incW (PRT_STAT_RTR_STEP p) else s1
  let mm := s.flag (PRT_MM_MM_EN p)
  let vd := s.flag (PRT_MM_VERIFY_DIS p)
  let s3 := s2.setPort p { x with retreating := false, upAt := s.now, verAt := s.now, preempt := mm && vd, tries := 0 }
  let s4 := s3.set (PRT_MM_VSTAT p) (if mm && !vd then 1 else 0)
  pathsUp (linkTrap (retrainOver s4 p) p) p

end Sys2Proof.Machine
end

