-- ==== Sys2Proof/Machine/Resets.lean ====
section
/-! DEFINITION. Unit resets: what they do to the shells (R19 to R22), to the blocks a unit owns (R440), their running
state and shadows (R442), and the end of a reset (R142, R439). -/

namespace Sys2Proof.Machine

/-- The offsets of the port registers a unit reset of the port clears: the counters of R68, R113, R246, R265 and
R426. -/
def portCounters (p : Nat) : List Nat :=
  [PRT_PCS_ERR p, PRT_RED_CNT p, PRT_GRD_CNT0 p, PRT_GRD_CNT1 p, PRT_GRD_CNT2 p, PRT_SEC_ICV p, PRT_SEC_NOSA p,
   PRT_SEC_UNPROT p, PRT_SEC_REPL p, PRT_SEC_KEYS p] ++
  (List.range 30).map (fun i => PRT_CNT_RX_FRAMES p + 4 * i)

/-- Clear whole registers. -/
def zeroRegs (s : State) (offs : List Nat) : State :=
  offs.foldl (fun t o => t.setW o 0) s

/-- R440, lane: the SerDes lane is re-initialised and returns to service. LN_MARGIN and what the last sample met stay, and WATCH is
judged anew (DESIGN CHOICE, log entry 89). -/
def laneReset (s : State) (l : Nat) : State :=
  let p := laneP l
  let s1 := (s.set (LN_STAT_RETIRED l) 0).set (LN_ERR_COUNT l) 0
  let s2 := s1.set (PRT_STAT_RET_LANES p) (putBits (s1.get (PRT_STAT_RET_LANES p)) (l % 4) (l % 4) 0)
  setLive (s2.setLane l { s2.lane l with out := false, errBad := false }) (laneK l) 0 false

/-- The guardian after a unit reset of its port (R253, R255): Startup where cold start is enabled on the tick's time base and not
yet in Sync, else Enforce; Off stays. -/
def guardianReset (s : State) (p : Nat) : State :=
  if !s.flag (PRT_GRD_CTL_EN p) || s.get (PRT_GRD_STAT_STATE p) == 0 then s
  else
    { s.set (PRT_GRD_STAT_STATE p) (if grdWaits s then 1 else 2) with grds := tset GrdSt.rst s.grds p GrdSt.rst }

/-- R440, port: the link goes down, the timed-release queue is emptied, counters clear, the memory halt ends, keys are removed
(R397). During the reset STATE reads 0; RTR_FOLLOW clears with RTR_STEP (DESIGN CHOICE, log entry 90). -/
def portReset (s : State) (p : Nat) : State :=
  let s1 := (linkDrop s p).set (PRT_STAT_STATE p) stOff
  let s2 := loseFrom s1 p 8 (fun _ => true)
  let s3 := zeroRegs s2 (portCounters p)
  let s4 := s3.setPort p { s3.port p with memHalt := false, retreating := false, was := none }
  let s5 := ((s4.set (PRT_STAT_RTR_STEP p) 0).set (PRT_STAT_RTR_FOLLOW p) 0).set (PRT_ULC_STAT_RELAYED p) 0
  guardianReset (secClear { s5 with
    rxOpen := tclear s5.rxOpen (fun k => k / 2 == p)
    ctrHi := tclear s5.ctrHi (fun k => k / 16 == p) } p) p

/-- Every frame inside pipeline `g` is dropped (R433, R440): it ends bad for all but its MAC. -/
def groupLoses (s : State) (g : Nat) : State :=
  ((s.rxOpen.map (·.1)).filter (fun k => k / 16 == g)).foldl loseOpen s

/-- R440 and R142, port group: frames in the pipeline are dropped, and end bad for what stage 5 has judged (R230); the processor's state returns to power-on values except
table memory; SP_CNT clears; stream gates take SAFE_OPEN. SP_TRAP.PEND and SP_HOSTREQ.REQ clear too (DESIGN CHOICE, log entry 117). -/
def groupReset (s : State) (g : Nat) : State :=
  let s1 := gatesSafe s g
  let s2 := ((s1.setSp g { Sp.rst with run := .reload, csEnd := (s1.sp g).csEnd }).set (SP_TRAP_PEND g) 0).set (SP_HOSTREQ_REQ g) 0
  let s3 := zeroRegs s2 [SP_CNT g, SP_TF_CTL g, SP_TF_W g 0, SP_TF_W g 1, SP_TF_W g 2, SP_TF_W g 3]
  groupLoses s3 g

/-- R440, slice: the buffer is emptied with every queue of its 32 ports, and its mesh links carry again. -/
def sliceReset (s : State) (i : Nat) : State :=
  hostsLost { s with
      queues := tclear s.queues (fun k => k / 512 == i)
      meshOff := s.meshOff - s.meshOff / 2 ^ (4 * i) % 16 * 2 ^ (4 * i) }
    ((s.queues.filter (fun e => e.1 / 512 == i)).flatMap (·.2))

/-- R440, device: carafe merge images, head results and counters clear (R213, R218, R219), and DUP_RG_CNT (R244). -/
def deviceReset (s : State) : State :=
  let s1 := zeroRegs s ((List.range 64).flatMap (fun c =>
    [CRF_CAR_CNT0 c, CRF_CAR_CNT1 c, CRF_ST_CNT0 c, CRF_ST_CNT1 c, CRF_HD_STAT c, CRF_HD_TRIP c 0, CRF_HD_TRIP c 1,
     CRF_HD_LINK c 0, CRF_HD_LINK c 1, CRF_HD_ASYM c, CRF_HD_CNT c, CRF_HD_CNT2 c]))
  let s2 := zeroRegs s1 ((List.range 16).map DUP_RG_CNT)
  { s2 with
    mem := tclear s2.mem (fun a => 0x6000000 ≤ a && a < 0x6100000)
    cars := s2.cars.map (fun e => (e.1, { e.2 with cleared := true })) }

/-- What a unit reset does to the blocks the unit owns itself (R440). -/
def blockReset (s : State) (k : Nat) : State :=
  match levelOf k with
  | 1 => laneReset s (k - 149)
  | 2 => portReset s (k - 21)
  | 3 => groupReset s (k - 5)
  | 4 => sliceReset s (k - 1)
  | _ => deviceReset s

/-- A unit's shell at the start of a reset (R20, R21, R437): MERGED clears, RESETS counts unless a reset of the unit is
already running (R22), the unit is brought to PS0 once COMMIT has run (R466), and with it what is above it, which is never deeper (R464);
RST reads 1. -/
def shellReset (s : State) (k : Nat) (relatch : Option Nat) : State :=
  let b := shellBase k
  let old := s.rst k
  let s0 := s.set (SHELL_STAT_MERGED b) 0
  let s1 := if old.running then s0 else s0.inc (SHELL_CNT_RESETS b)
  let s2 := if s.locked then wakeUp s1 k else s1
  { (s2.set (SHELL_RST_RST b) 1).stampEv (rstK k) with
    pwr := tset none s2.pwr k none
    resets := tset RstSt.none s2.resets k ⟨true, true, if relatch.isSome then relatch else old.relatch, 0⟩ }

/-- The watched instance a unit has of each kind it counts (R436). -/
def watchKeys (k : Nat) : List Nat :=
  match levelOf k with
  | 1 => [watchK 0 (k - 149)]
  | 2 => [watchK 1 (k - 21), watchK 2 (k - 21), watchK 3 (k - 21)]
  | 3 => [watchK 4 (k - 5)]
  | 5 => (List.range 128).map (watchK 5)
  | _ => []

/-- The record of a unit and everything beneath it is cleared: SRC, reactions in progress, watched counts. -/
def clearRecords (s : State) (k : Nat) : State :=
  let us := unitsOf k
  let ws := us.flatMap watchKeys
  { s with
    srcs := tclear s.srcs (fun e => us.contains (e / 16))
    reacts := tclear s.reacts (fun e => us.contains (e / 16))
    watch := tclear s.watch (fun e => ws.contains e) }

/-- Lines of a unit that are active as a reset with a shadow starts merge once into the reset's own shell (R428, R442);
fatal sources never do (R443). -/
def mergeLive (s : State) (k : Nat) : State :=
  (List.range 16).foldl (fun t b =>
    if t.get (SHELL_LIVE_LIVE (shellBase k)) / 2 ^ b % 2 = 0 ∨ (k = 0 ∧ b ≤ 5) then t
    else
      match maskedBy t k b with
      | some r => if t.get (SHELL_RST_SHADOW (shellBase r)) = 0 then t else mergeInto t r
      | none => t) s

/-- Start a unit reset of a device unit (R19 to R22, R440). Nothing starts while a reset of the unit, or of a unit
above it, runs. -/
def unitReset (s : State) (k : Nat) (relatch : Option Nat) : State :=
  if (s.rst k).running then s
  else
    let us := unitsOf k
    let s1 := us.foldl (fun t u => shellReset t u (if u = k then relatch else none)) s
    let s2 := clearRecords s1 k
    us.foldl mergeLive (us.foldl blockReset s2)

/-- Control-store address of a word in `State.cs`. -/
def csK (g a : Nat) : Nat := g * 8192 + a

/-- The reload of R142: addresses 0x0800 to 0x1FFF from the copy taken at COMMIT; without a copy (no COMMIT with the
processor enabled) the RAM is kept. -/
def csReload (s : State) (g : Nat) : State :=
  match s.csCopy with
  | none => s
  | some c =>
    if !s.flag (SP_CTL_EN g) then s
    else
      let kept := s.cs.filter (fun e => e.1 < csK g 0x800 || csK g 0x2000 ≤ e.1)
      let mine := c.filter (fun e => e.1 / 8192 == g && csK g 0x800 ≤ e.1)
      { s with cs := mine.foldl (fun t e => tset (0 : BitVec 136) t e.1 e.2) kept }

/-- The units' part in the end of a reset: a port restarts its link in the PRT_MODE mode (R59) once COMMIT has started
it; a processor reloads and waits for its first boundary (R142). -/
def blockDone (s : State) (k : Nat) : State :=
  match levelOf k with
  | 2 =>
    let p := k - 21
    let m := s.get (PRT_MODE_MODE p)
    if !s.locked || m = 0 then s.set (PRT_STAT_STATE p) stOff
    else portStart s p m (modeMask m (s.get (PRT_MODE_LSEL p)))
  | 3 =>
    let g := k - 5
    let s1 := csReload s g
    let on := s1.locked && s1.flag (SP_CTL_EN g)
    s1.setSp g { s1.sp g with run := if on then .waitTick else .halted, vec0 := on }
  | _ => s

/-- The shell at the end of a reset: RST reads 0 and the shadow opens (R442). -/
def shellDone (s : State) (k : Nat) : State :=
  let b := shellBase k
  let sh := s.get (SHELL_RST_SHADOW b)
  let old := s.rst k
  let s1 := { s.set (SHELL_RST_RST b) 0 with
    resets := tset RstSt.none s.resets k (if sh = 0 then RstSt.none else ⟨true, false, none, s.now + sh⟩) }
  match old.relatch with
  | some bit => record s1 k bit .corr
  | none => s1

end Sys2Proof.Machine
end

