-- ==== Sys2Proof/Machine/Faults.lean ====
section
/-! DEFINITION. Taking an error event: classing, merging, recording and reacting (R428 to R443), for every source of
every unit type (R431 to R435, R508); the machine check (R141) and the fatal state (R448); the commands of the fault
collector. -/

namespace Sys2Proof.Machine

/-- Start the reaction reset of a contained event's unit when FLT_CTL.ARST enables it for the level (R439). -/
def reactionReset (s : State) (k bit : Nat) : State :=
  let lv := levelOf k
  if 1 ≤ lv ∧ lv ≤ 4 ∧ s.get FLT_CTL_ARST / 2 ^ (lv - 1) % 2 = 1 then unitReset s k (some bit) else s

/-- A contained halt (R441): recorded, in progress until the unit reset, and its reaction reset started. In a shadow it halts the unit
all the same, and only its record is held back (R443); a reset that runs puts it right. -/
def contain (s : State) (k bit : Nat) (eff : State → State) : State :=
  match admitEvent s k bit false with
  | (false, s1) =>
    if s.collector && (maskedBy s k bit).isSome && !(s.rst k).running && !s.reacting k bit then (eff s1).react k bit true else s1
  | (true, s1) => reactionReset ((eff (record s1 k bit .cont)).react k bit true) k bit

/-- Withdraw the NEXTEV reports of a group's ports (R161): each has its next event now, and wakes at once (R470). -/
def nextevOff (s : State) (g : Nat) : State :=
  let s1 := { s with nextev := tclear s.nextev (fun k => k / 8 == g) }
  if s.flag PWR_CTL_RUN then (List.range 8).foldl (fun t i => demand t (portK (8 * g + i))) s1 else s1

/-- Whether an overrun cut a processor off in this clock. -/
def cutNow (s : State) (g : Nat) : Bool :=
  match (s.sp g).undoCut with | some (t, _) => t == s.now | none => false

/-- A machine check in the clock of an overrun cut-off wins (R155): the overrun is not counted, severe or not. -/
def undoCut (s : State) (g : Nat) : State :=
  match (s.sp g).undoCut with
  | some (t, n, w, c) =>
    if t = s.now then
      (({ s.set (SP_CNT_OVERRUNS g) n with
          watch := tset WatchSt.zero s.watch (watchK 4 g) w
          srcs := tset Cls.none s.srcs (srcK (grpK g) 0) c }).react (grpK g) 0 false).setSp g
        { s.sp g with cut := false, undoCut := none, run := .waitTick }
    else s
  | none => s

/-- What a machine check does to the processor and its group (R141, R146, R153). A trap routine in progress ends (DESIGN CHOICE, log
entry 99). -/
def mckEffect (s : State) (g cause synd addr : Nat) : State :=
  let s1 := gatesSafe s g
  let x := s1.sp g
  let s2 := s1.setSp g { x with
    run := .mck, stage := [], inTrap := false,
    tcmp := x.tcmp.map (fun e => (e.1, { e.2 with armed := false, miss := false })) }
  (s2.set (SP_STAT_MCK g) cause).setW (SP_MCK g) (w32 (synd % 256 * 65536 + addr % 8192))

/-- A machine check (R141): contained class of the port group, bit 1, 2 or 3 by cause (R433). Of a processor that stands, a further event
of the cause in progress, or one in the group's reset, is merged (R441, R442). -/
def machineCheckOp (s : State) (g cause synd addr : Nat) : State :=
  if ((s.sp g).run = .mck ∨ (s.sp g).run = .halted ∨ (s.sp g).run = .reload) ∧ !cutNow s g then
    (if s.reacting (grpK g) cause || (maskedBy s (grpK g) cause).isSome then (admitEvent s (grpK g) cause false).2 else s)
  else
    let k := grpK g
    let s1 := mckEffect (undoCut s g) g cause synd addr
    match admitEvent s1 k cause false with
    | (false, s2) => s2
    | (true, s2) => reactionReset ((record s2 k cause .cont).react k cause true) k cause

/-- Power states of the fatal state (R466): the device in PS1, every other unit in PS4. -/
def fatalPower (s : State) : State :=
  { (unitsOf 0).foldl (fun t k => (t.set (SHELL_PWR_CUR (shellBase k)) (if k = 0 then 1 else 4)).set
      (SHELL_PWR_BUSY (shellBase k)) 0) s with pwr := [] }

/-- The fatal state (R448): transmitters idle, keys zeroed, the engines stopped (their commands have no effect from now
on), MSI-X of FLT_VEC5 sent by the record. -/
def enterFatal (s : State) : State :=
  let s1 := (List.range 128).foldl secClear s
  fatalPower { s1 with
    fatal := true
    ports := s1.ports.map (fun e => (e.1, { e.2 with tx := none, rest := none, jobs := [] })) }

/-- A fatal event of the device (R435, R443, R448). -/
def fatalEvent (s : State) (bit : Nat) : State :=
  if !s.collector then s
  else
    let s1 := enterFatal s
    (record s1 0 bit .fatal).react 0 bit true

/-- Frames of a retired port: their descriptors complete with STATUS 3 (R349). -/
def retiredFrames (s : State) (fs : List QFrame) : State := fs.foldl (fun t f => hostDone t f 3 0 0 false []) s

/-- The far-reaching part of R255: what arrives is cut (R273), the guardian enters Isolated, the port is retired, its queued frames are freed and
counted. -/
def isolate (s : State) (p : Nat) : State :=
  let s1 := (List.range 8).foldl (fun t tc => keepQueue t p tc) ((cutGuarded s p).set (PRT_GRD_STAT_STATE p) 3)
  let n := ((List.range 8).map (fun tc => (s1.queue p tc).length)).sum
  let s2 := (List.range 8).foldl (fun t tc => retiredFrames (t.setQueue p tc []) (t.queue p tc)) s1
  portOut (addCnt s2 (PRT_CNT_DROP_BUF p) n) p

/-- R314: the node takes no part in any round until its NODE_CTL is written. -/
def nodeRetire (s : State) (n j : Nat) : State := s.set (NODE_CTL_RETIRED n j) 1

/-- A retry of a port's link: the link restarts in CUR_MODE (R52, R432). -/
def retrain (s : State) (p : Nat) : State :=
  portStart (linkDrop s p) p (s.get (PRT_STAT_CUR_MODE p)) (s.get (PRT_STAT_ACT_LANES p))

/-- Whether a lane is in its port's active set, where its detectors count (R430). -/
def laneActive (s : State) (l : Nat) : Bool := s.flag (LN_STAT_ACTIVE l)

/-- A lane's events (R431). -/
def raiseLane (s : State) (l bit : Nat) (sev : Sev) : State :=
  let k := laneK l
  let p := laneP l
  match bit with
  | 0 =>
    if !laneCounts s l || (laneActive s l && curPs s k ≥ 3) then s
    else
      let (sv, s1) := watched s k 0 0 l
      if sv then lanesRetire s1 p (2 ^ (l % 4)) else s1
  | 1 =>
    if !laneCounts s l || (laneActive s l && curPs s k ≥ 3) then s
    else
      let (sv, s1) := watched s k 0 0 l
      if sv then lanesRetire (note s1 k 1 .corr) p (2 ^ (l % 4))
      else
        let s2 := note s1 k 1 .corr
        if s.get (PRT_STAT_STATE p) = stUp then
          retrain ((note (s2.react k 1 true) (portK p) 1 .corr).react (portK p) 1 true) p
        else if s.get (PRT_STAT_STATE p) = stTrain ∨ s.get (PRT_STAT_STATE p) = stAn then retrain (s2.react k 1 true) p
        else s2
  | 2 => if laneCounts s l && !(laneActive s l && curPs s k ≥ 3) then note s k 2 .corr else s
  | 3 =>
    match sev with
    | .corrected => note s k 3 .corr
    | .contained =>
      contain s k 3 (fun t => lanesLeave (t.setLane l { t.lane l with out := true }) p (2 ^ (l % 4)))
  | _ => s

/-- A port's events (R432). -/
def raisePort (s : State) (p bit : Nat) (sev : Sev) : State :=
  let k := portK p
  match bit with
  | 0 =>
    if s.get (PRT_STAT_STATE p) ≠ stUp then s
    else
      let (sv, s1) := watched (s.inc (PRT_PCS_ERR_COUNT p)) k 0 1 p
      if sv then portOut (leaveMark (s1.react k 0 true) p) p else s1
  | 1 =>
    if s.get (PRT_STAT_STATE p) ≠ stUp then s else retrain ((note s k 1 .corr).react k 1 true) p
  | 2 => note s k 2 .corr
  | 3 => if s.get (PRT_STAT_STATE p) = stRetired then s else portRetire s p
  | 4 =>
    let (sv, s1) := watched s k 4 2 p
    if sv then isolate (leaveMark (s1.react k 4 true) p) p else s1
  | 5 =>
    let (sv, s1) := watched s k 5 3 p
    if sv then portOut (leaveMark (s1.react k 5 true) p) p else s1
  | 6 =>
    if s.get (PRT_STAT_STATE p) ≠ stUp then s
    else match sev with
    | .corrected => note s k 6 .corr
    | .contained =>
      contain s k 6 (fun t =>
        let t1 := cutArrival (cutArrival (cutSending t p) p false) p true
        t1.setPort p { t1.port p with memHalt := true, tx := none })
  | _ => s

/-- A pipeline memory error that cost one frame drops it (R433): `info` is the frame's number plus one, 0 for none. -/
def pipeLoses (s : State) (info : Nat) : State :=
  if info = 0 then s
  else
    let s1 := loseFrame s (info - 1)
    match openById s1 (info - 1) with
    | some (k, _) => loseOpen s1 k
    | none => s1

/-- A port group's events (R433). -/
def raiseGroup (s : State) (g bit : Nat) (sev : Sev) (info : Nat) : State :=
  let k := grpK g
  match bit with
  | 0 =>
    let (sv, s1) := watched s k 0 4 g
    if sv then (s1.setSp g { s1.sp g with run := .halted, vec0 := false }).react k 0 true else s1
  | 1 => machineCheckOp s g 1 (info / 8192) (info % 8192)
  | 2 => machineCheckOp s g 2 0 (info % 8192)
  | 3 => machineCheckOp s g 3 0 (info % 8192)
  | 4 => note s k 4 .corr
  | 5 =>
    match sev with
    | .corrected => note (pipeLoses s info) k 5 .corr
    | .contained => contain s k 5 (fun t => groupLoses t g)
  | _ => s

/-- The egress ports of slice `i` whose queues hold a frame (R434), once for each copy. -/
def holders (s : State) (i id : Nat) : List Nat :=
  s.queues.flatMap (fun e => if e.1 / 512 = i then (e.2.filter (fun q => q.id == id)).map (fun _ => e.1 / 16) else [])

/-- A slice's events (R434): `info` names the frame of BUF_MEM, and, of MESH, the slice at the other end of the link. -/
def raiseSlice (s : State) (i bit : Nat) (sev : Sev) (info : Nat) : State :=
  let k := sliceK i
  match bit with
  | 0 =>
    let s1 := note s k 0 .corr
    match sev with
    | .corrected => s1
    | .contained => (holders s1 i info).foldl (fun t p => addCnt t (PRT_CNT_DROP_BUF p) 1) (loseFrame s1 info)
  | 1 => contain s k 1 id
  | 2 =>
    match sev with
    | .corrected => note s k 2 .corr
    | .contained => contain s k 2 (fun t =>
        let b := 4 * i + info % 4
        if t.meshOff.testBit b then t else { t with meshOff := t.meshOff + 2 ^ b })
  | _ => s

/-- The device's events (R435). `info` names the node (TB times 16 plus j) of SYNC_DEV, and the entry of TABLE
(BLOCK in bit 28, TABLE in bits 27 to 24, INDEX below). -/
def raiseDevice (s : State) (bit : Nat) (sev : Sev) (info : Nat) : State :=
  if bit ≤ 5 then fatalEvent s bit
  else match bit with
  | 9 =>
    let (sv, s1) := watched s 0 9 5 (info % 128)
    if sv then nodeRetire s1 (info % 128 / 16) (info % 16) else s1
  | 14 =>
    match sev with
    | .corrected => note s 0 14 .corr
    | .contained =>
      let s1 := note s 0 14 .cont
      let s2 := s1.setW FLT_TBL_ERR (w32 (2 ^ 31 + bits info 28 24 * 2 ^ 24 + info % 2 ^ 18))
      let t := bits info 27 24
      let i := info % 2 ^ 18
      let inEnt : Nat → Bool := fun x => x / 16 == t * 2 ^ 20 + i
      if bits info 28 28 = 1 then { s2 with frer := tclear s2.frer inEnt }
      else { s2 with str := tclear s2.str inEnt }
  | _ => note s 0 bit .corr

/-- The compound shell's own sources (R508). -/
def raiseComp (s : State) (c bit : Nat) : State :=
  let k := compK c
  match bit with
  | 0 => note s k 0 .cont
  | 1 => note s k 1 .corr
  | 2 => note s k 2 .corr
  | 3 => note s k 3 .cont
  | 4 => note s k 4 .cont
  | _ => s

/-- Sources of a unit's memories, which are checked in every power state (R430): SD_MEM of a lane, MEM of a port, fetch
parity, table memory and PIPE_MEM of a group, BUF_MEM and LINK_MEM of a slice, and every source of the device and of a
compound shell, which have no PS3. -/
def memorySource (k bit : Nat) : Bool :=
  match levelOf k with
  | 1 => bit == 3
  | 2 => bit == 6
  | 3 => bit != 0 && bit != 3
  | 4 => bit ≤ 1
  | _ => true

/-- The class the source tables give an event of a classed source (R431 to R435), by its severity where they give two. -/
def tableClass (k bit : Nat) (sev : Sev) : Cls :=
  let two := match levelOf k with
    | 1 => bit == 3
    | 2 => bit == 6
    | 3 => bit == 5
    | 4 => bit == 2
    | _ => bit == 14
  let halts := (levelOf k == 3 && decide (1 ≤ bit) && decide (bit ≤ 3)) || (levelOf k == 4 && bit == 1)
  if halts || (two && decide (sev = .contained)) then .cont else .corr

/-- In the fatal state every unit beneath the device is in PS4 and unit resets are ignored (R448, R466): an event of its memories
is recorded with the class its source table gives, and nothing reacts. -/
def raiseQuiet (s : State) (k bit : Nat) (sev : Sev) : State :=
  if !memorySource k bit then s else note s k bit (tableClass k bit sev)

/-- An event of source `bit` of unit `k` (R428): the one operation that every error line goes through. -/
def raise (s : State) (k bit : Nat) (sev : Sev) (info : Nat) : State :=
  if s.fatal ∧ levelOf k ≤ 4 then raiseQuiet s k bit sev
  else if 3 ≤ curPs s k ∧ !memorySource k bit then s
  else match levelOf k with
  | 1 => raiseLane s (k - 149) bit sev
  | 2 => raisePort s (k - 21) bit sev
  | 3 => raiseGroup s (k - 5) bit sev info
  | 4 => raiseSlice s (k - 1) bit sev info
  | 5 => raiseDevice s bit sev info
  | _ => raiseComp s (k - 700) bit

/-- A corrected-class device event (bits 6 to 15). -/
def devEvent (s : State) (bit : Nat) : State := note s 0 bit .corr

/-- What the active line of a source carries (R428). -/
def State.line (s : State) (k bit : Nat) : Sev × Nat := tget (.corrected, 0) s.lines (srcK k bit)

/-- A line that is still active and no longer masked latches as a new event, with the class its source table gives (R428, R457): what its
source began in the shadow is not in progress. -/
def relatch (s : State) (k bit : Nat) : State :=
  if s.get (SHELL_LIVE_LIVE (shellBase k)) / 2 ^ bit % 2 = 1 ∧ (maskedBy s k bit).isNone then
    raise (s.react k bit false) k bit (s.line k bit).1 (s.line k bit).2
  else s

/-- Lines of a unit that are still active latch again as new events, after the corrected re-latch of a reaction reset (R428, R457).
The condition of WATCH is judged anew. -/
def relatchLive (s : State) (k : Nat) : State := (List.range 16).foldl (fun t b => relatch t k b) s

/-- The sources that a shadow of unit `r` masked outside its subtree (R442). -/
def besides (r : Nat) : List (Nat × Nat) :=
  [(parentOf r, 0), (parentOf r, 1), (0, 9), (0, 10), (0, 11), (0, 12)].filter (fun e => masksBeside r e.1 e.2)

/-- The end of a unit reset (R19, R142, R439, R442): every unit of the subtree finishes; without a shadow, lines
that are still active latch again. -/
def resetComplete (s : State) (k : Nat) : State :=
  if !(s.rst k).running then s
  else
    let us := (unitsOf k).filter (fun u => (s.rst u).running)
    let s1 := us.foldl blockDone s
    let s2 := us.foldl shellDone s1
    us.foldl (fun t u => if (t.rst u).active then t else relatchLive t u) s2

/-- The end of a reset shadow (R428, R442): an active line of the unit or beneath it, no longer masked, latches, and so does one that the
shadow masked besides and that has not latched before. -/
def shadowOver (s : State) (k : Nat) : State :=
  let r := s.rst k
  if !r.active || r.running || s.now < r.shadowEnd then s
  else
    let s1 := { s with resets := tset RstSt.none s.resets k RstSt.none }
    (besides k).foldl (fun t e => if t.src e.1 e.2 = .none then relatch t e.1 e.2 else t) ((unitsOf k).foldl relatchLive s1)

/-! ### The collector's commands -/

/-- SOURCE_LATCH (R428 to R435): an error line is active (for one clock, or from now on), or goes inactive. -/
def execSourceLatch (u : ShellId) (bit : Fin 16) (line : Line) (sev : Sev) (info : Nat) (s : State) : Out :=
  let k := shellKey u
  match line with
  | .fall => .next { setLive s k bit.val false with lines := tset (.corrected, 0) s.lines (srcK k bit.val) (.corrected, 0) }
  | .pulse => .next (raise s k bit.val sev info)
  | .rise =>
    .next (raise { setLive s k bit.val true with lines := tset (.corrected, 0) s.lines (srcK k bit.val) (sev, info) } k bit.val sev info)

/-- Whether a source counts single events, so that its line cannot stay active (R52, R436). -/
def watchedSource (k bit : Nat) : Bool :=
  match levelOf k with
  | 1 => bit == 0
  | 2 => bit == 0 || bit == 4 || bit == 5
  | 3 => bit == 0
  | 5 => bit == 9
  | _ => false

/-- A line that is still active when its SRC bit is cleared sets the bit again in the next clock, with the class it had (R428: DEDUCED,
log entry 34); not while it is masked or merged. -/
def holdLine (s : State) (k : Nat) (e : Nat × Cls) : State :=
  let b := e.1 % 16
  if s.get (SHELL_LIVE_LIVE (shellBase k)) / 2 ^ b % 2 = 1 ∧ (maskedBy s k b).isNone ∧ s.reacting k b = false ∧
      watchedSource k b = false then record s k b e.2
  else s

/-- SHELL_STAT_W1C (R14, R15, R22): SRC bits of corrected class and MERGED clear; contained and fatal bits do not, nor does a bit
that was set, or a MERGED that was merged, in this clock; the bit of a line still active is set again. In the fatal state BAR0 writes are ignored (R448). -/
def execShellStatW1c (u : ShellId) (v : Word) (s : State) : Out :=
  let k := shellKey u
  if s.fatal then .next s
  else
    let gone : Nat → Bool := fun e => e / 16 == k && v.toNat / 2 ^ (e % 16) % 2 == 1 && !s.evNow e
    let off := s.srcs.filter (fun e => gone e.1 && decide (e.2 = .corr))
    let s0 := { s with srcs := s.srcs.filter (fun e => !(gone e.1 && decide (e.2 = .corr))) }
    let s1 := off.foldl (fun t e => holdLine t k e) s0
    .next (if v.toNat / 2 ^ 27 % 2 = 1 ∧ !s.evNow (mergeK k) then s1.set (SHELL_STAT_MERGED (shellBase k)) 0 else s1)

/-- Sources that a reset of `k` masks and that latched in this clock (R60, R457). -/
def latchedNow (s : State) (k : Nat) : List Nat :=
  (s.srcs.filter (fun e => masks s k (e.1 / 16) (e.1 % 16) && s.evNow e.1 && decide (e.2 ≠ .fatal))).map (·.1)

/-- The severe events of this clock that a test picks by kind and instance (R436). -/
def severeNow (s : State) (x : Nat → Bool) : List (Nat × Nat) :=
  (s.watch.filter (fun e => e.2.count = 0 ∧ e.2.start = 1 ∧ e.2.last = s.now ∧ x e.1)).map (fun e => (e.1 / 4096, e.1 % 4096))

/-- What a severe event of this clock has begun is undone (R457): its lane, port, processor or node is in service. -/
def unSevere (s : State) (kind inst : Nat) : State :=
  match kind with
  | 0 => laneBack s inst
  | 1 => portBack (s.react (portK inst) 0 false) inst
  | 2 => portBack (s.react (portK inst) 4 false) inst
  | 3 => portBack (s.react (portK inst) 5 false) inst
  | 4 =>
    let t := s.react (grpK inst) 0 false
    if cutNow t inst then t.setSp inst { t.sp inst with run := .waitTick, vec0 := true } else t
  | _ => s.set (NODE_CTL_RETIRED (inst / 16) (inst % 16)) 0

/-- A unit reset by software (R19). It wins over the events of its own clock, which fall in its shadow and are merged; a severe one is
undone (R60, R457). -/
def softReset (s : State) (k : Nat) : State :=
  if (s.rst k).running then s
  else
    let keys := (unitsOf k).flatMap watchKeys
    let s0 := (severeNow s (fun e => keys.contains e)).foldl (fun t e => unSevere t e.1 e.2) s
    (latchedNow s k).foldl (fun t _ => mergeInto t k) (unitReset s0 k none)

/-- A unit reset of a compound shell (R508): every present member's device unit, or inner compound, is reset, and the
compound's own state clears. This device is a present member of every depth it belongs to. -/
def compReset (s : State) (c : Nat) : State :=
  let k := compK c
  let inner := (List.range c).map compK
  let s1 := (k :: inner).foldl (fun t u => shellReset t u none) s
  let s2 := { s1 with
    srcs := tclear s1.srcs (fun e => (k :: inner).contains (e / 16))
    reacts := tclear s1.reacts (fun e => (k :: inner).contains (e / 16)) }
  softReset (s2.emit (.ulicon 128 7 [c])) 0

/-- UNIT_RESET (R19, R22, R440): software writes SHELL_RST.RST. -/
def execUnitReset (u : ShellId) (s : State) : Out :=
  if s.fatal then .next s
  else match u with
  | .dev k => .next (softReset s k.val)
  | .comp c => .next (compReset s c.val)

/-- UNIT_RESET_COMPLETE (R19, R142, R439). -/
def execUnitResetComplete (u : ShellId) (s : State) : Out :=
  if s.fatal then .next s
  else match u with
  | .dev k => .next (resetComplete s k.val)
  | .comp c =>
    let k := compK c.val
    .next (if (s.rst k).running then shellDone s k else s)

/-- RESET_SHADOW_END (R428, R442). -/
def execResetShadowEnd (u : ShellId) (s : State) : Out :=
  if s.fatal then .next s else .next (shadowOver s (shellKey u))

/-- The source of a watched kind's instance: unit key and bit (R437). -/
def watchSrc (kind inst : Nat) : Nat :=
  match kind with
  | 0 => srcK (laneK inst) 0
  | 1 => srcK (portK inst) 0
  | 2 => srcK (portK inst) 4
  | 3 => srcK (portK inst) 5
  | 4 => srcK (grpK inst) 0
  | _ => srcK 0 9

/-- FLT_WATCH (R437, R453): a write of FLT_WATCHk takes its fields and returns every count of the kind to zero; an
event of this clock starts the new count, and is no severe one (R457). -/
def execFltWatch (k : Fin 6) (v : Word) (s : State) : Out :=
  if s.fatal then .next s
  else
    let s1 := s.setW (FLT_WATCH k.val) (v &&& 0xFF00FFFF)
    let sev := severeNow s1 (fun e => e / 4096 == k.val)
    let s2 := sev.foldl (fun t e => { unSevere t e.1 e.2 with srcs := tset Cls.none (unSevere t e.1 e.2).srcs (watchSrc e.1 e.2) .corr }) s1
    let stay := s2.watch.filter (fun e => e.1 / 4096 != k.val || decide (e.2.last = s.now ∧ (e.2.count ≠ 0 ∨ e.2.start = 1)))
    .next { s2 with watch := stay.map (fun e => if e.1 / 4096 = k.val then (e.1, ⟨1, s.now, s.now⟩) else e) }

/-- HEARTBEAT_LOSS (R446): the heartbeat has stopped for 10 microseconds; both pins are driven low. -/
def execHeartbeatLoss (s : State) : Out := .next { s with hbLost := true }

/-- Die temperature of FLT_TEMP.T in 1/16 degree as an integer. -/
def tempOf (t : BitVec 16) : Int := toInt 16 t.toNat

/-- TEMPERATURE_SAMPLE (R435, R454): T takes the sample; TEMP_WARN at or above WARN, quiet below WARN - HYST; TEMP
(fatal) at or above 125 degrees. -/
def execTemperatureSample (t : BitVec 16) (s : State) : Out :=
  let s1 := s.set FLT_TEMP_T t.toNat
  let x := tempOf t
  let warn : Int := 16 * (s.get FLT_TEMP_WARN : Int)
  let hyst : Int := 16 * (s.get FLT_TEMP_HYST : Int)
  let was := s.get (SHELL_LIVE_LIVE (shellBase 0)) / 2 ^ 6 % 2 == 1
  let s2 := if x ≥ warn then (if was then s1 else note (setLive s1 0 6 true) 0 6 .corr)
    else if x < warn - hyst then setLive s1 0 6 false else s1
  .next (if x ≥ 16 * 125 then fatalEvent (setLive s2 0 1 true) 1 else setLive s2 0 1 false)

end Sys2Proof.Machine
end

