-- ==== Sys2Proof/Machine/Parse.lean ====
section
/-! DEFINITION. What the parser reads from a frame (R74), the redundancy tags (R221), and the edits of stage 8 (R75, R77,
R222). -/

namespace Sys2Proof.Machine

/-- The EtherType of a frame without tags. -/
def etherType (b : Bytes) : Nat := beField b 12 2

/-- Header bytes of an EtherType, for the checks that look no further. -/
def typedHead (etype : Nat) (r : Bytes) : Bytes := List.replicate 12 0 ++ beBytes 2 etype ++ r

/-- Frames that pass the uncontrolled port (R412): MKPDUs, handshakes of TYPE 2 and 3, MAC Control frames. -/
def uncontrolled (b : Bytes) : Bool :=
  etherType b == 0x888E || etherType b == 0x8808 ||
  (etherType b == 0x88B6 && (beField b 14 1 == 2 || beField b 14 1 == 3))

/-- Whether a TPID opens a VLAN tag; the inner tag's is 0x8100 only (R74). -/
def outerTpid (x : Nat) : Bool := x == 0x88A8 || x == 0x8100

/-- Number of VLAN tags (0 to 2). -/
def vlanTags (b : Bytes) : Nat :=
  if !outerTpid (beField b 12 2) then 0 else if beField b 16 2 == 0x8100 then 2 else 1

/-- The fields the stages use (R74): addresses; the outer tag's TCI, if any; EtherType; IP version (0: non-IP), addresses,
DSCP, protocol; transport ports. -/
structure Parsed where
  da : Nat
  sa : Nat
  tci : Option Nat
  etype : Nat
  ip : Nat
  src : Nat
  dst : Nat
  dscp : Nat
  proto : Nat
  ports : Option (Nat × Nat)
  deriving DecidableEq, Repr

/-- Transport ports behind an IP header that ends at `o` (R74). -/
def transport (b : Bytes) (proto o : Nat) (ok : Bool) : Option (Nat × Nat) :=
  if ok && (proto == 17 || proto == 6) && decide (o + 4 ≤ b.length) then some (beField b o 2, beField b (o + 2) 2) else none

/-- Parse a header: the first 192 bytes, without a redundancy tag. -/
def parse (bytes : Bytes) : Parsed :=
  let b := bytes.take 192
  let n := vlanTags b
  let t := 12 + 4 * n
  let e := beField b t 2
  let l := t + 2
  let base : Parsed := ⟨beField b 0 6, beField b 6 6, if n = 0 then none else some (beField b 14 2), e, 0, 0, 0, 0, 0, none⟩
  let ihl := beField b l 1 % 16 * 4
  if e = 0x0800 ∧ beField b l 1 / 16 = 4 ∧ 20 ≤ ihl ∧ l + ihl ≤ b.length then
    let proto := beField b (l + 9) 1
    { base with
      ip := 4, src := beField b (l + 12) 4, dst := beField b (l + 16) 4, dscp := beField b (l + 1) 1 / 4, proto := proto
      ports := transport b proto (l + ihl) (beField b (l + 6) 2 % 8192 == 0) }
  else if e = 0x86DD ∧ beField b l 1 / 16 = 6 ∧ l + 40 ≤ b.length then
    let proto := beField b (l + 6) 1
    { base with
      ip := 6, src := beField b (l + 8) 16, dst := beField b (l + 24) 16, dscp := beField b l 2 / 64 % 64, proto := proto
      ports := transport b proto (l + 40) true }
  else base

/-! ### Redundancy groups and tags (R221, R234, R243) -/

/-- A received frame without its redundancy tag (R221): bytes, number, and whether an HSR port's tag is missing. -/
structure Untagged where
  bytes : Bytes
  seq : Option Nat
  badTag : Bool
  deriving DecidableEq, Repr

/-- LSDU size of the RCT that ends a frame of these bytes (IEC 62439-3; log entry 20). -/
def rctSize (b : Bytes) : Nat := (b.length - 14 - 4 * vlanTags b) % 4096

/-- Take the redundancy tag that counts on port `p` off a frame (R221). -/
def untagFrame (s : State) (p : Nat) (b : Bytes) : Untagged :=
  if linkLocal b ∧ (groupOf s p).isSome then ⟨b, none, false⟩
  else match groupOf s p with
  | none =>
    let t := 12 + 4 * vlanTags b
    if beField b t 2 = 0xF1C1 ∧ t + 8 ≤ b.length then ⟨b.take t ++ b.drop (t + 6), some (beField b (t + 4) 2), false⟩
    else ⟨b, none, false⟩
  | some r =>
    let n := b.length
    if isHsr s r then
      (if beField b 12 2 = 0x892F ∧ beField b 14 2 % 4096 = (n - 14) % 4096 ∧ 20 ≤ n then
        ⟨b.take 12 ++ b.drop 18, some (beField b 16 2), false⟩
       else ⟨b, none, true⟩)
    else if beField b (n - 2) 2 = 0x88FB ∧ beField b (n - 4) 2 % 4096 = rctSize b ∧ 20 ≤ n then
      ⟨b.take (n - 6), some (beField b (n - 6) 2), false⟩
    else ⟨b, none, false⟩

/-! ### Stage 8 (R77, R222) -/

/-- A bit of a 128-bit port set held in four words of a forwarding table. -/
def portBit (s : State) (t i w p : Nat) : Bool := s.strW t i (w + p / 32) / 2 ^ (p % 32) % 2 == 1

/-- The VLAN edit: the outer tag goes on ports in the VLAN's UNTAG set; on others the frame carries VID, PCP and DEI. -/
def vlanEdit (s : State) (p : Nat) (f : QFrame) : Bytes :=
  let tci := beBytes 2 (f.pcp * 8192 + f.dei.toNat * 4096 + f.vid)
  if portBit s 5 f.vid 4 p then (if f.tagged then f.bytes.take 12 ++ f.bytes.drop 16 else f.bytes)
  else if f.tagged then spliceAt f.bytes 14 tci
  else f.bytes.take 12 ++ beBytes 2 0x8100 ++ tci ++ f.bytes.drop 12

/-- Zeros up to the least frame, 60 bytes without FCS. -/
def padFrame (b : Bytes) : Bytes := b ++ List.replicate (60 - b.length) 0

/-- The redundancy tag a port adds to a numbered frame (R222). -/
def seqEdit (s : State) (p : Nat) (b : Bytes) (seq : Nat) : Bytes :=
  match groupOf s p with
  | none =>
    let t := 12 + 4 * vlanTags b
    if s.flag (PRT_RED_RTAG_TX p) then b.take t ++ beBytes 2 0xF1C1 ++ [0, 0] ++ beBytes 2 seq ++ b.drop t else b
  | some r =>
    let onB := portA s r != p
    if isHsr s r then
      let path := 2 * s.get (DUP_RG_CFG_NETID r) + onB.toNat
      b.take 12 ++ beBytes 2 0x892F ++ beBytes 2 (path * 4096 + (b.length + 6 - 14) % 4096) ++ beBytes 2 seq ++ b.drop 12
    else
      let q := padFrame b
      q ++ beBytes 2 seq ++ beBytes 2 ((10 + onB.toNat) * 4096 + (q.length + 6 - 14 - 4 * vlanTags q) % 4096) ++
        beBytes 2 0x88FB

/-- The bytes of a frame as it leaves port `p`, without FCS and MACsec. -/
def egressBytes (s : State) (p : Nat) (f : QFrame) : Bytes :=
  if f.keep then padFrame f.bytes
  else
    let b := vlanEdit s p f
    padFrame (match f.seq with | some n => seqEdit s p b n | none => b)

end Sys2Proof.Machine
end

