-- ==== Sys2Proof/Machine/Flags.lean ====
section
/-! DEFINITION. Results and flags of the schedule processors' arithmetic (R124, R125). -/

namespace Sys2Proof.Machine

/-- An arithmetic or logic operation of R125 on D and S, 32 bits. -/
inductive AluOp where
  | add
  | sub
  | and
  | or
  | xor
  | shl
  | shr
  deriving DecidableEq, Repr

/-- The 32-bit result of D op S; shifts take S[4:0] (R125). -/
def aluResult (o : AluOp) (d x : Nat) : Nat :=
  match o with
  | .add => (d + x) % 2 ^ 32
  | .sub => (d + 2 ^ 32 - x) % 2 ^ 32
  | .and => d &&& x
  | .or => d ||| x
  | .xor => d ^^^ x
  | .shl => d * 2 ^ (x % 32) % 2 ^ 32
  | .shr => d / 2 ^ (x % 32)

/-- F2 (R124): carry of ADD, borrow of SUB, the last bit shifted out of SHL and SHR (0 for a shift by 0), 0 for logic. -/
def aluCarry (o : AluOp) (d x : Nat) : Nat :=
  match o with
  | .add => (d + x) / 2 ^ 32 % 2
  | .sub => if d < x then 1 else 0
  | .shl => if x % 32 = 0 then 0 else d / 2 ^ (32 - x % 32) % 2
  | .shr => if x % 32 = 0 then 0 else d / 2 ^ (x % 32 - 1) % 2
  | _ => 0

/-- F3 (R124): the result as a signed number lies in (-2^31, 0]. -/
def pastFlag (r : Nat) : Nat := if r = 0 ∨ 2 ^ 31 < r then 1 else 0

/-- F0 to F3 of a result and its carry, in bits 0 to 3. -/
def flagBits (r c : Nat) : Nat :=
  (if r = 0 then 1 else 0) + 2 * (r / 2 ^ 31 % 2) + 4 * c + 8 * pastFlag r

/-- The flags after an arithmetic operation: F0 to F3 set, F4 to F7 kept. -/
def aluFlags (o : AluOp) (old d x : Nat) : Nat := old / 16 % 16 * 16 + flagBits (aluResult o d x) (aluCarry o d x)

end Sys2Proof.Machine
end

