-- ==== Sys2Proof/Machine/Compound.lean ====
section
/-! DEFINITION. What a member of a compound node knows of the others (R493, R494, R498, R502, R510): presence, leadership, link
groups. -/

namespace Sys2Proof.Machine

/-- What the device knows of member `m` at depth `c`. -/
def State.member (s : State) (c m : Nat) : UlcMem := tget UlcMem.rst s.ulc.mem (c * 4 + m)
/-- Replace it. -/
def State.setMember (s : State) (c m : Nat) (x : UlcMem) : State :=
  { s with ulc := { s.ulc with mem := tset UlcMem.rst s.ulc.mem (c * 4 + m) x } }

/-- Members present at a depth: the device itself and those it hears of (R512). -/
def presentMask (s : State) (c : Nat) : Nat :=
  ((List.range 4).map (fun m => if m = cnMe s c ∨ (s.member c m).reach.isSome then 2 ^ m else 0)).sum

/-- PRESENT of a depth follows what is known of its members. -/
def showPresent (s : State) (c : Nat) : State := s.set (ULC_CN_STAT_PRESENT c) (presentMask s c)

/-- The lowest member of a set. -/
def lowestMember (m : Nat) : Nat := ((List.range 4).find? (fun i => m / 2 ^ i % 2 == 1)).getD 0

/-- LOCK at every depth in use. -/
def setLock (s : State) (b : Bool) : State :=
  (List.range 4).foldl (fun t c => if cnOn t c then t.setB (ULC_CN_STAT_LOCK c) b else t) s

/-- Leadership at a tick boundary (R508, R510). -/
def leaderMoves (s : State) : State :=
  (List.range 4).foldl (fun t c =>
    let l := lowestMember (t.get (ULC_CN_STAT_PRESENT c))
    if !cnOn t c || t.get (ULC_CN_STAT_LEADER c) == l then t else raiseComp (t.set (ULC_CN_STAT_LEADER c) l) c 2) s

/-- COMMIT finds the device alone at each depth. -/
def compoundBegin (s : State) : State :=
  let s1 := (List.range 4).foldl (fun t c =>
    if cnOn t c then showPresent (t.set (ULC_CN_STAT_LEADER c) (cnMe t c)) c else t) s
  setLock s1 true

/-! ### Link groups (R494, R499) -/

/-- Ports of the link group a Ulicon port belongs to. -/
def ulcGroup (s : State) (p : Nat) : List Nat :=
  (List.range 128).filter (fun q =>
    isUlc s q && s.get (PRT_ULC_DEPTH q) == s.get (PRT_ULC_DEPTH p) && s.get (PRT_ULC_PEER q) == s.get (PRT_ULC_PEER p))

/-- The port as which forwarding sees a Ulicon port: the lowest of its group. -/
def ulcLow (s : State) (p : Nat) : Nat := if isUlc s p then (ulcGroup s p).headD p else p

/-- Whether a link group carries cells (R495). -/
def ulcUp (s : State) (p : Nat) : Bool := (ulcGroup s p).any (fun q => s.flag (PRT_ULC_STAT_UP q))

/-- Whether the member behind a Ulicon port is present (R510). -/
def ulcPresent (s : State) (p : Nat) : Bool :=
  s.get (ULC_CN_STAT_PRESENT (s.get (PRT_ULC_DEPTH p))) / 2 ^ s.get (PRT_ULC_PEER p) % 2 == 1

/-- Egress ports as link groups (R499): a group counts once, as its lowest port; a frame that came over a group takes no group. -/
def ulcFilter (s : State) (inPort : Nat) (ps : List Nat) : List Nat :=
  (List.range 128).filter (fun p =>
    if !isUlc s p then ps.contains p
    else ulcLow s p == p && !isUlc s inPort && (ulcGroup s p).any (fun q => ps.contains q))

/-- Whether the link group of Ulicon port `p` is up (R495, R498). -/
def groupUp (s : State) (p : Nat) : Bool :=
  ulcUp s p && (s.member (s.get (PRT_ULC_DEPTH p)) (s.get (PRT_ULC_PEER p))).at_.isSome

/-- DIRECT of a depth (R512): the members behind a link group that is up. -/
def directMask (s : State) (c : Nat) : Nat :=
  ((List.range 4).map (fun m =>
    if (List.range 128).any (fun p =>
        isUlc s p && s.get (PRT_ULC_DEPTH p) == c && s.get (PRT_ULC_PEER p) == m && groupUp s p) then 2 ^ m else 0)).sum

/-- The links of a group that are up. -/
def groupLinks (s : State) (p : Nat) : List Nat := (ulcGroup s p).filter (fun q => s.flag (PRT_ULC_STAT_UP q))

/-- The ports over which cells for the member behind Ulicon port `p` leave (R494, R498): the links of its group that are up, else those
towards members that reach it directly. -/
def ulcLinks (s : State) (p : Nat) : List Nat :=
  let c := s.get (PRT_ULC_DEPTH p)
  if groupUp s p then groupLinks s p
  else (List.range 128).filter (fun q =>
      isUlc s q && s.flag (PRT_ULC_STAT_UP q) && groupUp s q && s.get (PRT_ULC_DEPTH q) == c &&
      (s.member c (s.get (PRT_ULC_PEER q))).direct / 2 ^ s.get (PRT_ULC_PEER p) % 2 == 1)

/-- The Ulicon frames of a frame (R497): up to four cells of 256 bytes each. -/
def uliconFrames (b : Bytes) : List (List Bytes) :=
  (List.range ((b.length + 1023) / 1024)).map (fun j =>
    let x := (b.drop (1024 * j)).take 1024
    (List.range ((x.length + 255) / 256)).map (fun i => (x.drop (256 * i)).take 256))

/-- A frame leaves in cells for the member behind Ulicon port `p`, its Ulicon frames on the links `ls` in turn (R494, R497; the order of the
links is DESIGN CHOICE, log entry 79). -/
def sendCells (s : State) (p : Nat) (ls : List Nat) (h : CellHead) (tc : Nat) (trq : Option (Nat × Bool × Bool)) (b : Bytes) : State :=
  let low := ulcLow s p
  let turn := (s.port low).ulcTurn
  let fs := uliconFrames b
  let s1 := (List.range fs.length).foldl (fun t j =>
    t.emit (.cells (ls.getD ((turn + j) % ls.length) p) h tc trq (fs.getD j []))) s
  s1.setPort low { s1.port low with ulcTurn := turn + fs.length }

/-! ### The identity digest (R495) -/

/-- The values the digest covers, in order. -/
def identityValues (s : State) : List Nat :=
  let n := s.tickTb
  [s.get CRF_SA_HI_SA_HI, s.get CRF_SA_LO_SA_LO, s.get CRF_CTL_ETYPE, s.get GLB_TICK_PER_NS, s.get GLB_TICK_FRAC_FRAC,
   s.get GLB_TICK_CTL_CYCLE, s.get GLB_TICK_CTL_TB, s.get GLB_TICK_CYCNS_CYCNS, s.get (SYN_CS_CTL_DOMAIN n), s.get (SYN_CS_CTL_ID n)]

/-- The device's own digest, 48 bytes. -/
def ownDigest (s : State) : Bytes :=
  let b := Config.uliconDigest (identityValues s)
  b.take 48 ++ List.replicate (48 - (b.take 48).length) 0

/-- A completed pair handshake on a Ulicon port begins the exchange of digests: kind 9. -/
def digestSend (s : State) (p : Nat) : State :=
  if isUlc s p then s.emit (.ulicon p 9 ((ownDigest s).map (·.toNat))) else s

/-! ### Shells and mirrors as they read (R12 to R17, R507, R508) -/

/-- A Bool as a bit at a position. -/
def bitAt (b : Bool) (i : Nat) : Nat := if b then 2 ^ i else 0

/-- SHELL_STAT of a device shell (R14). -/
def statWord (s : State) (k : Nat) : Word :=
  w32 (srcWord s k + childBits s k * 2 ^ 16 + bitAt (clsBit s k .corr) 24 + bitAt (clsBit s k .cont) 25 +
    bitAt (clsBit s k .fatal) 26 + bitAt (s.flag (SHELL_STAT_MERGED (shellBase k))) 27)

/-- Word `i` of a device shell. -/
def devWord (s : State) (k i : Nat) : Word :=
  if i = 1 then statWord s k else rword s.regs (shellBase k + 4 * i)

/-- Whether a mirror shows a bit of its SRC or CHILD, and reports upward (R14). -/
def mirrorShows (w : Nat → Word) (lo n : Nat) : Bool := getField (w 0) 15 1 == 1 && getField (w 1) lo n != 0

/-- Word `i` of the compound shell of depth `c` (R507, R508); `own` are the words of the device's own mirror. CHILD shows a lost
member also where its mirror shows nothing (R515: DEDUCED, log entry 104). -/
def compView (s : State) (c : Nat) (own : Nat → Word) (i : Nat) : Word :=
  let k := compK c
  let stored := rword s.regs (shellBase k + 4 * i)
  let mir : Nat → Nat → Word := fun m j => if m = cnMe s c then own j else (s.member c m).shell.getD j 0
  if !cnOn s c then stored
  else match i with
  | 0 => w32 ((0x6000 + c * 1024 + s.get (ULC_CN_CTL_CNID c)) * 65536 + getField stored 15 1 * 2 ^ 15 + 0x3FF * 16 +
      (s.get (ULC_CN_CTL_NM1 c) + 1))
  | 1 =>
    let ms := List.range (s.get (ULC_CN_CTL_NM1 c) + 1)
    let child := (ms.map (fun m => bitAt (mirrorShows (mir m) 0 24 || (s.member c m).lost) m)).sum
    let own_ : Cls → Bool := fun x => s.srcs.any (fun e => decide (e.2 = x) && e.1 / 16 == k)
    let corr := own_ .corr || ms.any (fun m => mirrorShows (mir m) 24 1)
    let cont := own_ .cont || ms.any (fun m => mirrorShows (mir m) 25 1 || mirrorShows (mir m) 26 1)
    w32 (srcWord s k + child * 2 ^ 16 + bitAt corr 24 + bitAt cont 25 + bitAt (s.flag (SHELL_STAT_MERGED (shellBase k))) 27)
  | 3 =>
    let there := (List.range 4).filter (fun m => s.get (ULC_CN_STAT_PRESENT c) / 2 ^ m % 2 == 1)
    let mine := getField (own 3) 8 3
    let ps := there.map (fun m => if m = cnMe s c then mine else (s.member c m).ps)
    setField stored 8 3 (ps.foldl min mine)
  | _ => stored

/-- Word `i` of the compound shell of depth `c`. -/
def compWord (s : State) : Nat → Nat → Word
  | 0, i => compView s 0 (devWord s 0) i
  | c + 1, i => compView s (c + 1) (compWord s c) i

/-- Word `i` of the mirror of member `m` at depth `c` (R507). -/
def mirrorWord (s : State) (c m i : Nat) : Word :=
  if m ≠ cnMe s c then (s.member c m).shell.getD i 0
  else match c with
    | 0 => devWord s 0 i
    | d + 1 => compWord s d i

/-- What a summary says of member `m` of depth `c` (R497, R507): its number, its shell as its mirror shows it, the members present to it
and those it reaches directly. -/
def summaryOf (s : State) (c m : Nat) : List Nat :=
  m :: ((List.range 16).map (fun i => (mirrorWord s c m i).toNat) ++
    (if m = cnMe s c then [s.get (ULC_CN_STAT_PRESENT c), directMask s c]
     else [(s.member c m).present, (s.member c m).direct]))

/-- The members whose summaries this device passes on to its direct peer `q` (R498): it reaches them directly, the peer does not. -/
def relayedTo (s : State) (c q : Nat) : List Nat :=
  (List.range 4).filter (fun m => m != q && m != cnMe s c && (directMask s c).testBit m && !((s.member c q).direct).testBit m)

/-- How word of member `m` of an outer depth `d` goes on to peer `q` over a link of depth `c` (R497, R507): as heard over a link of a depth
above `c`, or by one relay at depth `c`. -/
def passesOn (s : State) (c q d m : Nat) : Option Bool :=
  let x := s.member d m
  let (e, r, hop) := x.via
  if !cnOn s d || m == cnMe s d || x.reach.isNone then none
  else if c < e then some false
  else if e == c && !hop && r != q && !((s.member c r).direct).testBit q then some true
  else none

/-- A summary as it leaves (R497): depth, whether it goes by relay, and what it says of the member. -/
def summaryMsg (s : State) (d m : Nat) (hop : Bool) : List Nat := d :: hop.toNat :: summaryOf s d m

/-- The summaries for peer `q` over a link of depth `c` (R497, R498): the device's own, those it relays at that depth, and those of the
members of outer depths, which every member of an inner compound mirrors. -/
def summariesTo (s : State) (c q : Nat) : List (List Nat) :=
  [summaryMsg s c (cnMe s c) false] ++ (relayedTo s c q).map (fun m => summaryMsg s c m true) ++
  ((List.range 4).filter (c < ·)).flatMap (fun d => (List.range 4).filterMap (fun m => (passesOn s c q d m).map (summaryMsg s d m)))

end Sys2Proof.Machine
end

