-- ==== Sys2Proof/Machine/Stamps.lean ====
section
/-! DEFINITION. Stamps of frames (R48, R278, R284, R285), and the copies of head entries that are due (R114, R187). -/

namespace Sys2Proof.Machine

/-! ### Rates (R278) -/

/-- The rate of a time base before the clamp. -/
def Tb.rate (t : Tb) : Int := (t.inc : Int) + t.servo

/-- Lowest rate, 1 - 2^-10 ns per clock. -/
def rateMin : Int := 0x0FFC0000000
/-- Highest rate. -/
def rateMax : Int := 0x10040000000

/-- Whether R278 clamps. -/
def Tb.clamps (t : Tb) : Bool := decide (t.rate < rateMin) || decide (rateMax < t.rate)

/-- The rate added in one base clock; TBL adds exactly 1 ns (R276). -/
def Tb.add (t : Tb) (tbl : Bool) : Nat := if tbl then 2 ^ 40 else (max rateMin (min t.rate rateMax)).toNat

/-! ### MAC stamps (R48, R284, R285) -/

/-- The variable part of R48 that an SFD operand holds, in 1/256 ns (Syntax, `Sfd`). -/
def sfdVar (x : Nat) : Nat := x % 65536
/-- Where in its base clock the SFD lies, in 1/256 ns (R284). -/
def sfdPos (x : Nat) : Nat := x / 65536 % 256

/-- The variable and fixed receive parts in 2^-16 ns. -/
def rxCorr (s : State) (p var : Nat) : Int :=
  256 * ((s.get (PRT_TS_FIX_FIX_RX p) : Int) + sfdVar var + toInt 16 (s.get (PRT_TS_BOARD_BOARD_RX p)))

/-- The transmit parts in 2^-16 ns. -/
def txCorr (s : State) (p var : Nat) : Int :=
  256 * ((s.get (PRT_TS_FIX_FIX_TX p) : Int) + sfdVar var + toInt 16 (s.get (PRT_TS_BOARD_BOARD_TX p)))

/-- Stamp of counter `n` a number of 1/256 base clocks after this base clock: its value, plus that position times its rate (R284). -/
def tbStampIn (s : State) (n sub : Nat) : Nat :=
  let t := s.tb n
  (t.acc + t.add (n == 8) * sub / 256) / 2 ^ 24 % 2 ^ 48

/-- Receive stamp on counter `n` of a frame whose SFD is at the MAC in this base clock. -/
def rxStamp (s : State) (p var n : Nat) : Nat := ofInt 48 ((tbStampIn s n (sfdPos var) : Int) - rxCorr s p var)

/-- Transmit stamp on counter `n` of a frame whose SFD leaves the MAC `wait` base clocks from now. -/
def txStamp (s : State) (p var n wait : Nat) : Nat :=
  ofInt 48 ((tbStampIn s n (256 * wait + sfdPos var) : Int) + txCorr s p var)

/-- The nine receive stamps of a frame. -/
def rxStamps (s : State) (p var : Nat) : List Nat := (List.range 9).map (rxStamp s p var)

/-- R285: the variable parts are still being measured within 10 microseconds after a link-up. -/
def freshLink (s : State) (p : Nat) : Bool := decide (s.now - (s.port p).upAt < 10000)

/-- The SFD that a stamp on a port uses: without its variable part while that is not measured (R285). -/
def sfdOn (s : State) (p x : Nat) : Nat := if freshLink s p then x / 65536 * 65536 else x

/-- VAR_RX is that of the last frame received (R65). -/
def noteRx (s : State) (p x : Nat) : State := s.set (PRT_TS_VAR_VAR_RX p) (sfdVar x)
/-- VAR_TX is that of the last frame sent (R65). -/
def noteTx (s : State) (p x : Nat) : State := s.set (PRT_TS_VAR_VAR_TX p) (sfdVar x)

/-! ### Copies that are due (R114, R187, R195) -/

/-- Time of the tick's base since T_n + `ofs` ns, in 2^-16 ns. -/
def sinceWin (s : State) (ofs : Nat) : Int := diff48 (s.tbStamp s.tickTb) (s.crf.start + 65536 * ofs)

/-- By how much (2^-16 ns) a copy whose SFD left port `p` now would cross the plane after T_n + LOFS (R48). -/
def launchLate (s : State) (c p var : Nat) : Int :=
  sinceWin s (s.get (CRF_CAR_LOFS_LOFS c)) + txCorr s p (sfdOn s p var)

/-- Whether a copy of a head entry is due on port `p` in this clock (R114): it goes before every queued frame. The variable part is the
last one measured. -/
def copyDue (s : State) (p : Nat) : Bool :=
  s.crf.win && s.cars.any (fun e =>
    let late := launchLate s e.1 p (s.get (PRT_TS_VAR_VAR_TX p))
    e.2.image.isSome && (s.get (CRF_CAR_RING_A_OUT e.1) == p || s.get (CRF_CAR_RING_B_OUT e.1) == p) &&
    decide (0 ≤ late) && decide (late < 65536))

end Sys2Proof.Machine
end

