-- ==== Sys2Proof/Machine/Operands.lean ====
section
/-! DEFINITION. The microword (R117 to R119), the operand codes (R123) and the condition groups (R132, R133) of the
schedule processors. -/

namespace Sys2Proof.Machine

/-- The fields of a microword (R117). -/
structure UWord where
  next : Nat
  bmode : Nat
  csel : Nat
  cyc : Nat
  hold : Bool
  stage : Bool
  op : Nat
  dst : Nat
  src : Nat
  mask : Nat
  imm : Nat
  deriving DecidableEq, Repr

/-- The fields of 128 data bits (R117). -/
def uword (n : Nat) : UWord :=
  { next := bits n 127 115, bmode := bits n 114 112, csel := bits n 111 108, cyc := bits n 107 105,
    hold := bits n 104 104 == 1, stage := bits n 103 103 == 1, op := bits n 102 96, dst := bits n 95 88,
    src := bits n 87 80, mask := bits n 79 64, imm := bits n 63 0 }

/-- The parity byte of 128 data bits: even parity over each group of 16 (R118). -/
def parityOf (n : Nat) : Nat :=
  ((List.range 8).map (fun i => popCount (n / 2 ^ (16 * i)) % 2 * 2 ^ i)).sum

/-- A data word with its parity byte above it, as the control store holds it. -/
def withParity (n : Nat) : BitVec 136 := BitVec.ofNat 136 (n % 2 ^ 128 + parityOf n * 2 ^ 128)

/-- The stored word at a control-store address (R143): vendor ROM below 0x0800, RAM above. -/
def csWord (s : State) (g a : Nat) : BitVec 136 :=
  if a < 0x800 then withParity (Config.romWord a).toNat else tget (0 : BitVec 136) s.cs (csK g a)

/-- The parity groups that fail (R118). -/
def csSyndrome (x : BitVec 136) : Nat := parityOf (x.toNat % 2 ^ 128) ^^^ (x.toNat / 2 ^ 128)

/-! ### The standard program's words (R165)

The spec names six entry points and says what the program does, not its words. The model runs it in sections (log entry 100), each at one
ROM address; those at the entry points are the spec's, the others the model's. -/

/-- GCL_ENTRY, the entry at vector 0. -/
def GCL_ENTRY : Nat := 0x40
/-- Where a tick goes on after the program's wait-tick. -/
def GCL_TICK : Nat := 0x41
/-- Where the next change is sought, after an entry, a change or a hook call. -/
def GCL_SEEK : Nat := 0x42
/-- The wait for TCMP0 to TCMP3. -/
def GCL_WAIT : Nat := 0x43
/-- Where that wait goes on. -/
def GCL_WOKE : Nat := 0x44
/-- The held words of a change time. -/
def GCL_CHANGE : Nat := 0x45
/-- The wait-tick. -/
def GCL_END : Nat := 0x46
/-- GCL_FAULT: event 0x0F01 with TCAUSE. -/
def GCL_FAULT : Nat := 0x300
/-- The loop until the cut-off. -/
def GCL_SPIN : Nat := 0x301
/-- GCL_MISS, the CMP_MISS trap. -/
def GCL_MISS : Nat := 0x310
/-- GCL_LINK, the LINK trap. -/
def GCL_LINK : Nat := 0x330
/-- GCL_STEP, the TIME_STEP trap. -/
def GCL_STEP : Nat := 0x340
/-- GCL_NULL, a trap-return. -/
def GCL_NULL : Nat := 0x350

/-- Whether a whole section of the program stands at an address. -/
def gclSection (a : Nat) : Bool :=
  a == GCL_ENTRY || a == GCL_TICK || a == GCL_SEEK || a == GCL_WOKE || a == GCL_CHANGE || a == GCL_MISS || a == GCL_LINK || a == GCL_STEP

/-- The word of the program at an address of its own; a section shows as a word without an operation, held in a change. -/
def gclWord (a : Nat) : Option UWord :=
  let nop : UWord := ⟨0, 0, 0, 0, false, false, 0, 0, 0, 0, 0⟩
  if a = GCL_WAIT then some { nop with bmode := 6, next := GCL_WOKE }
  else if a = GCL_END then some { nop with bmode := 5, next := GCL_TICK }
  else if a = GCL_FAULT then some { nop with op := 0x28, cyc := 1, src := 0x1E, imm := 0x0F01, bmode := 1, next := GCL_SPIN }
  else if a = GCL_SPIN then some { nop with bmode := 1, next := GCL_SPIN }
  else if a = GCL_NULL then some { nop with bmode := 7 }
  else if gclSection a then some { nop with op := 0x7F, hold := a == GCL_CHANGE }
  else none

/-- The microword at an address: the standard program's, else the stored word's fields. -/
def microword (s : State) (g a : Nat) : UWord := (gclWord a).getD (uword ((csWord s g a).toNat % 2 ^ 128))

/-- The microword at the processor's PC. -/
def spWord (s : State) (g : Nat) : UWord := microword s g (s.sp g).pc

/-! ### Budget and tick (R37, R133, R140, R158) -/

/-- B of R37 from the tick's period: floor(P / 1.25 ns) - 64. -/
def budgetOf (ns frac : Nat) : Nat := (ns * 65536 + frac) / 81920 - 64

/-- B of the committed tick. -/
def State.budget (s : State) : Nat := budgetOf (s.get GLB_TICK_PER_NS) (s.get GLB_TICK_FRAC_FRAC)

/-- Core clocks of 1.25 ns that have passed in the current tick (R140: they are counted, not read from a time base). -/
def tickClocks (s : State) : Nat := (s.now - s.tick.startAt) * 4 / 5

/-- Whether a processor counts budget (R140): until it starts a wait-tick, and in one that runs past T (R159). -/
def counting (s : State) (g : Nat) : Bool :=
  let x := s.sp g
  decide (x.run = .waitTime) || (decide (x.run = .exec) && (x.crossed || (spWord s g).bmode != 5))

/-- The budget count of R140: the clocks of the words and traps taken, and no less than the clocks that have passed in the
tick outside wait-ticks while the processor counts. -/
def budgetCount (s : State) (g : Nat) : Nat :=
  let x := s.sp g
  if s.tick.cur && counting s g then max x.count (tickClocks s - x.skew) else x.count

/-- BLEFT (R140). -/
def bleft (s : State) (g : Nat) : Nat := s.budget - budgetCount s g

/-- The end of the budget, C, on the tick's time base in 2^-16 ns (R158). -/
def cutInstant (s : State) : Nat := (s.tick.start + s.budget * 81920) % 2 ^ 48

/-- A tick is current and C has not been reached: words and traps may start (R159). -/
def beforeC (s : State) : Bool := s.tick.cur && !isPast48 (cutInstant s) (s.tbStamp s.tickTb)

/-- A sync round of the tick's time base begins in the current tick (R133, R315). -/
def roundStart (s : State) : Bool :=
  s.tick.cur && s.get GLB_TICK_NUM_NUM % (s.get (SYN_CTL_ROUND s.tickTb) + 1) == 0

/-! ### Condition groups -/

/-- A process-image slot beyond its register. -/
def State.slot (s : State) (n : Nat) : PiSt := tget PiSt.rst s.pi n
/-- Replace a slot. -/
def State.setSlot (s : State) (n : Nat) (x : PiSt) : State := { s with pi := tset PiSt.rst s.pi n x }

/-- A comparator. -/
def Sp.cmp (x : Sp) (k : Nat) : Tcmp := tget Tcmp.rst x.tcmp k
/-- A work register. -/
def Sp.reg (x : Sp) (i : Nat) : Nat := tget 0 x.w i

/-- A queue that holds a frame which may be sent: its tail has arrived, or it was admitted cut through, and no recovery instance holds
it. -/
def queueReady (s : State) (p tc : Nat) : Bool := (s.queue p tc).any (fun f => (!f.arriving || f.cutOk) && !f.held)

/-- MACsec ok of group 12 (R133). -/
def macsecOk (s : State) (p : Nat) : Bool :=
  !s.flag (PRT_SEC_CFG_EN p) || (s.flag (PRT_SEC_STAT_TXSA p) && s.get (PRT_SEC_STAT_RXSA p) ≥ 1)

/-- Four flags as a number, first in bit 0. -/
def four (a b c d : Bool) : Nat := a.toNat + 2 * b.toNat + 4 * c.toNat + 8 * d.toNat

/-- The 4-bit value of a condition group (R132, R133). -/
def condGroup (s : State) (g n : Nat) : Nat :=
  let x := s.sp g
  let p := 8 * g + x.psel
  if n < 8 then
    four (x.cmp (4 * n)).fired (x.cmp (4 * n + 1)).fired (x.cmp (4 * n + 2)).fired (x.cmp (4 * n + 3)).fired
  else match n with
  | 8 => four (queueReady s p 0) (queueReady s p 1) (queueReady s p 2) (queueReady s p 3)
  | 9 => four (queueReady s p 4) (queueReady s p 5) (queueReady s p 6) (queueReady s p 7)
  | 10 => four (s.flag (CRF_ST_STAT_ARRIVED x.stsel)) (s.flag (CRF_ST_STAT_READY x.stsel))
            (s.flag (CRF_ST_STAT_POUR_OPEN x.stsel)) (s.flag (CRF_ST_STAT_INTEG x.stsel))
  | 11 => four (s.flag (CRF_PI_SLOT_NEW x.pisel)) (s.flag (CRF_PI_SLOT_STALE x.pisel))
            (s.slot x.pisel).flipPend (s.slot x.pisel).ovfLast
  | 12 => four (s.flag (PRT_MM_HOLD p)) (fragInFlight s p) (s.flag (PRT_STAT_LINK p)) (macsecOk s p)
  | 13 => four (s.tick.cur && decide (tickClocks s < 64)) (decide (bleft s g < s.get (SP_BUDGET_LOW_LOW g)))
            (roundStart s) (s.tick.late || x.late)
  | 14 => x.flags % 16
  | _ => x.flags / 16 % 16

/-! ### Operands (R123) -/

/-- A listed operand code. -/
def codeListed (c : Nat) : Bool := c ≤ 0x14 || (0x18 ≤ c && c ≤ 0x45)

/-- A code that may be written: work and selection registers, FLAGS. -/
def codeWritable (c : Nat) : Bool := c ≤ 0x0F || (0x11 ≤ c && c ≤ 0x14)

/-- A code that may be read; NEXTEV is write-only. -/
def codeReadable (c : Nat) : Bool := codeListed c && c != 0x1D

/-- What stands outside processor `g` for a word whose first clock is `wait` base clocks from now (R123, R130). -/
def spReads (s : State) (g wait : Nat) : SpRead :=
  let x := s.sp g
  let p := 8 * g + x.psel
  { at_ := s.now + wait, tstart := s.tick.start / 65536, num := s.get GLB_TICK_NUM_NUM,
    pmode := s.get (PRT_STAT_CUR_MODE p) + 16 * s.get (PRT_STAT_LINK p) + 32 * shownState s p,
    arg := s.get (SP_HOSTREQ_ARG g), dev := (s.slot x.pisel).dev }

/-- The value of an operand (R123), as the word finds it in its first clock (R130), when the budget count stood at `count`. -/
def operand (s : State) (g : Nat) (u : UWord) (c : Nat) : Nat :=
  let x := s.sp g
  if c < 0x10 then x.reg c
  else if 0x20 ≤ c ∧ c < 0x40 then (x.cmp (c - 0x20)).target
  else if 0x40 ≤ c ∧ c < 0x44 then s.get (SP_TF_W_W g (c - 0x40))
  else match c with
  | 0x10 => u.imm % 2 ^ 32
  | 0x11 => x.flags
  | 0x12 => x.psel
  | 0x13 => x.stsel
  | 0x14 => x.pisel
  | 0x18 => x.nowAt
  | 0x19 => x.rd.tstart
  | 0x1A => x.rd.num
  | 0x1B => s.budget - x.count
  | 0x1C => x.rd.pmode
  | 0x1E => s.get (SP_TF_CTL_CAUSE g)
  | 0x1F => x.rd.arg
  | 0x44 => s.get (SP_TF_CTL_PC g)
  | 0x45 => s.get (SP_TF_CTL_FLAGS g)
  | _ => 0

/-- Write an operand of a processor's own registers (R123): selection registers take their low bits. -/
def Sp.put (x : Sp) (c v : Nat) : Sp :=
  if c < 0x10 then { x with w := tset 0 x.w c (v % 2 ^ 32) }
  else match c with
  | 0x11 => { x with flags := v % 256 }
  | 0x12 => { x with psel := v % 8 }
  | 0x13 => { x with stsel := v % 64 }
  | 0x14 => { x with pisel := v % 256 }
  | _ => x

end Sys2Proof.Machine
end

