-- ==== Sys2Proof/Machine/Sp.lean ====
section
/-! DEFINITION. Running a microword: fetch with parity (R118), legality (R119, R123, R125, R129), traps (R137 to R139),
branches (R120 to R122), held runs (R134), staging (R135), and the visible writes of gates, holds and launches
(R83, R97, R125 to R128). -/

namespace Sys2Proof.Machine

/-- Base clock count of an operation (R125); none for a code that is not listed. -/
def opBase : Nat → Option Nat
  | 0x00 => some 1
  | 0x01 => some 1
  | 0x02 => some 1
  | 0x03 => some 1
  | 0x04 => some 1
  | 0x05 => some 1
  | 0x06 => some 1
  | 0x07 => some 1
  | 0x08 => some 1
  | 0x09 => some 1
  | 0x0A => some 2
  | 0x0B => some 1
  | 0x10 => some 1
  | 0x18 => some 1
  | 0x19 => some 2
  | 0x1A => some 1
  | 0x1B => some 1
  | 0x1C => some 2
  | 0x20 => some 2
  | 0x21 => some 2
  | 0x22 => some 2
  | 0x28 => some 2
  | 0x30 => some 1
  | _ => none

/-- Operations for which STAGE = 1 is illegal (R125). -/
def noStage (op : Nat) : Bool :=
  op == 0x10 || op == 0x1C || op == 0x20 || op == 0x21 || op == 0x22 || op == 0x28 || op == 0x30

/-- Operations that write D (R123). -/
def writesD (op : Nat) : Bool := (1 ≤ op && op ≤ 8) || op == 0x0A

/-- Operations that read D (R123). -/
def readsD (op : Nat) : Bool := (2 ≤ op && op ≤ 9) || op == 0x0B

/-- Operations that read S: all but NOP, HOLD, RELEASE and COMMIT (R123). -/
def readsS (op : Nat) : Bool := op != 0x00 && op != 0x1A && op != 0x1B && op != 0x30

/-- The operand rules of R123. -/
def operandsLegal (u : UWord) : Bool :=
  codeListed u.dst && codeListed u.src &&
  (!readsS u.op || codeReadable u.src) &&
  (!writesD u.op || codeWritable u.dst || (u.op == 0x01 && u.dst == 0x1D)) &&
  (!readsD u.op || (codeReadable u.dst && u.dst != 0x10)) &&
  (u.op != 0x10 || (0x20 ≤ u.dst && u.dst ≤ 0x3F))

/-- The block of R129: table address, buffer offset, length. -/
structure Block where
  tab : Nat
  buf : Nat
  len : Nat
  deriving DecidableEq, Repr

/-- The block a word names (R129). -/
def blockOf (s : State) (g : Nat) (u : UWord) : Block :=
  { tab := (operand s g u u.src + u.imm % 2 ^ 15) % 2 ^ 15, buf := bits u.imm 27 16, len := bits u.imm 43 32 + 1 }

/-- A station's tick state. -/
def State.stn (s : State) (st : Nat) : StnSt := tget StnSt.rst s.stns st
/-- Replace a station's tick state. -/
def State.setStn (s : State) (st : Nat) (x : StnSt) : State := { s with stns := tset StnSt.rst s.stns st x }

/-- A split station is the ring member's where it has an enabled entry and a pour region or a sip range (R505: no field tells the two
roles; log entry 17). -/
def ringSide (s : State) (st : Nat) : Bool :=
  s.flag (CRF_CAR_CFG_EN (s.get (CRF_ST_CFG_CAR st))) &&
  (s.get (CRF_ST_POUR_LEN st) != 0 || (List.range 4).any (fun k => s.flag (CRF_ST_SIPA_EN st k)))

/-- A station that this member serves for another member's ring (R505). -/
def servesRemote (s : State) (st : Nat) : Bool := s.flag (CRF_ST_REMOTE_EN st) && !ringSide s st

/-- Whether the pour latch of a station served for another member is due (R505): T - 2,030 ns has come, and it has not been taken for the
tick to come. -/
def remoteDue (s : State) (st : Nat) : Bool :=
  s.flag CRF_CTL_RUN && s.flag (CRF_ST_CFG_EN st) && servesRemote s st && (s.stn st).rtick != s.tick.idx + 1 &&
  decide (0 ≤ diff48 (s.tbStamp s.tickTb) (s.tick.next + 2 ^ 48 - 65536 * 2030))

/-- That latch (R505): the station's pour data goes to the ring member, of kind 3: station, STALE and OVR, bytes. -/
def remoteLatch (s : State) (st : Nat) : State :=
  let host := s.flag (CRF_ST_CFG_HOSTB st)
  let out := s.get (CRF_ST_SLOTS_OUT st)
  let g := s.get (CRF_ST_CFG_SP st)
  let s1 := if host then s.putBytes (pourA st) (s.bytes (piA out (s.slot out).dev) 1024) else s
  let stale := if host then s.flag (CRF_PI_SLOT_STALE out) else s.flag (CRF_ST_STAT_POUR_OPEN st)
  let ovr := !host && ((s.sp g).cut || decide ((s.sp g).run = .mck) || decide ((s.sp g).run = .reload))
  let s2 := ((s1.setStn st { s1.stn st with rtick := s.tick.idx + 1 }).setB (CRF_ST_STAT_STALE st) stale).set (CRF_ST_STAT_POUR_OPEN st) 1
  s2.emit (.ulicon 128 3 ([st, stale.toNat + 2 * ovr.toNat] ++ (s1.bytes (pourA st) 1024).map (·.toNat)))

/-- A station bound to processor `g` (R129, R214). A split station is served where SP names it (R505). One
whose EN is 0 is bound to none (DESIGN CHOICE, log entry 117). -/
def stationOf (s : State) (g st : Nat) : Bool :=
  s.flag (CRF_ST_CFG_EN st) && !s.flag (CRF_ST_CFG_HOSTB st) && s.get (CRF_ST_CFG_SP st) == g

/-- The length of a station's pour region (R129, R216); a serving member ignores its own pour fields (R505). -/
def pourLen (s : State) (st : Nat) : Nat :=
  if s.flag (CRF_ST_REMOTE_EN st) then 1024 else min 1024 (s.get (CRF_ST_POUR_LEN st))

/-- The block rules of R129. -/
def blockLegal (s : State) (g : Nat) (u : UWord) : Bool :=
  let b := blockOf s g u
  let st := (s.sp g).stsel
  let n := (s.sp g).pisel
  b.tab + b.len ≤ 0x8000 &&
  (match u.op with
   | 0x20 => stationOf s g st && b.buf + b.len ≤ pourLen s st
   | 0x21 => stationOf s g st && b.buf + b.len ≤ 2048
   | _ => b.buf + b.len ≤ 1024 && s.flag (CRF_PI_SLOT_EN n) && s.get (CRF_PI_SLOT_DIR n) == u.mask % 2)

/-- Whether a word is legal (R119, R123, R125, R129). -/
def wordLegal (s : State) (g : Nat) (u : UWord) : Bool :=
  match opBase u.op with
  | none => false
  | some b =>
    b ≤ u.cyc + 1 && operandsLegal u && !(u.stage && noStage u.op) &&
    (!(0x20 ≤ u.op && u.op ≤ 0x22) || blockLegal s g u)

/-- Clocks a word takes, waits apart (R119). -/
def wordClocks (s : State) (g : Nat) (u : UWord) : Nat :=
  u.cyc + 1 + (if 0x20 ≤ u.op ∧ u.op ≤ 0x22 then ((blockOf s g u).len + 31) / 32 else 0)

/-- The word at the PC begins `wait` base clocks from now: whether before C (R159), NOW in its first clock (R123), and what it finds there
(R130). The host's writes of table memory before this clock are behind it. -/
def wordStartIn (s : State) (g wait : Nat) : State :=
  let x := s.sp g
  let start := tbStampIn s s.tickTb (256 * wait)
  s.setSp g { x with
    begun := s.tick.cur && !isPast48 (cutInstant s) start, crossed := false, nowAt := start / 65536 % 2 ^ 32,
    rd := spReads s g wait, hostW := x.hostW.filter (fun e => s.now ≤ e.1) }

/-- The word at the PC begins now. -/
def wordStart (s : State) (g : Nat) : State := wordStartIn s g 0

/-- Clocks join the count (R140), which is no less than the clocks that have passed. -/
def addClocks (s : State) (g n : Nat) : State :=
  s.setSp g { s.sp g with count := max ((s.sp g).count + n) (budgetCount s g) }

/-! ### Traps -/

/-- Enter a trap (R139), in the first clock of the entry: the frame, 4 clocks, after which the vector word begins. -/
def trapEnter (s : State) (g v : Nat) (wait : Bool) : State :=
  let x := s.sp g
  let r0 := s.setW (SP_TF_CTL g)
    (w32 (2 ^ 31 + (if wait then 2 ^ 30 else 0) + v % 16 * 2 ^ 24 + x.flags % 256 * 65536 + x.pc % 8192))
  let r1 := (r0.set (SP_TF_W_W g 0) (x.reg 0)).set (SP_TF_W_W g 1) (x.reg 1)
  let r2 := (r1.set (SP_TF_W_W g 2) (x.reg 2)).set (SP_TF_W_W g 3) (x.reg 3)
  let s1 := r2.inc (SP_CNT_TRAPS g)
  let skew := if x.run = .waitTick then tickClocks s - x.count else x.skew
  wordStartIn (s1.setSp g { x with
    pc := 0x1000 + v, inTrap := true, run := .exec, holdRun := 0, count := budgetCount s g + 4, skew := skew,
    vec0 := false }) g 5

/-- A synchronous trap (R138): taken instead of the word; in a trap routine it is a double trap (R139). -/
def syncTrap (s : State) (g v : Nat) : State :=
  if (s.sp g).inTrap then machineCheckOp s g 3 0 (s.sp g).pc else trapEnter s g v false

/-! ### Visible writes -/

/-- A frame of a class whose gate closes in the clock in which it started waits in its queue after all (R114). Results that a host frame's
descriptor has already taken stay (log entry 11). -/
def unstart (s : State) (p : Nat) : State :=
  let x := s.port p
  match x.tx with
  | none => s
  | some t =>
    match t.fr with
    | none => s
    | some f =>
      if t.startAt ≠ s.now ∨ t.again ∨ f.due ∨ f.host.isSome ∨ s.get (PRT_GATE_OPEN p) / 2 ^ f.tc % 2 = 1 then s
      else
        let s1 := addCnt (addCnt s (PRT_CNT_TX_FRAMES p) (2 ^ 64 - 1)) (PRT_CNT_TX_BYTES p) (2 ^ 64 - t.len)
        let sent := s1.out.reverse.find? (fun e => match e with | .frame q _ => q == p | _ => false)
        let prot := s1.flag (PRT_SEC_CFG_EN p) && (match sent with | some (.frame _ b) => !uncontrolled b | _ => false)
        { (s1.setPort p { x with tx := none }).setQueue p f.tc ({ f with cutOk := f.cutOk || f.arriving } :: s1.queue p f.tc) with
          out := (match sent with | some e => (s1.out.reverse.erase e).reverse | none => s1.out)
          txPn := if prot then tset 0 s1.txPn p (tget 0 s1.txPn p - 1) else s1.txPn }

/-- A gate mask takes effect (R83); the port leaves the fail-safe state of R84. A close wins over a start of its own clock (R114). -/
def applyGate (s : State) (p v : Nat) : State :=
  let s1 := s.set (PRT_GATE_OPEN p) (v % 256)
  unstart (s1.setPort p { s1.port p with safe := false }) p

/-- A stream gate's OPEN (R95, R127). -/
def applySgate (s : State) (i v : Nat) : State := s.setStr 3 i 0 (putBits (s.strW 3 i 0) 31 31 v)

/-- The preemption hold of a port (R97): HOLD has no effect while preemption is not active. -/
def applyHold (s : State) (p v : Nat) : State :=
  if v = 1 ∧ !(s.port p).preempt then s else s.set (PRT_MM_HOLD p) v

/-- The NEXTEV report of a port (R123, R461); what it replaces stands for the evaluations of this clock (R470). -/
def applyNextev (s : State) (p v : Nat) : State :=
  let was := tget (0, none) s.nextevWas p
  { s with
    nextev := tset none s.nextev p (some v)
    nextevWas := if was.1 = s.now then s.nextevWas else tset (0, none) s.nextevWas p (s.now, tget none s.nextev p) }

/-- A table word as a processor reads it in base clock `t`: one that the host has written in that clock or since still reads as it was
(R130, R155, R177). -/
def tableAt (s : State) (g a t : Nat) : Nat :=
  match (s.sp g).hostW.find? (fun e => t ≤ e.1 && e.2.1 == a) with
  | some e => e.2.2
  | none => s.mem.getLE (tmA g 0 + a) 4

/-- A table word as it reads in this clock. -/
def tableWord (s : State) (g a : Nat) : Nat := tableAt s g a s.now

/-- The base clock in which a block operation that began at `t` moves its byte `j`: 32 bytes per core clock (R119, R155). -/
def blockClock (t j : Nat) : Nat := t + j / 32 * 5 / 4

/-- The bytes of table memory that a block operation begun at `t` reads (R129, R155): a mix of old and new words where the host writes. -/
def tableRun (s : State) (g a len t : Nat) : Bytes :=
  if (s.sp g).hostW.isEmpty then s.bytes (tmA g 0 + a) len
  else (List.range len).map (fun j => b8 (tableAt s g ((a + j) / 4 * 4) (blockClock t j) / 256 ^ ((a + j) % 4)))

/-- The bytes of a sip buffer that a block operation begun at `t` reads (R129, R220): what a range held until it settled, where its bytes
are read no later than that clock. -/
def sipRun (s : State) (st o len t : Nat) : Bytes :=
  let olds := (s.stn st).olds
  let now := s.bytes (sipA st + o) len
  if olds.all (fun e => e.1 < t) then now
  else now.mapIdx (fun j b =>
    match olds.find? (fun e => blockClock t j ≤ e.1 && e.2.1 ≤ o + j && o + j < e.2.1 + e.2.2.length) with
    | some e => e.2.2.getD (o + j - e.2.1) 0
    | none => b)

/-- The host writes a table word in this clock: what it held is kept for the reads of this clock and before (R130, R155). -/
def noteTable (s : State) (g a : Nat) : State :=
  let x := s.sp g
  if x.hostW.any (fun e => e.1 == s.now && e.2.1 == a) then s
  else s.setSp g { x with hostW := x.hostW ++ [(s.now, a, s.mem.getLE (tmA g 0 + a) 4)] }

/-- A table word of processor `g`. -/
def applyTable (s : State) (g a v : Nat) : State := s.putBytes (tmA g 0 + a) (leBytes 4 v)

/-- Apply one staged write (R135). -/
def applyStage (g : Nat) (s : State) (e : StageKey × Nat) : State :=
  match e.1 with
  | .gate p => applyGate s p e.2
  | .sgate i => applySgate s i e.2
  | .hold p => applyHold s p e.2
  | .nextev p => applyNextev s p e.2
  | .table a => applyTable s g a e.2

/-- What the committed state holds under a stage key (R135). -/
def committed (s : State) (g : Nat) (k : StageKey) : Nat :=
  match k with
  | .gate p => s.get (PRT_GATE_OPEN p)
  | .sgate i => bits (s.strW 3 i 0) 31 31
  | .hold p => s.get (PRT_MM_HOLD p)
  | .nextev p => (tget none s.nextev p).getD 0
  | .table a => s.mem.getLE (tmA g 0 + a) 4

/-- A cut-off in the last clock of a COMMIT word wins (R155): stream gates, holds and table words are as before that COMMIT; the masks and
the NEXTEV reports are the cut-off's own. -/
def undoCommit (s : State) (g : Nat) : State :=
  match (s.sp g).undoCommit with
  | none => s
  | some (t, was) =>
    if t ≠ s.now then s
    else was.foldl (fun u e => match e.1 with
      | .gate _ => u
      | .nextev _ => u
      | .hold p => u.set (PRT_MM_HOLD p) e.2
      | .sgate i => applySgate u i e.2
      | .table a => applyTable u g a e.2) (s.setSp g { s.sp g with undoCommit := none })

/-- Put writes into a stage buffer (R135): a key already held has its value replaced. None when a 33rd key would be
needed. -/
def stagePut (b : List (StageKey × Nat)) (ws : List (StageKey × Nat)) : Option (List (StageKey × Nat)) :=
  let b' := ws.foldl (fun t w =>
    if t.any (fun e => decide (e.1 = w.1)) then t.map (fun e => if e.1 = w.1 then w else e) else t ++ [w]) b
  if b'.length > 32 then none else some b'

/-- Visible writes of a word: staged or applied (R135). None stands for the STAGE_OVF trap. -/
def visible (s : State) (g : Nat) (stage : Bool) (ws : List (StageKey × Nat)) : Option State :=
  if stage then
    (stagePut (s.sp g).stage ws).map (fun b => s.setSp g { s.sp g with stage := b })
  else some (ws.foldl (applyStage g) s)

/-- Ports of group `g` in MASK (R125). -/
def portsIn (g mask : Nat) : List Nat :=
  ((List.range 8).filter (fun i => mask / 2 ^ i % 2 == 1)).map (fun i => 8 * g + i)

/-- LAUNCH on one port's timed-release queue (R88, R128): release the oldest `n` cued entries (all for 0). -/
def launchPort (s : State) (p n : Nat) (at_ : Option Nat) : State :=
  let q := s.queue p 8
  let cued := q.filter (fun f => f.cue && !f.arriving && !f.held)
  let rel := if n = 0 then cued else cued.take n
  let ids := rel.map (·.id)
  let keep := q.filter (fun f => !(f.cue && ids.contains f.id))
  let up := s.flag (PRT_STAT_LINK p)
  match at_ with
  | none =>
    if up then
      addCnt (s.setQueue p 8 ((rel.map (fun f => { f with cue := false, due := true, t := s.tickNs })).foldl trqInsert keep))
        (PRT_CNT_TRQ_SLIP p) (rel.length - (trqClear s p && !copyDue s p).toNat)
    else skipEntries s p (fun f => f.cue && ids.contains f.id)
  | some t =>
    let late := isPast t s.tickNs
    if late && !up then skipEntries s p (fun f => f.cue && ids.contains f.id)
    else
      let s1 := s.setQueue p 8
        ((rel.map (fun f => { f with cue := false, due := late, t := t })).foldl trqInsert keep)
      if late then addCnt s1 (PRT_CNT_TRQ_LATE p) rel.length else s1

/-! ### Branches -/

/-- The run state after a word's branch (R120, R121): conditions are sampled after the operation. -/
def branch (s : State) (g : Nat) (u : UWord) : State :=
  let x := s.sp g
  let seq := (x.pc + 1) % 8192
  match u.bmode with
  | 0 => s.setSp g { x with pc := seq }
  | 1 => s.setSp g { x with pc := u.next }
  | 2 => s.setSp g { x with pc := u.next ||| condGroup s g u.csel }
  | 3 => s.setSp g { x with pc := u.next, stack := seq :: x.stack }
  | 4 => s.setSp g { x with pc := x.stack.headD 0, stack := x.stack.tail }
  | 5 => s.setSp g (if x.crossed then { x with pc := u.next } else { x with run := .waitTick })
  | 6 => if condGroup s g u.csel ≠ 0 then s.setSp g { x with pc := u.next } else s.setSp g { x with run := .waitTime }
  | _ =>
    let pc := s.get (SP_TF_CTL_PC g)
    let w := (List.range 4).foldl (fun t i => tset 0 t i (s.get (SP_TF_W_W g i))) x.w
    let wb := (microword s g pc).bmode
    let run := if s.flag (SP_TF_CTL_RESUME_WAIT g) then (if wb = 5 then SpRun.waitTick else SpRun.waitTime) else SpRun.exec
    s.setSp g { x with
      pc := pc, flags := s.get (SP_TF_CTL_FLAGS g), w := w, inTrap := false, run := run,
      count := if run = .waitTick then budgetCount s g else x.count }

/-- The STACK trap's condition (R122, R137). -/
def stackFault (x : Sp) (u : UWord) : Bool :=
  (u.bmode == 3 && x.stack.length ≥ 8) || (u.bmode == 4 && x.stack.isEmpty)

/-- A word that counts as held (R134): HOLD = 1 and not a wait. -/
def heldWord (u : UWord) : Bool := u.hold && u.bmode != 5 && u.bmode != 6

/-- The run of held words after this word (R134): a 17th begins a new run and sets HOLD_LONG. -/
def holdCount (s : State) (g : Nat) (u : UWord) : State :=
  let x := s.sp g
  if !heldWord u then s.setSp g { x with holdRun := 0 }
  else if x.holdRun = 16 then (s.set (SP_STAT_HOLD_LONG g) 1).setSp g { x with holdRun := 1 }
  else s.setSp g { x with holdRun := x.holdRun + 1 }

/-- A wait-tick word that began before C completes whenever it ends (R159, R160). -/
def lastWord (s : State) (g : Nat) : Bool :=
  let u := spWord s g
  (s.sp g).begun && u.bmode == 5 && csSyndrome (csWord s g (s.sp g).pc) == 0 && wordLegal s g u

/-- Whether a word of processor `g` may end now (R159, R161): it executes, and C has not come or does not stop it. -/
def spReady (s : State) (g : Nat) : Bool :=
  !s.fatal && decide ((s.sp g).run = .exec) && (beforeC s || lastWord s g)

/-- Run one word (R118 to R122, R130, R137, R140), at the end of its last clock: `eff` is the operation's effect on the state, none when
it needs a 33rd stage key. A word with a wait-tick stops the count as it starts; one that ran past T goes straight on at NEXT, and its
clocks after T count (R159). -/
def runWord (s : State) (g : Nat) (eff : UWord → State → Option State) : State :=
  let x := s.sp g
  let syn := csSyndrome (csWord s g x.pc)
  let u := spWord s g
  if syn ≠ 0 then machineCheckOp s g 1 syn x.pc
  else if !wordLegal s g u then syncTrap s g 1
  else if stackFault x u then syncTrap s g 2
  else
    match eff u s with
    | none => syncTrap s g 3
    | some s1 =>
      let s2 := holdCount s1 g u
      let s3 := if u.bmode = 5 then addClocks s2 g 0 else addClocks s2 g (wordClocks s g u)
      let s4 := branch s3 g u
      wordStart (s4.setSp g { s4.sp g with vec0 := false }) g

/-- A row's word: the command has an effect only when the word at the PC is one of that row's (`mine`). -/
def spCommand (s : State) (g : Nat) (mine : UWord → Bool) (eff : UWord → State → Option State) : Out :=
  if spReady s g && mine (spWord s g) then .next (runWord s g eff) else .next s

/-- Write the result of MOV, LDT and the arithmetic operations to D (R123, R124). -/
def writeD (s : State) (g c v : Nat) : State := s.setSp g ((s.sp g).put c v)

/-- The effect of an arithmetic or logic word: result to D, flags unless D is FLAGS (R124). -/
def aluEff (g : Nat) (o : AluOp) (u : UWord) (s : State) : Option State :=
  let d := operand s g u u.dst
  let x := operand s g u u.src
  let r := aluResult o d x
  let p := s.sp g
  some (s.setSp g (if u.dst = 0x11 then p.put 0x11 r else { (p.put u.dst r) with flags := aluFlags o p.flags d x }))

end Sys2Proof.Machine
end

