-- ==== Sys2Proof/Machine/Gcl.lean ====
section
/-! DEFINITION. The standard gate-control-list program of vendor ROM (R164 to R177): what the spec says it does, in sections of which
each is one command of the processor (DESIGN CHOICE, log entry 100). -/

namespace Sys2Proof.Machine

/-! ### Its table memory (R166, R167) -/

/-- A table word of the program becomes `v` modulo 2^32. -/
def gclPut (s : State) (g a v : Nat) : State := applyTable s g a (v % 2 ^ 32)

/-- A counter of the status block rises, modulo 2^32; the increment is lost in a clock in which the host writes it (R167). -/
def gclCount (s : State) (g a : Nat) : State :=
  if (s.sp g).hostW.any (fun e => e.1 == s.now && e.2.1 == a) then s else gclPut s g a (tableWord s g a + 1)

/-- LATE_EXEC. -/
def LATE_EXEC : Nat := 0x04
/-- LATE_SKIP. -/
def LATE_SKIP : Nat := 0x08
/-- RECONCILED. -/
def RECONCILED : Nat := 0x0C
/-- SWAPS. -/
def SWAPS : Nat := 0x10
/-- ENTRIES. -/
def ENTRIES : Nat := 0x14
/-- HOOK. -/
def HOOK : Nat := 0x20

/-- A port descriptor (R168). -/
structure GclDesc where
  en : Bool
  sel : Nat
  nmode : Nat
  list0 : Nat
  list1 : Nat
  listR : Nat
  cyc : Nat
  base : Nat
  swapAt : Nat
  deriving DecidableEq, Repr

/-- The descriptor of port 8g + i. -/
def gclDesc (s : State) (g i : Nat) : GclDesc :=
  let w := fun k => tableWord s g (0x40 + 0x20 * i + 4 * k)
  { en := bits (w 0) 31 31 == 1, sel := bits (w 0) 30 30, nmode := bits (w 0) 27 24, list0 := w 1, list1 := w 2, listR := w 3,
    cyc := w 4, base := w 5, swapAt := w 6 }

/-- A list entry (R169). -/
structure GclEntry where
  op : Nat
  late : Nat
  gates : Nat
  iv : Nat
  deriving DecidableEq, Repr

/-- The entries of a list that a descriptor names by its N and ADDR. -/
def gclEntries (s : State) (g w : Nat) : List GclEntry :=
  (List.range (min 4032 (w / 65536))).map (fun j =>
    let a := (w % 65536 + 8 * j) % 2 ^ 15 / 4 * 4
    let x := tableWord s g a
    { op := bits x 31 30, late := bits x 29 28, gates := bits x 7 0, iv := tableWord s g ((a + 4) % 2 ^ 15) })

/-- The state words of port 8g + i (R167): a field of the first, and one of the others. -/
def gclState (s : State) (g i hi lo : Nat) : Nat := bits (tableWord s g (0x140 + 0x10 * i)) hi lo

/-- A field of the first state word is written. -/
def gclSet (s : State) (g i hi lo v : Nat) : State :=
  let a := 0x140 + 0x10 * i
  let w := tableWord s g a
  gclPut s g a (w - bits w hi lo * 2 ^ lo + v % 2 ^ (hi - lo + 1) * 2 ^ lo)

/-- RUNNING. -/
def gclRuns (s : State) (g i : Nat) : Bool := gclState s g i 31 31 == 1

/-- The running ports of the group. -/
def gclPorts (s : State) (g : Nat) : List Nat := (List.range 8).filter (gclRuns s g)

/-- CYC_START. -/
def gclStart (s : State) (g i : Nat) : Nat := tableWord s g (0x148 + 0x10 * i)

/-- The program's own state is replaced. -/
def gclHold (s : State) (g : Nat) (f : Gcl → Gcl) : State := s.setSp g { s.sp g with gcl := f (s.sp g).gcl }

/-- A bit of a mask of ports. -/
def maskPut (m i : Nat) (b : Bool) : Nat := m - (m / 2 ^ i % 2) * 2 ^ i + (if b then 2 ^ i else 0)

/-- The status word 0x0000 follows the ports that run (R167). -/
def gclStatus (s : State) (g : Nat) : State :=
  let w := tableWord s g 0
  gclPut s g 0 (2 ^ 24 + bits w 15 8 * 256 + ((gclPorts s g).map (fun i => 2 ^ i)).sum)

/-- An event of the program (R165): what its data is, but for TCAUSE, the spec does not say (a free value, log entry 101). -/
def gclEvent (s : State) (g code : Nat) : State :=
  let (d, s1) := s.draw
  postRec s1 (1 + g) (0x3000 + g) code (d % 2 ^ 32) 1 (s.sp g).pc

/-- What the program leaves in the registers it uses, W0 to W7, the flags and PSEL, is not stated (log entry 101); in a trap routine the
interrupted program finds PSEL as it was. -/
def gclScratch (s : State) (g : Nat) : State :=
  let s1 := (List.range 8).foldl (fun t i =>
    let (d, t1) := t.draw
    t1.setSp g ((t1.sp g).put i d)) s
  let (d, s2) := s1.draw
  let x := s2.sp g
  s2.setSp g { x with
    flags := x.flags / 16 * 16 + d % 16
    psel := if x.inTrap then x.psel else d / 16 % 8 }

/-! ### Cycles and entries (R170) -/

/-- The entries of one cycle that are used, each with the time after the cycle start at which it takes effect. -/
def gclPlan (cyc : Nat) : Nat → List GclEntry → List (Nat × GclEntry)
  | _, [] => []
  | o, e :: r => if o < cyc then (o, e) :: gclPlan cyc (o + e.iv) r else []

/-- The list in use (R167, R175): LISTR, else the active one. -/
def gclList (s : State) (g i : Nat) : Nat :=
  let d := gclDesc s g i
  if gclState s g i 29 29 = 1 then d.listR else if gclState s g i 30 30 = 1 then d.list1 else d.list0

/-- The port's cycle length, as read when it started (R174). -/
def gclCyc (s : State) (g i : Nat) : Nat := tget 0 (s.sp g).gcl.cyc i

/-- The port's entries in use. -/
def gclUsed (s : State) (g i : Nat) : List (Nat × GclEntry) := gclPlan (gclCyc s g i) 0 (gclEntries s g (gclList s g i))

/-- The hold state an entry leaves. -/
def GclEntry.holdAfter (e : GclEntry) (h : Nat) : Nat := if e.op = 1 then 1 else if e.op = 2 then 0 else h

/-- Whether an entry needs action at a port (R170): its gates or its hold state are not those in force. -/
def gclActs (s : State) (p : Nat) (e : GclEntry) : Bool :=
  e.gates != s.get (PRT_GATE_OPEN p) || e.holdAfter (s.get (PRT_MM_HOLD p)) != s.get (PRT_MM_HOLD p)

/-- The first entry from place `j` on that needs action. -/
def gclSeek (s : State) (g i j : Nat) : Option (Nat × Nat × GclEntry) :=
  let u := gclUsed s g i
  (List.range u.length).findSome? (fun k =>
    match u[k]? with
    | some (o, e) => if j ≤ k && gclActs s (8 * g + i) e then some (k, o, e) else none
    | none => none)

/-- Whether the port waits for a BASE in the future (R171). -/
def gclWaits (s : State) (g i : Nat) : Bool := (s.sp g).gcl.toBase / 2 ^ i % 2 == 1

/-- The port's next time at which the program looks at it: the next change of this cycle that needs action, else the next cycle start. -/
def gclNext (s : State) (g i : Nat) : Nat :=
  let c := gclStart s g i
  if gclWaits s g i then c
  else match gclSeek s g i (gclState s g i 15 0 + 1) with
    | some (_, o, _) => (c + o) % 2 ^ 32
    | none => (c + gclCyc s g i) % 2 ^ 32

/-- NEXT_T and NEXTEV (R167, R170): the time of the port's next change that needs action; where a whole cycle has none, the next cycle
start (DESIGN CHOICE, log entry 101). -/
def gclReport (s : State) (g i : Nat) : State :=
  let c := gclStart s g i
  let next := if gclWaits s g i then c else c + gclCyc s g i
  let t := match (if gclWaits s g i then none else gclSeek s g i (gclState s g i 15 0 + 1)), gclSeek s g i 0 with
    | some (_, o, _), _ => c + o
    | none, some (_, o, _) => next + o
    | none, none => next
  applyNextev (gclPut s g (0x144 + 0x10 * i) t) (8 * g + i) (t % 2 ^ 32)

/-- The port to serve first, with its time: the earliest, and of one time the lowest. -/
def gclFirst (s : State) (g : Nat) : Option (Nat × Nat) :=
  (gclPorts s g).foldl (fun m i =>
    let t := gclNext s g i
    match m with
    | some (k, u) => if diff32 t s.tickNs < diff32 u s.tickNs then some (i, t) else some (k, u)
    | none => some (i, t)) none

/-! ### Changes (R164, R173, R174) -/

/-- The gates of an entry take effect, and its hold or release. -/
def gclApply (s : State) (p : Nat) (e : GclEntry) : State :=
  let s1 := applyGate s p e.gates
  if e.op = 1 then applyHold s1 p 1 else if e.op = 2 then applyHold s1 p 0 else s1

/-- The list swap at the cycle start `t` (R174): SEL differs from ALT, and SWAP_AT is not after `t`. A list without entries is not
switched to (DESIGN CHOICE, log entry 101). -/
def gclSwap (s : State) (g i t : Nat) : State :=
  let d := gclDesc s g i
  let w := if d.sel = 1 then d.list1 else d.list0
  if d.sel = gclState s g i 30 30 ∨ !isPast d.swapAt t ∨ w / 65536 = 0 then s
  else gclEvent (gclCount (gclSet s g i 30 30 d.sel) g SWAPS) g 0x0F03

/-- The hold state the schedule prescribes at place `k` of the entries: that of the last entry before with OP 1 or 2, in this cycle or the
one before; without one, no hold. -/
def gclHoldAt (u : List (Nat × GclEntry)) (k : Nat) : Nat :=
  match (((u.take (k + 1)).reverse ++ u.reverse).find? (fun e => e.2.op == 1 || e.2.op == 2)) with
  | some e => e.2.holdAfter 0
  | none => 0

/-- Reconcile a port (R164, R171): its cycle becomes the one that contains the time `land` at which the effect lands, and it takes the
state its schedule prescribes for then. The clocks that takes (R172) come first; where whole cycles are stepped, the entries passed over are
those of the cycle it lands in (DESIGN CHOICE, log entry 118). A port that waits for its BASE is left. -/
def gclReconcile (s : State) (g i land : Nat) : Nat × State :=
  let c := gclStart s g i
  let cyc := max 1 (gclCyc s g i)
  let ago := diff32 land c
  if gclWaits s g i ∧ ago < 0 then (0, s)
  else
    let m := ago / (cyc : Int)
    let start := ofInt 32 ((c : Int) + m * (cyc : Int))
    let s1 := gclHold (gclPut s g (0x148 + 0x10 * i) start) g (fun x => { x with toBase := maskPut x.toBase i false })
    let s2 := if m = 0 then s1 else gclSwap s1 g i start
    let u := gclUsed s2 g i
    let off := (ago - m * (cyc : Int)).toNat
    let k := (u.filter (fun e => e.1 ≤ off)).length - 1
    let old := gclState s g i 15 0
    let cost := 20 + 6 * (if m = 0 then k - old else k) + 4 * m.natAbs
    match u[k]? with
    | none => (cost, gclReport (gclCount (gclSet s2 g i 15 0 0) g RECONCILED) g i)
    | some (_, e) =>
      let s3 := applyHold (applyGate s2 (8 * g + i) e.gates) (8 * g + i) (gclHoldAt u k)
      (cost, gclReport (gclCount (gclSet s3 g i 15 0 k) g RECONCILED) g i)

/-- Reconcile several ports, one after the other. -/
def gclReconcileAll (s : State) (g : Nat) (is : List Nat) : Nat × State :=
  is.foldl (fun r i =>
    let (c, t) := gclReconcile r.2 g i r.2.tickNs
    (r.1 + c, t)) (0, s)

/-- Whether a change at time `x` is late (R164, R173): it lies too close after the change time before it and the hook calls since, in the
last 125 ns of a tick, within the tick entry's clocks after a tick start, or its time has gone by, by 10 ns (DESIGN CHOICE, log entry
118). -/
def gclLate (s : State) (g x : Nat) : Bool :=
  let q := (s.sp g).gcl
  let at_ := 65536 * x
  let close := match (if (q.last.map (·.1)) = some x then q.prior else q.last) with
    | some (y, c) => decide (0 ≤ diff32 x y) && decide (diff32 x y * 4 < 5 * (c : Int))
    | none => false
  let left := diff48 s.tick.next at_
  let since := diff48 at_ s.tick.start
  close || (decide (0 < left) && decide (left ≤ 125 * 65536)) ||
    (decide (0 ≤ since) && decide (since < 81920 * (q.entry : Int))) || isPast ((x + 10) % 2 ^ 32) s.tickNs

/-- A change time has been served at one more port (R172, R173): 24 clocks, and 4 for each port that changes. -/
def gclServed (s : State) (g x extra : Nat) : State :=
  gclHold s g (fun q => match q.last with
    | some (y, c) => if y = x then { q with last := some (x, c + 4 + extra) } else { q with prior := q.last, last := some (x, 28 + extra) }
    | none => { q with last := some (x, 28 + extra) })

/-- Serve port 8g + i at time `x` (R170, R173, R174): at a cycle start the swap comes first; a change that needs no action is never late;
a late one follows its LATE field (R164, R169). The clocks come first. -/
def gclServe (s : State) (g i x : Nat) : Nat × State :=
  let p := 8 * g + i
  let found := if gclWaits s g i then none else gclSeek s g i (gclState s g i 15 0 + 1)
  let (k, s1) := match found with
    | some (k, _, _) => (k, s)
    | none =>
      let t := gclHold (gclPut s g (0x148 + 0x10 * i) x) g (fun q => { q with toBase := maskPut q.toBase i false })
      (0, gclSwap t g i x)
  let s2 := gclSet s1 g i 15 0 k
  match (gclUsed s2 g i)[k]? with
  | none => (0, gclReport s2 g i)
  | some (_, e) =>
    if !gclActs s2 p e then (0, gclReport s2 g i)
    else if !gclLate s2 g x then (4, gclReport (gclServed (gclApply s2 p e) g x 0) g i)
    else match e.late with
      | 0 => (4, gclReport (gclServed (gclCount (gclApply s2 p e) g LATE_EXEC) g x 0) g i)
      | 1 => (4, gclReport (gclServed (gclCount s2 g LATE_SKIP) g x 0) g i)
      | _ =>
        let (c, t) := gclReconcile s2 g i (if isPast x s.tickNs then s.tickNs else x)
        (4 + c, gclServed t g x c)

/-! ### Starting and stopping a port (R168, R169, R171, R175, R177) -/

/-- What is wrong with a list that a descriptor names (R167 to R169); `need` says that it must have entries. -/
def gclListErr (w : Nat) (need : Bool) : Option Nat :=
  let n := w / 65536
  let a := w % 65536
  if n = 0 then (if need then some 2 else none)
  else if a % 8 ≠ 0 ∨ a < 0x200 ∨ 0x8000 ≤ a then some 1
  else if 0x8000 < a + 8 * n then some 2
  else none

/-- What is wrong with the entries of a list. -/
def gclEntryErr (s : State) (g w : Nat) : Option Nat :=
  let l := gclEntries s g w
  if l.any (fun e => e.iv < 40) then some 4 else if l.any (fun e => e.op == 3) then some 5 else none

/-- The ERR code of a descriptor (R167), the lowest that applies; a CYCLE_NS above its limit counts as code 3 (DESIGN CHOICE, log entry
101). BASE is judged where the port starts from it. -/
def gclErr (s : State) (g i : Nat) (fresh : Bool) : Option Nat :=
  let d := gclDesc s g i
  let alt := if fresh then d.sel else gclState s g i 30 30
  let lists := [(d.list0, alt == 0), (d.list1, alt == 1), (d.listR, false)]
  let errs := lists.filterMap (fun l => gclListErr l.1 l.2) ++
    (if d.cyc < 1000 ∨ 1000000000 < d.cyc then [3] else []) ++
    lists.filterMap (fun l => if (gclListErr l.1 l.2).isNone then gclEntryErr s g l.1 else none) ++
    (if fresh ∧ diff32 s.tickNs d.base > 4096 * (d.cyc : Int) then [6] else [])
  [1, 2, 3, 4, 5, 6].find? (fun k => errs.contains k)

/-- Whether LISTR is the list to use (R175). -/
def gclRetreat (s : State) (g i : Nat) : Bool :=
  let d := gclDesc s g i
  s.get (PRT_STAT_CUR_MODE (8 * g + i)) != d.nmode && decide (1 ≤ d.listR / 65536)

/-- Start port 8g + i, or take it up again after a cut-off (R171): a bad descriptor is not run; else the cycle goes on from BASE, or from
the port's state, and the port is reconciled. A start begins with the list that SEL names (DESIGN CHOICE, log entry 101), and posts no
event 0x0F04 where that is LISTR (DESIGN CHOICE, log entry 118). -/
def gclBegin (s : State) (g i : Nat) : Nat × State :=
  let d := gclDesc s g i
  let fresh := !gclRuns s g i
  match gclErr s g i fresh with
  | some e =>
    let w := tableWord s g 0
    (0, gclEvent (gclPut (gclSet s g i 31 31 0) g 0 (w - bits w 15 8 * 256 + e * 4096 + i * 256)) g 0x0F02)
  | none =>
    let s1 := if fresh || gclCyc s g i == 0 then gclHold s g (fun q => { q with cyc := tset 0 q.cyc i d.cyc }) else s
    let s2 := if fresh then
        let ahead := decide (diff32 s.tickNs d.base < 0)
        let t := gclPut (gclSet (gclSet (gclSet s1 g i 30 30 d.sel) g i 31 31 1) g i 15 0 0) g (0x148 + 0x10 * i) d.base
        gclHold t g (fun q => { q with toBase := maskPut q.toBase i ahead })
      else s1
    gclReconcile (gclSet s2 g i 29 29 (gclRetreat s2 g i).toNat) g i s.tickNs

/-- A port whose EN is clear is driven no more (R177): its gates stay, its hold ends. -/
def gclStop (s : State) (g i : Nat) : State := applyHold (gclSet s g i 31 31 0) (8 * g + i) 0

/-- The check of the eight ports at a tick entry; `all` at vector 0. -/
def gclCheck (s : State) (g : Nat) (all : Bool) : Nat × State :=
  (List.range 8).foldl (fun r i =>
    let t := r.2
    let en := (gclDesc t g i).en
    let seen := (t.sp g).gcl.enSeen / 2 ^ i % 2 == 1
    let t1 := gclHold t g (fun q => { q with enSeen := maskPut q.enSeen i en })
    if !en then (r.1, if gclRuns t g i then gclStop t1 g i else t1)
    else if all || !seen then
      let (c, t2) := gclBegin t1 g i
      (r.1 + c, t2)
    else (r.1, t1)) (0, s)

/-! ### The sections -/

/-- Call the customer's routine with W0 = `n` (R176); without room on the call stack the STACK trap is taken. -/
def gclCall (s : State) (g n : Nat) (entry : Bool) : State :=
  let x := s.sp g
  if x.stack.length ≥ 8 then syncTrap s g 2
  else
    let q := { x.gcl with hookAt := some (x.count, entry) }
    s.setSp g { x.put 0 n with pc := tableWord s g HOOK % 2 ^ 13, stack := GCL_SEEK :: x.stack, count := x.count + 4, gcl := q }

/-- Whether the customer's routine is to be called. -/
def gclHooked (s : State) (g : Nat) : Bool := tableWord s g HOOK / 2 ^ 31 == 1

/-- A tick entry (R171 to R173, R176): checks, the reconciliation of every running port in a tick entered late, each port's next change,
the hook. -/
def gclEntry (s : State) (g : Nat) (vector0 : Bool) : State :=
  let s0 := gclScratch (if vector0 then gclCount s g ENTRIES else s) g
  let late := s0.tick.late || (s0.sp g).late
  let (c1, s1) := gclCheck s0 g vector0
  let (c2, s2) := if late && !vector0 then gclReconcileAll s1 g (gclPorts s1 g) else (0, s1)
  let ports := gclPorts s2 g
  let s3 := gclStatus (ports.foldl (fun t i => gclReport t g i) s2) g
  let base := 48 + 12 * ports.length
  let s4 := addClocks (gclHold s3 g (fun q => { q with entry := base })) g (base + c1 + c2)
  if gclHooked s4 g then gclCall s4 g 0 true else s4.setSp g { s4.sp g with pc := GCL_SEEK }

/-- What a hook call took is counted (R173, R176). -/
def gclHookDone (s : State) (g : Nat) : State :=
  match (s.sp g).gcl.hookAt with
  | none => s
  | some (c, entry) =>
    let n := budgetCount s g - c
    gclHold s g (fun q => { q with
      hookAt := none, entry := if entry then q.entry + n else q.entry, last := q.last.map (fun y => (y.1, y.2 + n)) })

/-- Whether a comparator of the hook has fired or fires before C. -/
def gclHookAhead (s : State) (g : Nat) : Bool :=
  gclHooked s g && [1, 2, 3].any (fun n =>
    let c := (s.sp g).cmp n
    c.fired || (c.armed && decide (diff48 (cutInstant s) (65536 * c.target) > 0)))

/-- What comes next (R172, R173, R176): the wait-tick, or in a trap routine the return, when the next change lies after C - 40 ns and no
comparator of the hook is due before C; else TCMP0 is armed 10 ns ahead of the change and awaited. A trap routine that interrupted
a wait for TCMP0 lets that wait end, so that the program looks again. -/
def gclSeekNext (s : State) (g : Nat) : State :=
  let s1 := gclScratch (if (s.sp g).inTrap then s else gclHookDone s g) g
  let x := s1.sp g
  let due := match gclFirst s1 g with
    | some (_, t) => if diff48 (cutInstant s1) (65536 * t) ≥ 40 * 65536 then some t else none
    | none => none
  let arm := fun (c : Tcmp) (pc : Nat) => s1.setSp g { x with tcmp := tset Tcmp.rst x.tcmp 0 c, pc := pc }
  if x.inTrap && s1.get (SP_TF_CTL_PC g) != GCL_END then arm ⟨s1.tickNs, true, false, false⟩ GCL_NULL
  else match due with
    | some t => arm ⟨(t + (2 ^ 32 - 10)) % 2 ^ 32, true, false, false⟩ GCL_WAIT
    | none =>
      if gclHookAhead s1 g then arm ⟨(x.cmp 0).target, false, false, false⟩ GCL_WAIT
      else s1.setSp g { x with pc := if x.inTrap then GCL_NULL else GCL_END }

/-- After the wait: the change when TCMP0 has fired, else the hook for the lowest comparator that has, which is disarmed first (R176). -/
def gclWoke (s : State) (g : Nat) : State :=
  let x := s.sp g
  if (x.cmp 0).fired then s.setSp g { x with pc := GCL_CHANGE }
  else match [1, 2, 3].find? (fun n => (x.cmp n).fired) with
    | none => s.setSp g { x with pc := GCL_SEEK }
    | some n =>
      let s1 := s.setSp g { x with tcmp := tmod Tcmp.rst x.tcmp n (fun c => ⟨c.target, false, false, false⟩), pc := GCL_SEEK }
      if gclHooked s g then gclCall s1 g n false else s1

/-- One port's change of a change time (R173): ports follow one clock apart, in ascending order, as held words; a change passed over is
served in schedule order. -/
def gclChange (s : State) (g : Nat) : State :=
  let at_ := (((s.sp g).cmp 0).target + 10) % 2 ^ 32
  let due := fun (t : Nat) => t == at_ || isPast t s.tickNs
  match gclFirst s g with
  | none => s.setSp g { s.sp g with pc := GCL_SEEK, holdRun := 0 }
  | some (i, t) =>
    if !due t then s.setSp g { s.sp g with pc := GCL_SEEK, holdRun := 0 }
    else
      let (c, s1) := gclServe s g i t
      let fresh := ((s.sp g).gcl.last.map (·.1)) != some t
      let s2 := addClocks s1 g (if c ≠ 0 ∧ fresh then c + 24 else c)
      let more := match gclFirst s2 g with | some (_, u) => u == t | none => false
      s2.setSp g { s2.sp g with holdRun := more.toNat }

/-- The LINK trap (R175): a port whose list in use changes, to LISTR or back (DESIGN CHOICE, log entry 118), switches, is reconciled and
reported. -/
def gclLink (s : State) (g : Nat) : State :=
  let (c, s1) := (gclPorts s g).foldl (fun r i =>
    let t := r.2
    let want := (gclRetreat t g i).toNat
    if want = gclState t g i 29 29 then r
    else
      let (n, t1) := gclReconcile (gclSet t g i 29 29 want) g i t.tickNs
      (r.1 + n, gclEvent t1 g 0x0F04)) (0, s)
  let s2 := addClocks s1 g c
  s2.setSp g { s2.sp g with pc := GCL_SEEK }

/-- The CMP_MISS and TIME_STEP traps (R173): every running port is reconciled. -/
def gclRestore (s : State) (g : Nat) : State :=
  let (c, s1) := gclReconcileAll s g (gclPorts s g)
  let s2 := addClocks s1 g c
  s2.setSp g { s2.sp g with pc := GCL_SEEK }

/-- Run the section at the program counter; the word after it begins. -/
def gclRun (s : State) (g : Nat) : State :=
  let pc := (s.sp g).pc
  let t := if pc = GCL_ENTRY then gclEntry s g true
    else if pc = GCL_TICK then gclEntry s g false
    else if pc = GCL_SEEK then gclSeekNext s g
    else if pc = GCL_WOKE then gclWoke s g
    else if pc = GCL_CHANGE then gclChange s g
    else if pc = GCL_LINK then gclLink s g
    else gclRestore s g
  wordStart (t.setSp g { t.sp g with vec0 := false }) g

end Sys2Proof.Machine
end

