-- ==== Sys2Proof/Machine/SpWords.lean ====
section
/-! DEFINITION. The commands of the schedule processors: one per operation of R125, the comparators, waits, traps,
machine check, host request and control-store window (R126 to R154, R159 to R161). -/

namespace Sys2Proof.Machine

/-- A word with no effect of its own. -/
def noEff (_ : UWord) (s : State) : Option State := some s

/-- NOP (R125), and any word whose OP is not listed, which traps as ILLEGAL (R125, R137). At a section of the standard program the command
runs that section (log entry 100). -/
def execNop (g : Grp) (s : State) : Out :=
  if gclSection (s.sp g.val).pc then (if spReady s g.val then .next (gclRun s g.val) else .next s)
  else spCommand s g.val (fun u => u.op == 0x00 || (opBase u.op).isNone) noEff

/-- MOV (R123, R125): D <- S; NEXTEV is a visible write that STAGE stages. -/
def execMov (g : Grp) (s : State) : Out :=
  spCommand s g.val (fun u => u.op == 0x01) (fun u t =>
    let v := operand t g.val u u.src
    if u.dst = 0x1D then visible t g.val u.stage [(.nextev (8 * g.val + (t.sp g.val).psel), v)]
    else some (writeD t g.val u.dst v))

/-- ADD (R124, R125). -/
def execAdd (g : Grp) (s : State) : Out := spCommand s g.val (fun u => u.op == 0x02) (aluEff g.val .add)

/-- SUB (R124, R125). -/
def execSub (g : Grp) (s : State) : Out := spCommand s g.val (fun u => u.op == 0x03) (aluEff g.val .sub)

/-- AND (R124, R125). -/
def execAnd (g : Grp) (s : State) : Out := spCommand s g.val (fun u => u.op == 0x04) (aluEff g.val .and)

/-- OR (R124, R125). -/
def execOr (g : Grp) (s : State) : Out := spCommand s g.val (fun u => u.op == 0x05) (aluEff g.val .or)

/-- XOR (R124, R125). -/
def execXor (g : Grp) (s : State) : Out := spCommand s g.val (fun u => u.op == 0x06) (aluEff g.val .xor)

/-- SHL (R124, R125). -/
def execShl (g : Grp) (s : State) : Out := spCommand s g.val (fun u => u.op == 0x07) (aluEff g.val .shl)

/-- SHR (R124, R125). -/
def execShr (g : Grp) (s : State) : Out := spCommand s g.val (fun u => u.op == 0x08) (aluEff g.val .shr)

/-- CMP (R124, R125): flags from D - S; F4 to F7 are kept whatever DST names. -/
def execCmp (g : Grp) (s : State) : Out :=
  spCommand s g.val (fun u => u.op == 0x09) (fun u t =>
    let x := t.sp g.val
    some (t.setSp g.val { x with
      flags := aluFlags .sub x.flags (operand t g.val u u.dst) (operand t g.val u u.src) }))

/-- Table word address of LDT and STT: base plus IMM[14:0] modulo 2^15, on a word boundary (R125). -/
def tableAddr (base : Nat) (u : UWord) : Nat := (base + u.imm % 2 ^ 15) % 2 ^ 15 / 4 * 4

/-- LDT (R125, R136): D <- the committed table word. -/
def execLdt (g : Grp) (s : State) : Out :=
  spCommand s g.val (fun u => u.op == 0x0A) (fun u t =>
    some (writeD t g.val u.dst (tableAt t g.val (tableAddr (operand t g.val u u.src) u) (t.sp g.val).rd.at_)))

/-- STT (R125, R135): the table word at D + IMM <- S; STAGE stages it. -/
def execStt (g : Grp) (s : State) : Out :=
  spCommand s g.val (fun u => u.op == 0x0B) (fun u t =>
    visible t g.val u.stage [(.table (tableAddr (operand t g.val u u.dst) u), operand t g.val u u.src)])

/-- TSET arming (R126): target (S + IMM[63:32]) modulo 2^32; MASK[0] asks for CMP_MISS when the target is past already. -/
def execTset (g : Grp) (s : State) : Out :=
  spCommand s g.val (fun u => u.op == 0x10 && u.mask / 2 % 2 == 0) (fun u t =>
    let x := t.sp g.val
    let target := (operand t g.val u u.src + bits u.imm 63 32) % 2 ^ 32
    let late := isPast target t.tickNs
    some (t.setSp g.val { x with
      tcmp := tset Tcmp.rst x.tcmp (u.dst - 0x20) ⟨target, true, false, late && u.mask % 2 == 1⟩ }))

/-- TSET disarming (MASK[1] = 1, R126). -/
def execTsetDisarm (g : Grp) (s : State) : Out :=
  spCommand s g.val (fun u => u.op == 0x10 && u.mask / 2 % 2 == 1) (fun u t =>
    let x := t.sp g.val
    some (t.setSp g.val { x with
      tcmp := tmod Tcmp.rst x.tcmp (u.dst - 0x20) (fun c => ⟨c.target, false, false, false⟩) }))

/-- GATE (R83, R125): OPEN of the ports in MASK <- S[7:0]. -/
def execGate (g : Grp) (s : State) : Out :=
  spCommand s g.val (fun u => u.op == 0x18) (fun u t =>
    let v := operand t g.val u u.src % 256
    visible t g.val u.stage ((portsIn g.val u.mask).map (fun p => (.gate p, v))))

/-- SGATE (R127): OPEN of stream gate S <- MASK[0], for a gate this processor owns; otherwise SGATE_REF. -/
def execSgate (g : Grp) (s : State) : Out :=
  spCommand s g.val (fun u => u.op == 0x19) (fun u t =>
    let i := operand t g.val u u.src
    if i < 4096 ∧ bits (t.strW 3 i 0) 23 20 = g.val then visible t g.val u.stage [(.sgate i, u.mask % 2)]
    else some (t.set (SP_STAT_SGATE_REF g.val) 1))

/-- HOLD (R97, R125). -/
def execHold (g : Grp) (s : State) : Out :=
  spCommand s g.val (fun u => u.op == 0x1A) (fun u t =>
    visible t g.val u.stage ((portsIn g.val u.mask).map (fun p => (.hold p, 1))))

/-- RELEASE (R97, R125). -/
def execRelease (g : Grp) (s : State) : Out :=
  spCommand s g.val (fun u => u.op == 0x1B) (fun u t =>
    visible t g.val u.stage ((portsIn g.val u.mask).map (fun p => (.hold p, 0))))

/-- LAUNCH (R128): the S oldest cued entries (all for 0) of each port in MASK, at once or at IMM[31:0]. -/
def execLaunch (g : Grp) (s : State) : Out :=
  spCommand s g.val (fun u => u.op == 0x1C) (fun u t =>
    let n := operand t g.val u u.src
    let at_ := if bits u.imm 32 32 = 1 then some (u.imm % 2 ^ 32) else none
    some ((portsIn g.val u.mask).foldl (fun r p => launchPort r p n at_) t))

/-- POUR (R129, R191): table memory to the pour buffer of station STSEL; the pour window closes. The latch for another member's ring takes
the data before it in its own clock (R515). -/
def execPour (g : Grp) (s : State) : Out :=
  spCommand s g.val (fun u => u.op == 0x20) (fun u t =>
    let b := blockOf t g.val u
    let st := (t.sp g.val).stsel
    let t1 := if remoteDue t st then remoteLatch t st else t
    some ((t1.putBytes (pourA st + b.buf) (tableRun t1 g.val b.tab b.len (t1.sp g.val).rd.at_)).set (CRF_ST_STAT_POUR_OPEN st) 0))

/-- SIP (R129, R220): the sip buffer of station STSEL to table memory; of a range that settles meanwhile it may take part of the old and
part of the new. -/
def execSip (g : Grp) (s : State) : Out :=
  spCommand s g.val (fun u => u.op == 0x21) (fun u t =>
    let b := blockOf t g.val u
    some (t.putBytes (tmA g.val 0 + b.tab) (sipRun t (t.sp g.val).stsel b.buf b.len (t.sp g.val).rd.at_)))

/-- PIMG GET (R129, R39): the cur buffer of out slot PISEL to table memory, as it is in the word's first clock (R130). -/
def execPimgGet (g : Grp) (s : State) : Out :=
  spCommand s g.val (fun u => u.op == 0x22 && u.mask % 2 == 0) (fun u t =>
    let b := blockOf t g.val u
    let n := (t.sp g.val).pisel
    some (t.putBytes (tmA g.val 0 + b.tab) (t.bytes (piA n (t.sp g.val).rd.dev + b.buf) b.len)))

/-- PIMG PUT (R129, R39): table memory to the dw buffer of in slot PISEL. -/
def execPimgPut (g : Grp) (s : State) : Out :=
  spCommand s g.val (fun u => u.op == 0x22 && u.mask % 2 == 1) (fun u t =>
    let b := blockOf t g.val u
    let n := (t.sp g.val).pisel
    some (t.putBytes (piA n (t.slot n).dev + b.buf) (tableRun t g.val b.tab b.len (t.sp g.val).rd.at_)))

/-- EVT (R125, R130, R354): a record of the port group, code IMM[15:0], data S. -/
def execEvt (g : Grp) (s : State) : Out :=
  spCommand s g.val (fun u => u.op == 0x28) (fun u t =>
    some (postRec t (1 + g.val) (0x3000 + g.val) (u.imm % 2 ^ 16) (operand t g.val u u.src) 1 (t.sp g.val).pc))

/-- COMMIT (R135): every held entry is applied, and the stage buffer is empty. -/
def execSpCommit (g : Grp) (s : State) : Out :=
  spCommand s g.val (fun u => u.op == 0x30) (fun _ t =>
    let was := (t.sp g.val).stage.map (fun e => (e.1, committed t g.val e.1))
    let t1 := (t.sp g.val).stage.foldl (applyStage g.val) t
    some (t1.setSp g.val { t1.sp g.val with stage := [], undoCommit := some (t.now, was) }))

/-- TCMP_FIRE (R126): an armed comparator whose target is not in the future sets its fired bit and disarms. -/
def execTcmpFire (g : Grp) (k : Fin 32) (s : State) : Out :=
  let x := s.sp g.val
  let c := x.cmp k.val
  if !s.fatal && c.armed && isPast c.target s.tickNs then
    let s1 := s.setSp g.val { x with tcmp := tset Tcmp.rst x.tcmp k.val ⟨c.target, false, true, false⟩ }
    .next (if c.miss then pendTrap s1 g.val 4 else s1)
  else .next s

/-- WAIT_TIME_RESUME (R120, R131): a bit of the awaited group is 1; the processor continues at NEXT. -/
def execWaitTimeResume (g : Grp) (s : State) : Out :=
  let x := s.sp g.val
  let u := spWord s g.val
  if !s.fatal && decide (x.run = .waitTime) && beforeC s && condGroup s g.val u.csel != 0 then
    .next (wordStart (s.setSp g.val { x with run := .exec, pc := u.next, count := budgetCount s g.val }) g.val)
  else .next s

/-- The lowest pending and enabled deferrable cause (R138). -/
def trapDue (s : State) (g : Nat) : Option Nat :=
  [4, 5, 6, 7, 8].find? (fun v =>
    s.get (SP_TRAP_PEND g) / 2 ^ v % 2 == 1 && s.get (SP_TRAP_EN g) / 2 ^ (v - 4) % 2 == 1)

/-- Whether a deferrable trap may be taken now (R134, R138, R159): in no trap routine, not between two words of a held
run, before C, and not before the entry at vector 0. -/
def trapAllowed (s : State) (g : Nat) : Bool :=
  let x := s.sp g
  !s.fatal && beforeC s && !x.inTrap && !x.vec0 &&
  (decide (x.run = .waitTick) || decide (x.run = .waitTime) ||
    (decide (x.run = .exec) && !(1 ≤ x.holdRun && x.holdRun < 16 && heldWord (spWord s g))))

/-- TRAP_ENTRY (R138, R139, R149): the lowest due cause is taken and its pending bit clears. -/
def execTrapEntry (g : Grp) (s : State) : Out :=
  match trapDue s g.val with
  | none => .next s
  | some v =>
    if !trapAllowed s g.val then .next s
    else
      let s0 := if (s.sp g.val).run = .exec ∧ (s.sp g.val).holdRun = 16 ∧ heldWord (spWord s g.val) = true
        then s.set (SP_STAT_HOLD_LONG g.val) 1 else s
      let s1 := s0.set (SP_TRAP_PEND g.val) (s0.get (SP_TRAP_PEND g.val) - 2 ^ v)
      let s2 := if v = 5 then s1.set (SP_HOSTREQ_REQ g.val) 0 else s1
      .next (trapEnter s2 g.val v (decide ((s.sp g.val).run ≠ .exec)))

/-- BUDGET_LOW (R137, R140, R148): BLEFT has fallen below LOW; once per tick. -/
def execBudgetLow (g : Grp) (s : State) : Out :=
  let x := s.sp g.val
  if !s.fatal && s.tick.cur && (decide (x.run = .exec) || decide (x.run = .waitTime)) && !x.lowRaised &&
      decide (bleft s g.val < s.get (SP_BUDGET_LOW_LOW g.val)) then
    .next (pendTrap (s.setSp g.val { x with lowRaised := true }) g.val 6)
  else .next s

/-- MACHINE_CHECK (R141, R153, R433). -/
def execMachineCheck (g : Grp) (cause : McCause) (synd : Byte) (s : State) : Out :=
  if s.fatal then .next s
  else
    let pc := (s.sp g.val).pc
    .next (match cause with
    | .parity => machineCheckOp s g.val 1 synd.toNat pc
    | .table => machineCheckOp s g.val 2 0 pc
    | .doubleTrap => machineCheckOp s g.val 3 0 pc)

/-- SP_HOSTREQ (R149): ignored whole while REQ = 1; REQ raises the HOST cause. -/
def execSpHostreq (g : Grp) (v : Word) (s : State) : Out :=
  if s.fatal || s.flag (SP_HOSTREQ_REQ g.val) then .next s
  else
    let s1 := s.set (SP_HOSTREQ_ARG g.val) (v.toNat % 2 ^ 24)
    .next (if v.toNat / 2 ^ 31 = 1 then pendTrap (s1.set (SP_HOSTREQ_REQ g.val) 1) g.val 5 else s1)

/-- A write of SP_CS_ADDR takes ADDR and AUTOINC (R151); whether it names the operation `op`. -/
def csAddrTake (s : State) (g : Nat) (v : Word) : State :=
  (s.set (SP_CS_ADDR_ADDR g) (getField v 0 13)).set (SP_CS_ADDR_AUTOINC g) (getField v 28 1)

/-- The step of ADDR after an access (R151). -/
def csStep (s : State) (g : Nat) : State :=
  if s.flag (SP_CS_ADDR_AUTOINC g) then s.set (SP_CS_ADDR_ADDR g) (s.get (SP_CS_ADDR_ADDR g) + 1) else s

/-- Whether a control-store access of the host runs (R151): writes of SP_CS_ADDR and of the data registers are then ignored. -/
def csBusy (s : State) (g : Nat) : Bool := decide (s.now < (s.sp g).csEnd)

/-- An access runs for a time the spec bounds by 16 core clocks, 20 base clocks (R144; a free value, log entry 43). -/
def csStart (s : State) (g : Nat) : State :=
  let (d, s1) := s.draw
  s1.setSp g { s1.sp g with csEnd := s1.now + 1 + d % 20 }

/-- CS_READ (R151, R152): the word and its parity to the data registers. A write of SP_CS_ADDR with an OP other than 1
only takes its fields. -/
def execCsRead (g : Grp) (v : Word) (s : State) : Out :=
  if s.fatal || csBusy s g.val then .next s
  else
    let s1 := csAddrTake s g.val v
    if getField v 26 2 ≠ 1 then .next s1
    else
      let x := csWord s1 g.val (s1.get (SP_CS_ADDR_ADDR g.val))
      let s2 := (List.range 4).foldl (fun t i => t.set (SP_CS_DATA_DATA g.val i) (x.toNat / 2 ^ (32 * i) % 2 ^ 32)) s1
      let s3 := (s2.set (SP_CS_DATA4_PAR g.val) (x.toNat / 2 ^ 128)).setB (SP_CS_ADDR_PERR g.val) (csSyndrome x != 0)
      .next (csStart (csStep s3 g.val) g.val)

/-- CS_WRITE (R118, R143, R144, R151, R476): the data registers to a RAM word, with parity the device computes; refused
below 0x1000 and after COMMIT. -/
def execCsWrite (g : Grp) (v : Word) (s : State) : Out :=
  if s.fatal || csBusy s g.val then .next s
  else
    let s1 := csAddrTake s g.val v
    if getField v 26 2 ≠ 2 then .next s1
    else
      let a := s1.get (SP_CS_ADDR_ADDR g.val)
      if a < 0x1000 || s1.locked then .next (csStep (s1.set (SP_CS_ADDR_ERR g.val) 1) g.val)
      else
        let n := (List.range 4).foldl (fun m i => m + s1.get (SP_CS_DATA_DATA g.val i) * 2 ^ (32 * i)) 0
        let w := withParity n
        let s2 := { s1 with
          cs := tset (0 : BitVec 136) s1.cs (csK g.val a) w
          csHost := s1.csHost ++ [(csK g.val a, w)] }
        .next (csStart (csStep (s2.set (SP_CS_ADDR_ERR g.val) 0) g.val) g.val)

/-- Whether a cut-off hits a processor (R158, R160): it executes or waits in a wait-time, and no wait-tick word of its own that began in
time is ending. -/
def cuttable (s : State) (g : Nat) : Bool :=
  let x := s.sp g
  decide (x.run = .waitTime) || (decide (x.run = .exec) && (x.crossed || !lastWord s g))

/-- The cut-off of a processor (R140, R161): by overrun, or by a step of the tick's time base (R538), which is never an
overrun. -/
def cutOff (s : State) (g : Nat) (overrun : Bool) : State :=
  let used := if overrun then s.budget else budgetCount s g
  let s1 := nextevOff (gatesSafe (undoCommit s g) g) g
  let s2 := s1.setSp g { s1.sp g with
    stack := [], stage := [], inTrap := false, run := .waitTick, vec0 := true, holdRun := 0, count := used,
    cut := true, begun := false, crossed := false,
    undoCut := if overrun then some (s.now, s.get (SP_CNT_OVERRUNS g), tget WatchSt.zero s.watch (watchK 4 g), s.src (grpK g) 0) else none }
  let s3 := (s2.set (SP_TF_CTL_VALID g) 0).set (SP_BUDGET_USED_USED g) used
  if overrun then raise (s3.inc (SP_CNT_OVERRUNS g)) (grpK g) 0 .corrected 0 else s3

/-- OVERRUN_CUT_OFF (R140, R158, R161): instant C comes while the processor has not started a wait-tick. -/
def execOverrunCutOff (g : Grp) (s : State) : Out :=
  if !s.fatal && s.tick.cur && !beforeC s && cuttable s g.val then .next (cutOff s g.val true) else .next s

end Sys2Proof.Machine
end

