-- ==== Sys2Proof/Machine/Rings.lean ====
section
/-! DEFINITION. Descriptor rings: lookup, fetching and parking (R341 to R346), malformed entries (R361), fragment tables
(R353), delivery to receive rings (R351, R352), completion and publication (R347, R360), doorbells (R345, R357), commands
(R358, R359). -/

namespace Sys2Proof.Machine

/-! ### Lookup and fetching -/

/-- The created ring a function knows under a local number (R341); its global number. -/
def ringOf (s : State) (kind f loc : Nat) : Option Nat :=
  (s.rings.find? (fun e => e.1 / 4096 == kind && e.2.created && e.2.fn == f && e.2.loc == loc)).map (·.1 % 4096)

/-- Entries started and not published. -/
def Ring.started (r : Ring) : Nat := (r.next + 65536 - r.head % 65536) % 65536

/-- Outstanding entries not yet started; none where the tail has been rung back behind the last started one. -/
def Ring.todo (r : Ring) : List Nat := (List.range (r.fill - r.started)).map (fun k => (r.next + k) % 65536)

/-- The entries a doorbell fetches (R346): those outstanding and not started, and the one the ring is parked at, whatever the tail. -/
def Ring.wanted (r : Ring) : List Nat :=
  r.todo ++ (match r.parked with | some i => if r.todo.contains i then [] else [i] | _ => [])

/-- What a doorbell's fetch finds for entry `i` (R346): the copy to hold, and whether the ring parks there. -/
def fetchOne (s : State) (r : Ring) (i : Nat) : List Nat × Bool :=
  match r.copy i with
  | some e =>
    if entryOwn e then (e, false)
    else
      let e' := hostEntry s (r.slot i)
      (e', !entryOwn e')
  | none => (hostEntry s (r.slot i), false)

/-- Fetch at a doorbell (R346): outstanding entries up to the first that parks the ring, then up to 16 beyond the tail
(how many is open: log entry 13). Answers the entry at which the ring parks, where it was not parked there before. -/
def fetchRing (s : State) (kind ring : Nat) : State × Option Nat :=
  let r := s.ring kind ring
  let got := r.wanted.map (fun i => (i, fetchOne s r i))
  let parkAt := (got.find? (fun e => e.2.2)).map (·.1)
  let (n, s1) := s.draw
  let room := min (min 16 (Config.fetchAhead n)) (r.size - min r.size r.fill)
  let old : Nat → Bool := fun i => r.wanted.contains i || decide ((i + 65536 - r.head) % 65536 < r.started)
  let ahead := ((List.range room).map (fun k => (r.tail + k) % 65536)).filter (fun i => !old i)
  let beyond := ahead.map (fun i => (i, (r.copy i).getD (hostEntry s (r.slot i))))
  let kept := r.copies.filter (fun e => !(old e.1) && !(ahead.contains e.1) && decide ((e.1 + 65536 - r.tail) % 65536 < 16))
  let r1 := { r with copies := got.map (fun e => (e.1, e.2.1)) ++ beyond ++ kept, parked := parkAt }
  (s1.setRing kind ring r1, if parkAt = r.parked then none else parkAt)

/-- The record of a ring that parks (R346, R355): KIND 6. -/
def parkRecord (s : State) (kind ring i : Nat) : State :=
  let r := s.ring kind ring
  devRec s 6 1 (kind * 2 ^ 24 + r.fn * 65536 + r.loc) i

/-! ### Malformed entries (R348, R350, R353, R358, R361, R373, R374) -/

/-- The first fragment that breaks R353; a wrong sum names the last one. -/
def fragFault (fs : List (Nat × Nat × Bool)) (sum : Nat) : Option Nat :=
  match fs.findIdx? (fun f => f.2.2) with
  | some i => some i
  | none => if (fs.map (fun f => f.2.1)).sum = sum then none else some (fs.length - 1)

/-- Checks shared by the descriptor kinds: reserved bits, NFRAG, LEN, fragments; the cause of R361 and the fragment. -/
def checkDesc (s : State) (resv ind : Bool) (nfrag len maxLen addr : Nat) : Option (Nat × Option Nat) :=
  if resv then some (1, none)
  else if (if ind then nfrag == 0 || nfrag > 256 else nfrag != 0) then some (2, none)
  else if len = 0 ∨ maxLen < len then some (3, none)
  else if ind then (fragFault (fragTable s addr nfrag) len).map (fun i => (4, some i))
  else none

/-- A transmit descriptor's fault (R348, R361). -/
def checkTx (s : State) (e : List Nat) : Option (Nat × Option Nat) :=
  let w2 := entryWord e 2
  let w3 := entryWord e 3
  checkDesc s (bits w2 30 25 != 0 || bits w2 15 14 != 0 || bits w3 27 26 ≥ 2 || bits w3 25 11 != 0 || bits w3 7 7 != 0 ||
    bits (entryWord e 7) 25 16 != 0) (bits w2 31 31 == 1) (bits w2 24 16) (bits w2 13 0) 9212 (entryAddr e 0)

/-- A receive descriptor's fault (R350, R361). -/
def checkRx (s : State) (e : List Nat) : Option (Nat × Option Nat) :=
  let w2 := entryWord e 2
  checkDesc s (bits w2 30 25 != 0 || bits w2 15 14 != 0 || entryWord e 3 != 0) (bits w2 31 31 == 1) (bits w2 24 16)
    (bits w2 13 0) 16383 (entryAddr e 0)

/-- A job's or chain element's fault, but for its destination table (R361, R373). -/
def checkJobWords (s : State) (e : List Nat) : Option (Nat × Option Nat) :=
  let w4 := entryWord e 4
  let w5 := entryWord e 5
  let dind := bits w4 29 29 == 1
  let dn := bits w5 22 14
  if bits w4 24 24 ≠ 0 ∨ bits w5 9 0 ≠ 0 then some (1, none)
  else if (if dind then dn == 0 || dn > 256 else dn != 0) then some (2, none)
  else checkDesc s false (bits w4 30 30 == 1) (bits w5 31 23) (bits w4 23 0) 16777215 (entryAddr e 0)

/-- A DMA job entry's fault (R373): with CHAIN = 1 words 2 to 5 are reserved. -/
def checkJob (s : State) (e : List Nat) : Option (Nat × Option Nat) :=
  if bits (entryWord e 7) 24 16 ≠ 0 then some (1, none)
  else if bits (entryWord e 4) 31 31 = 1 then
    (if entryWord e 2 ≠ 0 ∨ entryWord e 3 ≠ 0 ∨ bits (entryWord e 4) 30 0 ≠ 0 ∨ entryWord e 5 ≠ 0 then some (1, none)
     else none)
  else checkJobWords s e

/-- A command descriptor's fault (R358): reserved bits. -/
def checkCmd (e : List Nat) : Option (Nat × Option Nat) :=
  let w0 := entryWord e 0
  let w5 := entryWord e 5
  let w7 := entryWord e 7
  let op := bits w0 31 24
  if bits w0 23 19 ≠ 0 ∨ bits w0 15 12 ≠ 0 ∨ bits w7 30 28 ≠ 0 ∨ bits w7 23 0 ≠ 0 ∨
      (op = 1 ∧ (bits w5 31 19 ≠ 0 ∨ bits w5 7 7 ≠ 0)) ∨ (op = 3 ∧ (bits w5 30 30 ≠ 0 ∨ bits w5 27 12 ≠ 0))
  then some (1, none) else none

/-- The fault of an entry of a ring kind. -/
def checkEntry (s : State) (kind : Nat) (e : List Nat) : Option (Nat × Option Nat) :=
  match kind with
  | 0 => checkTx s e
  | 1 => checkRx s e
  | 2 => checkJob s e
  | _ => checkCmd e

/-- What is malformed about the copy held of entry `i` (R346, R361): the read of the entry or of its fragment table fails (`err`), or,
with OWN = 1, a rule is broken. -/
def entryFault (s : State) (kind : Nat) (r : Ring) (err : Option Nat) (i : Nat) : Option (Nat × Option Nat) :=
  if err = some i then some (7, none)
  else match r.copy i with
  | some e => if entryOwn e then checkEntry s kind e else none
  | none => none

/-- Halt on the first malformed entry of a ring (R346, R361). -/
def haltOnMalformed (s : State) (kind ring : Nat) (err : Option Nat) : State :=
  let r := s.ring kind ring
  match r.todo.findSome? (fun i => (entryFault s kind r err i).map (fun x => (i, x))) with
  | none => s
  | some (i, cause, frag) => hostHalt s cause kind r.fn r.loc i frag

/-- Waiting frames of a ring past its RX_HOLD, in units of 8 microseconds, are dropped (R352); an entry that appears in this clock takes them
back first (R371). -/
def holdExpire (s : State) (ring : Nat) : State :=
  let r := s.ring 1 ring
  let gone : Nat × HostFrame → Bool := fun e => e.1 == ring && decide (8000 * r.rxHold ≤ s.now - e.2.since)
  let lost := s.rxHold.filter gone
  let s1 := { s with rxHold := s.rxHold.filter (fun e => !gone e), holdGone := (s.now, ring, lost, r.cntB) }
  if lost.isEmpty then s else s1.setRing 1 ring { r with cntB := min (r.cntB + lost.length) 65535 }

/-- RX_HOLD (R352). -/
def execRxHold (ring : Fin 4096) (s : State) : Out := if s.fatal || s.halted then .next s else .next (holdExpire s ring.val)

/-- A receive ring has new entries (R352, R371): held frames take them in arrival order, those whose RX_HOLD ran out in this clock among
them; what is left of these is dropped again. -/
def rxTakes (s : State) (ring : Nat) : State :=
  let (t, g, lost, n) := s.holdGone
  if t = s.now ∧ g = ring ∧ !lost.isEmpty then
    let s1 := { s with rxHold := lost ++ s.rxHold, holdGone := (0, 0, [], 0) }
    holdExpire (rxWaiting (s1.setRing 1 ring { s1.ring 1 ring with cntB := n }) ring) ring
  else rxWaiting s ring

/-! ### Doorbells (R345, R346, R357, R361, R371) -/

/-- The head of a ring once the entries that are done at its head have completed (R347). -/
def headAfter : Nat → Ring → Nat → Nat
  | 0, _, h => h
  | n + 1, r, h => if r.done.any (fun d => d.1 == h) then headAfter n r ((h + 1) % 65536) else h

/-- Whether a tail laps a head (R361). -/
def Ring.laps (r : Ring) (tail head : Nat) : Bool := decide ((tail + 65536 - head) % 65536 > r.size)

/-- The ring a doorbell names (R345). -/
def bellRing (s : State) (kind f loc : Nat) : Option Nat :=
  if kind = 4 then (if (s.ring 4 f).created then some f else none) else ringOf s kind f loc

/-- A ring takes a new tail, and what it newly covers (R345, R346, R361). -/
def takeTail (s : State) (kind g tail : Nat) (err : Option Nat) : State :=
  let (s1, park) := fetchRing (s.setRing kind g { s.ring kind g with tail := tail }) kind g
  let s2 := match park with | some i => parkRecord s1 kind g i | none => s1
  haltOnMalformed s2 kind g err

/-- A tail doorbell of a host-produced ring; `err` is the entry whose fetch fails, if one does. With `wait` it waits for the end of the clock
where the publication of what is done would change the verdict on its tail, and behind a doorbell of its ring that waits (R345, R371). -/
def ringBell (s : State) (kind f loc tail : Nat) (err : Option Nat) (wait : Bool) : State :=
  match bellRing s kind f loc with
  | none => if kind = 4 then s else hostHalt s 6 kind f loc tail none
  | some g =>
    let r := s.ring kind g
    if r.destroying then s
    else if wait && (s.bells.any (fun b => b.1 == kind && b.2.1 == f && b.2.2.1 == loc) ||
        r.laps tail r.head != r.laps tail (headAfter r.done.length r r.head)) then
      { s with bells := s.bells ++ [(kind, f, loc, tail, err)] }
    else if r.laps tail r.head then hostHalt s 5 kind f loc tail none
    else takeTail s kind g tail err

/-- A doorbell as it comes. -/
def doorbell (s : State) (kind f loc tail : Nat) (err : Option Nat) : State := ringBell s kind f loc tail err true

/-- Held frames of a function's receive ring take its new entries. -/
def rxBell (s : State) (f loc : Nat) : State :=
  if s.halted || s.fatal then s
  else match ringOf s 1 f loc with | some g => rxTakes s g | none => s

/-- A doorbell that waited for the end of its clock (R371) is checked against the head in force then. -/
def bellEnds (s : State) (b : Nat × Nat × Nat × Nat × Option Nat) : State :=
  let (kind, f, loc, tail, err) := b
  let t := whileRuns s (fun u => ringBell u kind f loc tail err false)
  if kind = 1 then rxBell t f loc else t

/-- The doorbells that waited, in their order. -/
def bellsEnd (s : State) : State := s.bells.foldl bellEnds { s with bells := [] }

/-- DB_TX (R345, R365). -/
def execDbTx (f : Fn) (v : Word) (x : HostSees) (s : State) : Out :=
  .next (whileRuns (s.hostWrites x.hw) (fun t => doorbell t 0 f.val (getField v 0 12) (getField v 16 16) x.err))

/-- DB_RX (R345, R352): held frames take the new entries. -/
def execDbRx (f : Fn) (v : Word) (x : HostSees) (s : State) : Out :=
  let s1 := whileRuns (s.hostWrites x.hw) (fun t => doorbell t 1 f.val (getField v 0 12) (getField v 16 16) x.err)
  .next (rxBell s1 f.val (getField v 0 12))

/-- DB_JOB (R345). -/
def execDbJob (f : Fn) (v : Word) (x : HostSees) (s : State) : Out :=
  .next (whileRuns (s.hostWrites x.hw) (fun t => doorbell t 2 f.val (getField v 0 12) (getField v 16 16) x.err))

/-- DB_CMD (R345, R365). A doorbell of a command ring that is not created names no ring: CAUSE 6. -/
def execDbCmd (f : Fn) (v : Word) (x : HostSees) (s : State) : Out :=
  .next (whileRuns (s.hostWrites x.hw) (fun t =>
    if !(t.ring 4 f.val).created then hostHalt t 6 4 f.val 0 (getField v 16 16) none
    else doorbell t 4 f.val 0 (getField v 16 16) x.err))

/-- A head doorbell of an event ring (R345, R357, R361); freed space takes the overflow marker first. -/
def eventDoorbell (s : State) (f loc hd : Nat) : State :=
  match ringOf s 3 f loc with
  | none => hostHalt s 6 3 f loc hd none
  | some g =>
    let r := s.ring 3 g
    if r.destroying then s
    else if (r.tail + 65536 - hd) % 65536 > (r.tail + 65536 - r.head) % 65536 then hostHalt s 5 3 f loc hd none
    else
      let s1 := s.setRing 3 g { r with head := hd }
      if r.marker ≠ 0 ∧ ({ r with head := hd } : Ring).fill < r.size then
        let s2 := putRecord s1 g 0x5000 0 r.marker 0 0 (s1.tbStamp r.tb) (s1.tbNs 8)
        s2.setRing 3 g { s2.ring 3 g with marker := 0 }
      else s1

/-- DB_EVT (R345, R357, R361, R365): the new head of an event ring. -/
def execDbEvt (f : Fn) (v : Word) (s : State) : Out :=
  .next (whileRuns s (fun t => eventDoorbell t f.val (getField v 0 12) (getField v 16 16)))

/-- DB_CMD_CFG (R366): EN = 1 creates the command ring, or sets CFG_ERR; EN = 0 removes it. -/
def execDbCmdCfg (f : Fn) (v : Word) (s : State) : Out :=
  if s.fatal then .next s
  else
    let r0 := s.set (DB_CMD_CFG_VEC f.val) (getField v 8 11)
    let s1 := r0.set (DB_CMD_CFG_LOG2SIZE f.val) (getField v 0 4)
    if getField v 31 1 = 0 then
      .next ((s1.set (DB_CMD_CFG_EN f.val) 0).setRing 4 f.val Ring.none)
    else
      let base := (rword s.regs (DB_CMD_BASE_LO f.val)).toNat + 2 ^ 32 * (rword s.regs (DB_CMD_BASE_HI f.val)).toNat
      let shd := (rword s.regs (DB_CMD_SHD_LO f.val)).toNat + 2 ^ 32 * (rword s.regs (DB_CMD_SHD_HI f.val)).toNat
      let lg := getField v 0 4
      let vec := getField v 8 11
      if base % 4096 ≠ 0 ∨ shd % 8 ≠ 0 ∨ lg < 6 ∨ hasVec s f.val vec = false then
        .next (s1.set (DB_CMD_CFG_CFG_ERR f.val) 1)
      else
        .next (((s1.set (DB_CMD_CFG_CFG_ERR f.val) 0).set (DB_CMD_CFG_EN f.val) 1).setRing 4 f.val
          { Ring.none with
            created := true, fn := f.val, log2 := lg, base := base, shadow := shd,
            vec := s.get (GLB_FN_VEC_VBASE f.val) + vec })

/-! ### Completion and publication (R347, R360) -/

/-- Write one completed entry's results; word 100 names a port whose transmit stamp store gives a place back (R285). -/
def writeResults (s : State) (r : Ring) (i : Nat) (ws : List (Nat × Nat)) : State :=
  ws.foldl (fun t w =>
    if w.1 = 100 then t.setPort w.2 { t.port w.2 with stamps := (t.port w.2).stamps - 1 }
    else t.hostPut (r.slot i + 4 * w.1) (leBytes 4 w.2)) s

/-- Complete the done entries at the head, in index order; the fuel bounds their number. -/
def completeHead : Nat → State → Nat → Nat → State
  | 0, s, _, _ => s
  | n + 1, s, kind, ring =>
    let r := s.ring kind ring
    match r.done.find? (fun d => d.1 == r.head) with
    | none => s
    | some (i, ws) =>
      let s1 := writeResults s r i ws
      completeHead n (s1.setRing kind ring { r with
        head := (r.head + 1) % 65536, done := r.done.filter (fun d => d.1 != i),
        copies := r.copies.filter (fun c => c.1 != i) }) kind ring

/-- Every started entry of a ring is complete. -/
def Ring.quiet (r : Ring) : Bool := r.next == r.head

/-- The command entry that waits for a RING_DESTROY to end completes, and the ring is removed (R359): its held frames count in
DROP_HOLD, and its counters stay until a RING_CREATE (R367). -/
def destroyDone (s : State) (kind ring : Nat) : State :=
  let r := s.ring kind ring
  if r.destroying && (kind == 3 || r.quiet) then
    let held : Nat × HostFrame → Bool := fun e => kind == 1 && e.1 == ring
    let gone := { Ring.none with
      fn := r.fn, loc := r.loc, cntA := r.cntA, cntB := min 65535 (r.cntB + (s.rxHold.filter held).length), cntC := r.cntC }
    let s1 := { s.setRing kind ring gone with rxHold := s.rxHold.filter (fun e => !held e) }
    ringResult s1 4 r.fn r.seq [(7, 0)]
  else s

/-- COMPLETION (R347, R357): results and OWN are written in index order, then the head (an event ring's tail) is
published with its message. -/
def execCompletion (kind : Fin 5) (ring : Fin 4096) (s : State) : Out :=
  let r := s.ring kind.val ring.val
  if s.fatal || s.halted || !r.created then .next s
  else if kind.val = 3 then
    .next (if r.tail = r.pub then s else publish s 3 ring.val r.tail)
  else
    let s1 := completeHead r.done.length s kind.val ring.val
    let r1 := s1.ring kind.val ring.val
    let s2 := if r1.head = r.head then s1 else publish s1 kind.val ring.val r1.head
    .next (destroyDone s2 kind.val ring.val)

/-- MODERATION_END (R360): one message for the publications held back. -/
def execModerationEnd (kind : Fin 5) (ring : Fin 4096) (s : State) : Out :=
  let r := s.ring kind.val ring.val
  if s.fatal || s.halted || !r.owed || decide (s.now < r.modEnd) then .next s
  else .next (ringMessage s kind.val ring.val)

/-- VECTOR_UNMASK (R360): a pending message is sent. During a halt only halt messages leave (R362), in the fatal state only
that of FLT_VEC5 (R448). -/
def execVectorUnmask (v : Fin 2048) (s : State) : Out :=
  let x := s.vec v.val
  let s1 := { s with vecs := tset VecSt.rst s.vecs v.val { x with masked := false } }
  let isHalt := (List.range 64).any (fun f => hasVec s f 0 && s.get (GLB_FN_VEC_VBASE f) == v.val)
  if x.pend && (!s.halted || isHalt) && (!s.fatal || s.get (FLT_VEC_VEC 5) == v.val) then
    .next (msixNow { s1 with vecs := tset VecSt.rst s1.vecs v.val { x with masked := false, pend := false } } v.val)
  else .next s1

/-! ### Commands (R358, R359) -/

/-- The next command of function `f`, if its ring holds one to run, none still runs, and the host interface runs. -/
def nextCmd (s : State) (f : Nat) : Option (List Nat) :=
  let r := s.ring 4 f
  if s.fatal || s.halted || (r.next + 65536 - r.head) % 65536 != r.done.length then none else r.ready

/-- A command starts: the ring moves past its entry. -/
def cmdStart (s : State) (f : Nat) : State :=
  let r := s.ring 4 f
  s.setRing 4 f { r with next := (r.next + 1) % 65536 }

/-- A command completes with a STATUS. -/
def cmdDone (s : State) (f status : Nat) : State :=
  let i := (s.ring 4 f).next
  ringResult (cmdStart s f) 4 f i [(7, status * 2 ^ 24)]

/-- Global ring of a function's local ring (R341), cut at the device's count; none outside the range. -/
def globalRing (s : State) (kind f loc : Nat) : Option Nat :=
  let (base, n, dev) := match kind with
    | 0 => (s.get (GLB_FN_TX_TBASE f), s.get (GLB_FN_TX_TN f), 4096)
    | 1 => (s.get (GLB_FN_RX_RBASE f), s.get (GLB_FN_RX_RN f), 4096)
    | 2 => (s.get (GLB_FN_AUX_JBASE f), s.get (GLB_FN_AUX_JN f), 64)
    | _ => (s.get (GLB_FN_AUX_EBASE f), s.get (GLB_FN_AUX_EVN f), 64)
  if loc < n ∧ base + loc < dev then some (base + loc) else none

/-- COMMAND_NOP (R359): no effect; an OP that is not listed completes with STATUS 1. -/
def execCommandNop (f : Fn) (s : State) : Out :=
  match nextCmd s f.val with
  | none => .next s
  | some e =>
    let op := bits (entryWord e 0) 31 24
    if 1 ≤ op ∧ op ≤ 3 then .next s else .next (cmdDone s f.val (if op = 0 then 0 else 1))

/-- RING_CREATE (R358, R359): head = tail = 0, counters clear. -/
def execRingCreate (f : Fn) (s : State) : Out :=
  match nextCmd s f.val with
  | none => .next s
  | some e =>
    if bits (entryWord e 0) 31 24 ≠ 1 then .next s
    else
      let kind := bits (entryWord e 0) 18 16
      let loc := bits (entryWord e 0) 11 0
      let w5 := entryWord e 5
      let w6 := entryWord e 6
      let lg := bits w5 3 0
      let vec := bits w5 18 8
      let base := entryAddr e 1
      let shd := entryAddr e 3
      if 3 < kind ∨ lg < 6 ∨ hasVec s f.val vec = false then .next (cmdDone s f.val 1)
      else match globalRing s kind f.val loc with
      | none => .next (cmdDone s f.val 2)
      | some g =>
        if (s.ring kind g).created then .next (cmdDone s f.val 4)
        else if base % 4096 ≠ 0 ∨ shd % 8 ≠ 0 then .next (cmdDone s f.val 5)
        else .next (cmdDone (s.setRing kind g { Ring.none with
          created := true, fn := f.val, loc := loc, log2 := lg, base := base, shadow := shd,
          vec := s.get (GLB_FN_VEC_VBASE f.val) + vec, mod := bits w6 15 0, tb := bits w5 6 4,
          rxHold := bits w6 31 24, sched := bits w6 23 16 }) f.val 0)

/-- RING_DESTROY (R359, R371): fetching stops; the command completes when the ring's started entries have, at once where
none is in progress. -/
def execRingDestroy (f : Fn) (s : State) : Out :=
  match nextCmd s f.val with
  | none => .next s
  | some e =>
    if bits (entryWord e 0) 31 24 ≠ 2 then .next s
    else
      let kind := bits (entryWord e 0) 18 16
      let loc := bits (entryWord e 0) 11 0
      if 3 < kind then .next (cmdDone s f.val 1)
      else match ringOf s kind f.val loc with
      | none => .next (cmdDone s f.val (if (globalRing s kind f.val loc).isNone then 2 else 4))
      | some g =>
        let i := (s.ring 4 f.val).next
        let s1 := completeHead (s.ring kind g).done.length (cmdStart s f.val) kind g
        let r1 := s1.ring kind g
        let s2 := if kind = 3 then (if r1.tail = r1.pub then s1 else publish s1 3 g r1.tail)
          else if r1.head = r1.pub then s1 else publish s1 kind g r1.head
        .next (destroyDone (s2.setRing kind g { s2.ring kind g with destroying := true, seq := i }) kind g)

/-- STEER (R351, R358, R359): the physical function sets or removes one steering entry. -/
def execSteer (f : Fn) (s : State) : Out :=
  match nextCmd s f.val with
  | none => .next s
  | some e =>
    if bits (entryWord e 0) 31 24 ≠ 3 then .next s
    else
      let w5 := entryWord e 5
      let skind := bits w5 29 28
      let key := bits (entryWord e 6) 15 0
      let k := match skind with | 0 => key % 128 + key / 256 % 8 * 256 | 1 => key | _ => key % 8
      if skind = 3 then .next (cmdDone s f.val 1)
      else if f.val ≠ 0 then .next (cmdDone s f.val 3)
      else .next (cmdDone { s with
        steer := tset none s.steer (steerK skind k) (if bits w5 31 31 = 1 then some (bits w5 11 0) else none) } f.val 0)

end Sys2Proof.Machine
end

