-- ==== Sys2Proof/Machine/Dma.lean ====
section
/-! DEFINITION. The DMA engine and the grinder (R372 to R394). -/

namespace Sys2Proof.Machine

/-- A DMA channel. -/
def State.ch (s : State) (c : Nat) : DmaCh := tget DmaCh.idle s.dma c
/-- Replace a DMA channel. -/
def State.setCh (s : State) (c : Nat) (x : DmaCh) : State := { s with dma := tset DmaCh.idle s.dma c x }

/-! ### Addresses and the grinder -/

/-- One side of a job: pieces (address, length), and whether they lie in the device. -/
structure Side where
  dev : Bool
  parts : List (Nat × Nat)
  deriving DecidableEq, Repr

/-- Address of byte `o` of a side, and the bytes left in its piece from there. -/
def partAt : List (Nat × Nat) → Nat → Nat × Nat
  | [], _ => (0, 0)
  | (a, n) :: r, o => if o < n then (a + o, n - o) else partAt r (o - n)

/-- A profile read at a job's start (R393). -/
structure Prof where
  mode : Nat
  ssize : Nat
  nch : Nat
  sstride : Nat
  reclen : Nat
  nrec : Nat
  cstride : Nat
  deriving DecidableEq, Repr

/-- The fields of a profile's words. -/
def profOf (ws : List Nat) : Prof :=
  let a := ws.getD 0 0
  let b := ws.getD 1 0
  { mode := bits a 31 30, ssize := 2 ^ bits a 29 28, nch := bits a 22 16, sstride := bits a 15 0,
    reclen := bits b 31 16, nrec := bits b 15 0, cstride := bits (ws.getD 2 0) 23 0 }

/-- The plain copy. -/
def plainProf : Prof := ⟨0, 1, 1, 1, 1, 1, 1⟩

/-- Bytes of one run of MODE 1 and 2. -/
def Prof.run (p : Prof) : Nat := p.nrec * p.ssize

/-- Extent of the channel arrays, and of the records (R386). -/
def Prof.arrays (p : Prof) : Nat := (p.nch - 1) * p.cstride + p.run
/-- Extent of the records. -/
def Prof.records (p : Prof) : Nat := p.nrec * p.reclen

/-- Destination extent of a job of length `len` (R386). -/
def Prof.extent (p : Prof) (len : Nat) : Nat :=
  match p.mode with | 1 => p.arrays | 2 => p.records | _ => len

/-- Bytes a job moves (R386). -/
def Prof.moves (p : Prof) (len : Nat) : Nat :=
  match p.mode with | 1 => p.nch * p.run | 2 => p.nch * p.run | _ => len

/-- Whether a profile and length obey R386 and R387. -/
def Prof.legal (p : Prof) (len : Nat) : Bool :=
  match p.mode with
  | 0 => true
  | 3 => len % 128 == 0
  | m =>
    1 ≤ p.nch && p.nch ≤ 64 && p.ssize ≤ 4 && p.ssize ≤ p.sstride &&
    (p.nch - 1) * p.sstride + p.ssize ≤ p.reclen && p.run ≤ p.cstride &&
    len == (if m = 1 then p.records else p.arrays) && len ≤ 2 ^ 20

/-- Offsets of moved byte `k` among the channel arrays and among the records (R386). -/
def Prof.offsets (p : Prof) (k : Nat) : Nat × Nat :=
  let run := max 1 p.run
  let c := k / run
  let q := k % run
  (c * p.cstride + q, q / p.ssize * p.reclen + c * p.sstride + q % p.ssize)

/-- Source and destination offset of moved byte `k`. -/
def Prof.map (p : Prof) (k : Nat) : Nat × Nat :=
  match p.mode with
  | 1 => ((p.offsets k).2, (p.offsets k).1)
  | 2 => p.offsets k
  | _ => (k, k)

/-- Bytes from moved byte `k` to the end of its run. -/
def Prof.runLeft (p : Prof) (k : Nat) : Nat :=
  match p.mode with
  | 0 => 2 ^ 24
  | 3 => 128 - k % 128
  | _ => max 1 p.run - k % max 1 p.run

/-- MODE 3 on one 128-byte block: output word j, bit i, is input word i, bit j. -/
def bitPlane (blk : Bytes) : Bytes :=
  (List.range 32).flatMap (fun j => leBytes 4
    ((List.range 32).map (fun i => leNat ((blk.drop (4 * i)).take 4) / 2 ^ j % 2 * 2 ^ i)).sum)

/-- The device windows a job may read (R375). -/
def readWindow (a n : Nat) : Bool :=
  (0x300000 ≤ a && a + n ≤ 0x400000 && 0x8000 ≤ a % 0x10000 && a % 0x10000 + n ≤ 0x10000) ||
  (0x510000 ≤ a && a + n ≤ 0x520000) || (0x520000 ≤ a && a + n ≤ 0x540000) || (0x540000 ≤ a && a + n ≤ 0x600000)

/-- The device windows a job may write (R375). -/
def writeWindow (a n : Nat) : Bool :=
  (0x300000 ≤ a && a + n ≤ 0x400000 && 0x8000 ≤ a % 0x10000 && a % 0x10000 + n ≤ 0x10000) ||
  (0x540000 ≤ a && a + n ≤ 0x600000)

/-! ### Jobs -/

/-- The profile in force for a channel's element: GRIND = 0 is a plain copy. -/
def DmaCh.profile (x : DmaCh) : Prof := 
  if bits (entryWord x.words 4) 25 25 = 1 then profOf (x.prof.drop (3 * bits (entryWord x.words 5) 13 10)) else plainProf

/-- LEN of the element. -/
def DmaCh.len (x : DmaCh) : Nat := bits (entryWord x.words 4) 23 0

/-- The source of the element. -/
def srcSide (s : State) (x : DmaCh) : Side :=
  let w4 := entryWord x.words 4
  { dev := bits w4 28 28 == 1
    parts := if bits w4 30 30 = 1 then
        (fragTable s (entryAddr x.words 0) (bits (entryWord x.words 5) 31 23)).map (fun f => (f.1, f.2.1))
      else [(entryAddr x.words 0, x.len)] }

/-- The destination of the element. -/
def dstSide (s : State) (x : DmaCh) : Side :=
  let w4 := entryWord x.words 4
  { dev := bits w4 27 27 == 1
    parts := if bits w4 29 29 = 1 then
        (fragTable s (entryAddr x.words 2) (bits (entryWord x.words 5) 22 14)).map (fun f => (f.1, f.2.1))
      else [(entryAddr x.words 2, x.profile.extent x.len)] }

/-- The three words of each of the sixteen profiles. -/
def allProfs (s : State) : List Nat :=
  (List.range 16).flatMap (fun k =>
    [(rword s.regs (GRD_PROF_A k)).toNat, (rword s.regs (GRD_PROF_B k)).toNat, (rword s.regs (GRD_PROF_C k)).toNat])

/-- End the channel's job: its entry holds the result (R373, R384), the channel is free. -/
def dmaEnd (s : State) (c status : Nat) : State :=
  let x := s.ch c
  let s1 := s.setCh c DmaCh.idle
  ringResult (s1.set (DMA_CH_STAT_REQ_WITHDRAWN c) 0) 2 c (s.get (DMA_CH_STAT_INDEX c))
    [(6, s.get (DMA_CH_BYTES_BYTES c)),
     (7, status * 2 ^ 27 + x.wdrawn.toNat * 2 ^ 25 + x.elems % 65536)]

/-- Check the element just loaded: malformed entries halt (R361, R374), broken addresses and profiles end the job (R375,
R384, R387). -/
def dmaCheck (s : State) (c : Nat) (inChain : Bool) : State :=
  let x := s.ch c
  let r := s.ring 2 c
  let i := s.get (DMA_CH_STAT_INDEX c)
  let w4 := entryWord x.words 4
  let fault : Option (Nat × Option Nat) :=
    if inChain ∧ (bits w4 31 31 = 1 ∨ bits (entryWord x.words 7) 29 16 ≠ 0) then some (1, none)
    else match checkJobWords s x.words with
    | some f => some f
    | none =>
      if bits w4 29 29 = 1 then
        (fragFault (fragTable s (entryAddr x.words 2) (bits (entryWord x.words 5) 22 14)) (x.profile.extent x.len)).map
          (fun k => (4, some k))
      else none
  match fault with
  | some (cause, frag) => hostHalt s cause 2 r.fn r.loc i frag
  | none =>
    let a := srcSide s x
    let b := dstSide s x
    if (a.dev && !a.parts.all (fun p => readWindow p.1 p.2)) || (b.dev && !b.parts.all (fun p => writeWindow p.1 p.2)) then
      dmaEnd s c 3
    else if !x.profile.legal x.len then dmaEnd s c 4
    else s

/-- Load a chain element (R374). -/
def loadElement (s : State) (c a : Nat) : State :=
  let ws := hostEntry s a
  let x := s.ch c
  let s1 := s.setCh c { x with
    elem := a, words := ws, pos := 0, parked := false, stage := 0 }
  dmaCheck s1 c true

/-- Take the ring's next entry as the channel's job (R372, R380). -/
def dmaStart (s : State) (c : Nat) : State :=
  let r := s.ring 2 c
  match r.ready with
  | none => s
  | some e =>
    let s1 := (s.setRing 2 c { r with next := (r.next + 1) % 65536 }).set (DMA_CH_STAT_INDEX c) r.next
    let chain := bits (entryWord e 4) 31 31 == 1
    let s2 := (s1.set (DMA_CH_BYTES_BYTES c) 0).setCh c { DmaCh.idle with
      job := true, chain := chain, words := e, prof := allProfs s }
    if chain then loadElement s2 c (entryAddr e 0) else dmaCheck s2 c false

/-- RKIND, with reserved codes acting as 0 (R378). -/
def rkind (s : State) (c : Nat) : Nat :=
  let k := s.get (DMA_CH_CFG_RKIND c)
  if k ≤ 4 then k else 0

/-- An event request reaches channel `c` (R380): its next outstanding job starts, or MISSED counts. Where the running job has only its
commit point left, the count is remembered for this clock (R394). -/
def eventOne (s : State) (c : Nat) : State :=
  let x := s.ch c
  if !s.flag (DMA_CH_CTL_EN c) then s
  else if x.job && x.commit then
    (s.setCh c { x with missed := (s.now + 1, s.get (DMA_CH_CNT_MISSED c)) }).inc (DMA_CH_CNT_MISSED c)
  else if x.job || (s.ring 2 c).ready.isNone then s.inc (DMA_CH_CNT_MISSED c)
  else dmaStart s c

/-- An event request (R378, R380): 2 the tick boundary, 3 a host comparator, 4 a station's sip ready. Ignored while halted
(R385). Of several channels whose jobs it finds malformed, the halt records the one of R370. -/
def eventRequest (s : State) (kind sel : Nat) : State :=
  if s.fatal || s.halted then s
  else (List.range 64).foldl (fun t c =>
    if rkind t c = kind ∧ (kind = 2 ∨ t.get (DMA_CH_CFG_RSEL c) = sel) then whileRuns t (fun u => eventOne u c) else t) s

/-- BURST of a channel: a multiple of 64 from 64 to 4,096; other values act as 4,096 (R388). -/
def burstMax (s : State) (c : Nat) : Nat :=
  let b := s.get (DMA_CH_CFG_BURST c)
  if b % 64 = 0 ∧ 64 ≤ b ∧ b ≤ 4096 then b else 4096

/-- Bytes from a host address to the next 4 KiB boundary; none in the device. -/
def toPage (dev : Bool) (a : Nat) : Nat := if dev then 2 ^ 24 else 4096 - a % 4096

/-- Bytes of samples that lie within `room` bytes of a side whose samples stand in records (R376, R386), from byte `t` of a sample on. -/
def sampleRoom (p : Prof) (t room : Nat) : Nat :=
  let next := p.reclen - t
  let first := min room (p.ssize - t)
  if room ≤ next then first else first + (room - next) / p.reclen * p.ssize + min ((room - next) % p.reclen) p.ssize

/-- Length of the next burst (R376): a fragment or host page boundary of either side ends it. -/
def burstLen (s : State) (c : Nat) : Nat :=
  let x := s.ch c
  let p := x.profile
  let a := srcSide s x
  let b := dstSide s x
  let (so, do_) := p.map x.pos
  let sa := partAt a.parts so
  let da := partAt b.parts do_
  let t := x.pos % max 1 p.run % p.ssize
  let srcR := min sa.2 (toPage a.dev sa.1)
  let dstR := min da.2 (toPage b.dev da.1)
  let srcB := if p.mode = 1 then sampleRoom p t srcR else srcR
  let dstB := if p.mode = 2 then sampleRoom p t dstR else dstR
  min (burstMax s c) (min (p.moves x.len - x.pos) (min (p.runLeft x.pos) (min srcB dstB)))

/-- Read one byte of a side. -/
def sideByte (s : State) (a : Side) (o : Nat) : Byte :=
  let ad := (partAt a.parts o).1
  if a.dev then s.mem.get ad else s.hostMem.get ad

/-- Write one byte of a side; in table memory as a host write (R375). -/
def sidePut (s : State) (b : Side) (o : Nat) (v : Byte) : State :=
  let ad := (partAt b.parts o).1
  if b.dev then
    let s1 := if ad < 0x400000 then noteTable s ((ad - 0x300000) / 0x10000) (ad % 0x8000 / 4 * 4) else s
    { s1 with mem := s1.mem.put ad v }
  else { s with hostMem := s.hostMem.put ad v }

/-- The bytes of a burst of `n` from position `pos` on: gathered, and in MODE 3 turned into bit planes. -/
def burstData (s : State) (a : Side) (p : Prof) (pos n : Nat) : Bytes :=
  if p.mode = 3 then
    let blk := (List.range 128).map (fun k => sideByte s a (pos / 128 * 128 + k))
    ((bitPlane blk).drop (pos % 128)).take n
  else (List.range n).map (fun k => sideByte s a (p.map (pos + k)).1)

/-- Move one burst: read in full, then written in full (R376). -/
def burstMove (s : State) (c n : Nat) : State :=
  let x := s.ch c
  let p := x.profile
  let b := dstSide s x
  let data := burstData s (srcSide s x) p x.pos n
  let s1 := (data.zipIdx).foldl (fun t e => sidePut t b (p.map (x.pos + e.2)).2 e.1) s
  (s1.setCh c { x with pos := x.pos + n }).set (DMA_CH_BYTES_BYTES c) (s.get (DMA_CH_BYTES_BYTES c) + n)

/-- Follow a chain from the element just read (R374, R382): its end, a park, or the next element. `w6`, `w7` are words 6
and 7 as last read. -/
def chainNext (s : State) (c w6 w7 : Nat) : State :=
  let x := s.ch c
  if bits w7 30 30 = 1 then s.setCh c { x with commit := true, parked := false }
  else if bits w7 31 31 = 1 then
    ((s.setCh c { x with parked := true }).setW (DMA_CH_PARK_LO c) (w32 x.elem)).set (DMA_CH_PARK_HI_ADDR_HI c)
      (x.elem / 2 ^ 32)
  else loadElement s c (w6 + 2 ^ 32 * bits w7 15 0)

/-- Words 6 and 7 of the element at which the channel stands are read again (R374, R382): a reserved bit set there halts (R361). -/
def rereadElement (s : State) (c : Nat) : State :=
  let a := (s.ch c).elem
  let r := s.ring 2 c
  if bits (s.hostWord (a + 28)) 29 16 ≠ 0 then hostHalt s 1 2 r.fn r.loc (s.get (DMA_CH_STAT_INDEX c)) none
  else chainNext s c (s.hostWord (a + 24)) (s.hostWord (a + 28))

/-- An element's transfer is complete (R374, R382): with KICK_PEND a park reads its element again at once. -/
def elementDone (s : State) (c : Nat) : State :=
  let x := s.ch c
  if !x.chain then s.setCh c { x with commit := true, stage := 0 }
  else
    let s1 := s.setCh c { x with elems := x.elems + 1, stage := 0 }
    let w7 := entryWord x.words 7
    if bits w7 30 30 = 0 ∧ bits w7 31 31 = 1 ∧ s1.flag (DMA_CH_STAT_KICK_PEND c) then
      rereadElement (s1.set (DMA_CH_STAT_KICK_PEND c) 0) c
    else chainNext s1 c (entryWord x.words 6) w7

/-- Jobs in flight: first read issued, not ended (R372). -/
def inFlightJobs (s : State) : Nat := (s.dma.filter (fun e => e.2.job && e.2.issued)).length

/-- Staging reserved (R377). -/
def staging (s : State) : Nat := (s.dma.map (fun e => e.2.stage)).sum

/-- Whether a tick-bound job may still issue bursts (R381). -/
def inTick (s : State) (x : DmaCh) : Bool := x.deadline == 0 || x.deadline == s.tick.idx + 1

/-- The level request of a channel is present, or it needs none (R378, R379). -/
def requested (s : State) (c : Nat) : Bool :=
  rkind s c != 1 || s.dreq / 2 ^ (s.get (DMA_CH_CFG_RSEL c) % 8) % 2 == 1

/-- The grinder is at a channel's element (R387): some of it has been read, and not all of it has been reshaped. -/
def DmaCh.grinds (x : DmaCh) : Bool := x.job && x.profile.mode != 0 && decide (0 < x.pos) && !x.commit && !x.parked

/-- Whether a channel's job waits for the grinder, which reshapes one job at a time (R387). -/
def grinderBusy (s : State) (c : Nat) : Bool :=
  (s.ch c).profile.mode != 0 && s.dma.any (fun e => e.1 != c && e.2.grinds)

/-- Whether the job a channel would take next is a grinder job that has to wait (R387). -/
def nextWaits (s : State) (c : Nat) : Bool :=
  match (s.ring 2 c).ready with
  | none => false
  | some e =>
    let ws := if bits (entryWord e 4) 31 31 = 1 then hostEntry s (entryAddr e 0) else e
    ({ DmaCh.idle with words := ws, prof := allProfs s } : DmaCh).profile.mode != 0 && s.dma.any (fun d => d.1 != c && d.2.grinds)

/-- Whether a channel is ready to issue a burst (R377). -/
def dmaReady (s : State) (c : Nat) : Bool :=
  let x := s.ch c
  if x.job then
    !x.parked && !x.commit && requested s c && inTick s x && !grinderBusy s c && (x.issued || decide (inFlightJobs s < 32))
  else s.flag (DMA_CH_CTL_EN c) && rkind s c ≤ 1 && requested s c && (s.ring 2 c).ready.isSome &&
    !nextWaits s c && decide (inFlightJobs s < 32)

/-- The channel the read engine serves next (R377): highest PRIO, round-robin from the one after the last served. -/
def dmaChoice (s : State) : Option Nat :=
  let order := (List.range 64).map (fun k => (s.dmaLast + 1 + k) % 64)
  order.foldl (fun b c =>
    if dmaReady s c then
      (match b with
       | none => some c
       | some d => if s.get (DMA_CH_CFG_PRIO c) > s.get (DMA_CH_CFG_PRIO d) then some c else some d)
    else b) none

/-- Staging a burst of the channel needs beyond what it holds (R377). -/
def stageNeed (s : State) (c n : Nat) : Nat :=
  let x := s.ch c
  let m := x.profile.mode
  if m = 1 ∨ m = 2 then (if x.stage = 0 then (x.len + 63) / 64 * 64 else 0) else (n + 63) / 64 * 64

/-- Issue one burst of a channel that has a job (R376, R377, R381). -/
def issueBurst (s : State) (c : Nat) (readErr : Bool) : State :=
  let x := s.ch c
  let r := s.ring 2 c
  let n := burstLen s c
  let need := stageNeed s c n
  if staging s + need > 2 ^ 22 then s
  else if readErr then hostHalt s 7 2 r.fn r.loc (s.get (DMA_CH_STAT_INDEX c)) none
  else
    let big := decide (x.profile.mode = 1 ∨ x.profile.mode = 2)
    let s1 := s.setCh c { x with
      issued := true, waiting := false, withdrawn := false,
      stage := if big then max x.stage need else 0,
      deadline := if x.deadline = 0 ∧ bits (entryWord x.words 4) 26 26 = 1 then s.tick.idx + 1 else x.deadline }
    let s2 := burstMove (s1.set (DMA_CH_STAT_REQ_WITHDRAWN c) 0) c n
    let s3 := { s2 with dmaLast := c }
    let y := s3.ch c
    if y.pos ≥ y.profile.moves y.len then elementDone s3 c else s3

/-- A burst decision finds the level request absent (R379): the job waits, or is withdrawn. -/
def requestAbsent (s : State) (c : Nat) : State :=
  let x := s.ch c
  if !x.job || x.parked || x.commit then s
  else if x.issued then (s.setCh c { x with withdrawn := true, wdrawn := true }).set (DMA_CH_STAT_REQ_WITHDRAWN c) 1
  else s.setCh c { x with waiting := true }

/-- A burst decision of a channel (R377, R379). -/
def burstDecision (s : State) (c : Nat) (dreq readErr : Bool) : State :=
  let b := s.get (DMA_CH_CFG_RSEL c) % 8
  let s0 := { s with dreq := putBits s.dreq b b dreq.toNat }
  let s1 := if !(s0.ch c).job && s0.flag (DMA_CH_CTL_EN c) && decide (rkind s0 c ≤ 1) then dmaStart s0 c else s0
  if s1.halted || !(s1.ch c).job then s1
  else if !requested s1 c then requestAbsent s1 c
  else if dmaChoice s1 = some c then issueBurst s1 c readErr
  else s1

/-- A burst whose read is issued in the clock of a halt completes, and nothing follows (R394); what it finds malformed takes over the
record where it ranks lower (R370). -/
def haltedBurst (s : State) (c : Nat) (dreq readErr : Bool) : State :=
  let t := burstDecision (s.set BOOT_STATUS_HIHALT 0) c dreq readErr
  if t.halted then whileRuns s (fun u => burstDecision u c dreq readErr) else t.set BOOT_STATUS_HIHALT 1

/-- BURST (R376 to R379, R458): a burst decision of channel `c`, with the level of its DREQ pin. A device that is not in PS0 wakes first. -/
def execBurst (c : Fin 64) (dreq readErr : Bool) (s : State) : Out :=
  if curPs s 0 ≠ 0 then .next (demand s 0)
  else .next (if !s.fatal && s.halted && s.now == s.haltAt then haltedBurst s c.val dreq readErr
    else whileRuns s (fun t => burstDecision t c.val dreq readErr))

/-- ABORT_LATE in the results of the channel's last job, if it waits for its COMPLETION with a STATUS that satisfies `p` (R383). -/
def abortLate (s : State) (c : Nat) (p : Nat → Bool) : State :=
  let r := s.ring 2 c
  let i := s.get (DMA_CH_STAT_INDEX c)
  s.setRing 2 c { r with
    done := r.done.map (fun d =>
      if d.1 = i then (d.1, d.2.map (fun w => if w.1 = 7 ∧ p (bits w.2 30 27) then (7, putBits w.2 30 26 1) else w)) else d) }

/-- A job's commit point (R383): it ends with STATUS 0. An event request counted in MISSED in this very clock starts the next job
(R394). -/
def jobCommits (s : State) (c : Nat) : State :=
  let m := (s.ch c).missed
  let s1 := dmaEnd s c 0
  if m.1 = s.now + 1 then dmaStart (s1.set (DMA_CH_CNT_MISSED c) m.2) c else s1

/-- COMMIT_POINT (R383, R394): the final write leaves; an abort of the same clock comes late. -/
def execCommitPoint (c : Fin 64) (s : State) : Out :=
  let x := s.ch c.val
  if s.fatal || s.halted then .next s
  else if x.job && x.commit then .next (jobCommits s c.val)
  else if !x.job && x.aborted == s.now + 1 then .next ((abortLate s c.val (fun st => st == 1)).setCh c.val DmaCh.idle)
  else .next s

/-- TICK_DEADLINE (R381): a tick-bound job that has not committed by the next boundary ends with STATUS 2. What else happens in the clock
of the boundary, a commit point or an abort, comes before it (R394). -/
def execTickDeadline (c : Fin 64) (s : State) : Out :=
  if s.fatal || s.halted || !(s.ch c.val).job || inTick s (s.ch c.val) || decide (s.now ≤ s.tick.startAt) then .next s
  else .next (devEvent ((dmaEnd s c.val 2).inc (DMA_CH_CNT_LATE c.val)) 13)

/-- ABORT (R383, R389): the job ends with STATUS 1; after the commit point ABORT_LATE is reported instead. A job whose first burst has not
been issued is not in flight (R372), and stays. -/
def execAbort (c : Fin 64) (s : State) : Out :=
  let x := s.ch c.val
  if s.fatal || s.halted || (x.job && !x.issued) then .next s
  else if x.job then
    .next ((dmaEnd s c.val 1).setCh c.val { DmaCh.idle with aborted := if x.commit then s.now + 1 else 0 })
  else .next (abortLate s c.val (fun st => st == 0))

/-- A kick reaches a channel (R361, R374, R382): a parked one reads word 7 of its element again; otherwise KICK_PEND is set. -/
def kick (s : State) (c : Nat) (readErr : Bool) : State :=
  let x := s.ch c
  if !x.parked then s.set (DMA_CH_STAT_KICK_PEND c) 1
  else if readErr then hostHalt s 7 2 (s.ring 2 c).fn (s.ring 2 c).loc (s.get (DMA_CH_STAT_INDEX c)) none
  else rereadElement s c

/-- DMA_KICK (R382). -/
def execDmaKick (c : Fin 64) (x : HostSees) (s : State) : Out :=
  .next (whileRuns (s.hostWrites x.hw) (fun t => kick t c.val x.err.isSome))

end Sys2Proof.Machine
end

