-- ==== Sys2Proof/Machine/Time.lean ====
section
/-! DEFINITION. Time counters (R274 to R311) but for steps: counting and wraps, snapshots, the reference, event inputs,
pulse outputs and host comparators, MAC stamps (R48, R284, R285). -/

namespace Sys2Proof.Machine

/-! ### Counting (R278, R282) -/

/-- One base clock of one counter; a wrap by counting awaits its WRAP command. -/
def Tb.count (t : Tb) (tbl : Bool) : Tb :=
  let a := t.acc + t.add tbl
  { t with acc := a % 2 ^ 72, wrapDue := t.wrapDue || decide (2 ^ 72 ≤ a) }

/-- One base clock of counter `n`; RATE_CLAMP latches CLAMPED (R303). -/
def countOne (s : State) (n : Nat) : State :=
  let t := s.tb n
  let s1 := s.setTb n (t.count (n == 8))
  if n < 8 && t.clamps then s1.set (TB_STAT_CLAMPED n) 1 else s1

/-- One base clock: the nine counters advance (R274). -/
def baseClock (s : State) : State :=
  let s1 := (List.range 9).foldl countOne s
  { s1 with now := s1.now + 1 }

/-- A wrap or unwrap of counter `n` (R282, R303): WRAPS and the record. -/
def wrapEvent (s : State) (n : Nat) (back : Bool) : State :=
  let w := s.get (TB_STAT_WRAPS n)
  devRec (s.set (TB_STAT_WRAPS n) (if back then w + 65535 else w + 1)) 2 2 back.toNat n

/-- WRAP (R282, R311): the nanosecond part has passed from 0xFFFF_FFFF to 0 by counting. -/
def execWrap (n : Fin 9) (s : State) : Out :=
  let t := s.tb n.val
  if !t.wrapDue then .next s else .next (wrapEvent (s.setTb n.val { t with wrapDue := false }) n.val false)

/-- TB_INC_HI (R279): the increment held in both registers takes effect. -/
def execTbIncHi (n : TbIx) (v : Word) (s : State) : Out :=
  if s.fatal then .next s
  else
    let s1 := s.set (TB_INC_HI_INC_HI n.val) (getField v 0 16)
    let inc := s1.get (TB_INC_LO_INC_LO n.val) + 2 ^ 32 * s1.get (TB_INC_HI_INC_HI n.val)
    .next (s1.setTb n.val { s1.tb n.val with inc := inc })

/-- TB_NS_READ (R288): the fraction latches into TB_FRAC; an 8-byte read is one consistent stamp. -/
def execTbNsRead (n : Fin 9) (_wide : Bool) (s : State) : Out :=
  .next (s.set (TB_FRAC_FRAC n.val) (s.tbStamp n.val % 65536))

/-- SNAPSHOT (R289, R306). -/
def execSnapshot (s : State) : Out :=
  if s.fatal then .next s
  else
    .next ((List.range 9).foldl (fun t n =>
      (t.set (TB_SNAP_NS_NS n) (s.tbNs n)).set (TB_SNAP_FR_FRAC n) (s.tbStamp n % 65536)) (s.incW TB_SNAP_SEQ))

/-- REF_LOST (R290, R435): the time PLL runs from CORE_REFCLK. -/
def execRefLost (s : State) : Out :=
  .next (devEvent (setLive (s.set TB_CLK_STAT_REF_LOST 1) 0 7 true) 7)

/-- REF_RETURN (R290, R305): after 10 ms of a stable TIME_REFCLK. REF keeps the frequency that power-on measured; where it found none, which
of 10 and 25 MHz appears is the board's: a free value (log entry 105). The sticky bit of the source stays. -/
def execRefReturn (s : State) : Out :=
  let s1 := setLive (s.set TB_CLK_STAT_REF_LOST 0) 0 7 false
  if s.get TB_CLK_STAT_REF = 0 then
    let (x, s2) := s1.draw
    .next (s2.set TB_CLK_STAT_REF (1 + x % 2))
  else .next s1

/-! ### Event inputs (R291, R292) -/

/-- An event input. -/
def State.input (s : State) (i : Nat) : EvinSt := tget EvinSt.rst s.evin i

/-- The registers show the entry at the head of the store (R292, R307). What the stamp fields read as while the store is
empty is not stated: they take free values. -/
def showHead (s : State) (i : Nat) : State :=
  let x := s.input i
  let s0 := s.set (TB_EVIN_STAMP1_LEVEL i) x.store.length
  match x.store with
  | (st, tbl) :: _ =>
    (((s0.set (TB_EVIN_STAMP0_NS i) (st / 65536)).set (TB_EVIN_STAMP1_FRAC i) (st % 65536)).set
      (TB_EVIN_STAMP1_VALID i) 1).set (TB_EVIN_STAMP2_TBL_NS i) tbl
  | [] =>
    let (a, s1) := s0.draw
    let (b, s2) := s1.draw
    let (c, s3) := s2.draw
    (((s3.set (TB_EVIN_STAMP0_NS i) a).set (TB_EVIN_STAMP1_FRAC i) b).set (TB_EVIN_STAMP1_VALID i) 0).set
      (TB_EVIN_STAMP2_TBL_NS i) c

/-- INPUT_STAMP (R291, R307). -/
def execInputStamp (i : Fin 12) (edge : InEdge) (s : State) : Out :=
  let e := s.get (TB_EVIN_CTL_EDGE i.val)
  let wanted := if e = 1 then edge.falling else if e = 2 then true else !edge.falling
  let x := s.input i.val
  if s.fatal || !s.flag (TB_EVIN_CTL_EN i.val) || !wanted then .next s
  else if (match x.last with | some t => decide (8 * s.now + edge.sub.val < t + 800) | none => false) || x.store.length ≥ 16 then
    .next (s.inc (TB_EVIN_CTL_MISSED i.val))
  else
    let st := tbStampIn s (s.get (TB_EVIN_CTL_TB i.val)) (32 * edge.sub.val)
    let s1 := { s with evin := tset EvinSt.rst s.evin i.val ⟨x.store ++ [(st, s.tbNs 8)], some (8 * s.now + edge.sub.val)⟩ }
    let s2 := if x.store.isEmpty then showHead s1 i.val else s1.set (TB_EVIN_STAMP1_LEVEL i.val) (x.store.length + 1)
    .next (if s.flag (TB_EVIN_CTL_EVT_EN i.val) then devRec s2 2 3 (st / 65536) i.val else s2)

/-- EVIN_STAMP1_READ (R292): the read removes the head entry. -/
def execEvinStamp1Read (i : Fin 12) (s : State) : Out :=
  let x := s.input i.val
  if x.store.isEmpty then .next s
  else .next (showHead { s with evin := tset EvinSt.rst s.evin i.val ⟨x.store.tail, x.last⟩ } i.val)

/-! ### Pulse outputs and host comparators (R293 to R297) -/

/-- The first of target + k * period, k at least 1, that lies in the future (R295). -/
def nextTarget (target per now : Nat) : Nat :=
  let behind := (diff32 now target).toNat
  (target + (behind / per + 1) * per) % 2 ^ 32

/-- Period of a PPS generator (R296). -/
def ppsPeriod (s : State) (j : Nat) : Nat :=
  let p := s.get (TB_PPSO_PER_PER j)
  if 1000 ≤ p ∧ p < 2 ^ 31 then p else 1000000000

/-- Width of a pulse in ns (R308). -/
def ppsWidth (s : State) (j : Nat) : Nat := 1000 * max 1 (s.get (TB_PPSO_CTL_WIDTH j))

/-- The next rising edge after the pulse in progress (R293, R295). -/
def ppsNext (s : State) (j : Nat) : Nat :=
  nextTarget (s.get (TB_PPSO_NEXT_NEXT j)) (ppsPeriod s j) (s.tbNs (s.get (TB_PPSO_CTL_TB j)))

/-- Whether the pulse in progress has lasted (R293, R308): WIDTH microseconds, or, with a width at or above PER, until 1 microsecond
before the next pulse on its time base. -/
def ppsOver (s : State) (j : Nat) : Bool :=
  if ppsWidth s j ≥ ppsPeriod s j then decide (diff32 (ppsNext s j) (s.tbNs (s.get (TB_PPSO_CTL_TB j))) ≤ 1000)
  else decide (tget 0 s.ppsHigh j + ppsWidth s j ≤ s.now + 1)

/-- PPS_PULSE (R293, R295, R297): the pin rises at NEXT. -/
def execPpsPulse (j : Fin 4) (s : State) : Out :=
  let now := s.tbNs (s.get (TB_PPSO_CTL_TB j.val))
  if s.fatal || !s.flag (TB_PPSO_CTL_EN j.val) || tget 0 s.ppsHigh j.val != 0 ||
      !isPast (s.get (TB_PPSO_NEXT_NEXT j.val)) now then .next s
  else
    let s1 := if tget false s.targetLate (16 + j.val) then s.set (TB_PPSO_CTL_LATE j.val) 1 else s
    .next ({ s1 with
      targetLate := tset false s1.targetLate (16 + j.val) false
      ppsHigh := tset 0 s1.ppsHigh j.val (s.now + 1) }.emit (.pps j.val true))

/-- PPS_PULSE_END (R293): the pin falls, and NEXT moves on by whole periods into the future. -/
def execPpsPulseEnd (j : Fin 4) (s : State) : Out :=
  if tget 0 s.ppsHigh j.val = 0 ∨ !ppsOver s j.val then .next s
  else
    let s1 := s.set (TB_PPSO_NEXT_NEXT j.val) (ppsNext s j.val)
    .next ({ s1 with ppsHigh := tset 0 s1.ppsHigh j.val 0 }.emit (.pps j.val false))

/-- Period of a host comparator (R309). -/
def cmpPeriod (s : State) (k : Nat) : Nat :=
  let p := s.get (TB_CMP_PER_PER k)
  if p = 0 then 0 else max 1000 p

/-- TCMP_H_FIRE (R294, R295, R297, R380): CNT, timed event, record, re-arming. -/
def execTcmpHFire (k : Fin 16) (s : State) : Out :=
  let now := s.tbNs (s.get (TB_CMP_CTL_TB k.val))
  let target := s.get (TB_CMP_TARGET_TARGET k.val)
  if s.fatal || !s.flag (TB_CMP_CTL_EN k.val) || !isPast target now then .next s
  else
    let per := cmpPeriod s k.val
    let before := if s.fired.1 = s.now then s.fired.2 else []
    let s1 := { s.incW (TB_CMP_CNT_CNT k.val) with fired := (s.now, (k.val, rword s.regs (TB_CMP_CNT k.val)) :: before) }
    let s2 := if tget false s.targetLate k.val then s1.set (TB_CMP_CTL_LATE k.val) 1 else s1
    let s3 := if per = 0 then s2.set (TB_CMP_CTL_EN k.val) 0
      else s2.set (TB_CMP_TARGET_TARGET k.val) (nextTarget target per now)
    let s4 := { s3 with targetLate := tset false s3.targetLate k.val false }
    let s5 := if s.flag (TB_CMP_CTL_EVT_EN k.val) then devRec s4 2 4 target k.val else s4
    .next (eventRequest s5 3 k.val)

end Sys2Proof.Machine
end

