-- ==== Sys2Proof/Machine/Rounds.lean ====
section
/-! DEFINITION. Ensemble synchronisation: tick starts (R30), reference-frame measurements (R313, R314), the average
(R316), the servo (R317, R318), the jump check (R323, R324), path changes (R325, R326), and what a cold start that leaves
Sync does to them (R249, R258, R338). Values are in 2^-16 ns where nothing else is said. -/

namespace Sys2Proof.Machine

/-! ### Numbers and lookups -/

/-- Division rounded to nearest, ties upward (log entry 16). -/
def divNear (a : Int) (b : Nat) : Int := (2 * a + (b : Int)) / (2 * (b : Int))

/-- A selected node. -/
def State.node (s : State) (n j : Nat) : NodeSt := tget NodeSt.rst s.nodes (n * 16 + j)
/-- Replace a selected node. -/
def State.setNode (s : State) (n j : Nat) (x : NodeSt) : State := { s with nodes := tset NodeSt.rst s.nodes (n * 16 + j) x }
/-- A path of a node. -/
def NodeSt.path (x : NodeSt) (p : Nat) : PathSt := if p = 0 then x.p0 else x.p1
/-- Replace a path of a node. -/
def NodeSt.setPath (x : NodeSt) (p : Nat) (y : PathSt) : NodeSt := if p = 0 then { x with p0 := y } else { x with p1 := y }
/-- A path. -/
def State.path (s : State) (n j p : Nat) : PathSt := (s.node n j).path p
/-- Replace a path. -/
def State.setPath (s : State) (n j p : Nat) (y : PathSt) : State := s.setNode n j ((s.node n j).setPath p y)
/-- The servo of a time base. -/
def State.syn (s : State) (n : Nat) : SynSt := tget SynSt.rst s.syns n
/-- Replace a servo. -/
def State.setSyn (s : State) (n : Nat) (x : SynSt) : State := { s with syns := tset SynSt.rst s.syns n x }
/-- A slave port of a domain. -/
def State.ptp (s : State) (n b : Nat) : PtpSt := tget PtpSt.rst s.ptps (n * 2 + b)
/-- Replace a slave port. -/
def State.setPtp (s : State) (n b : Nat) (x : PtpSt) : State := { s with ptps := tset PtpSt.rst s.ptps (n * 2 + b) x }
/-- An asymmetry watch entry. -/
def State.asw (s : State) (n w : Nat) : AswSt := tget AswSt.rst s.asws (n * 4 + w)
/-- Replace a watch entry. -/
def State.setAsw (s : State) (n w : Nat) (x : AswSt) : State := { s with asws := tset AswSt.rst s.asws (n * 4 + w) x }
/-- Cold start of a time base. -/
def State.cst (s : State) (n : Nat) : CstSt := tget CstSt.rst s.csts n
/-- Replace a cold start. -/
def State.setCst (s : State) (n : Nat) (x : CstSt) : State := { s with csts := tset CstSt.rst s.csts n x }
/-- A guardian. -/
def State.grd (s : State) (p : Nat) : GrdSt := tget GrdSt.rst s.grds p
/-- Replace a guardian. -/
def State.setGrd (s : State) (p : Nat) (x : GrdSt) : State := { s with grds := tset GrdSt.rst s.grds p x }

/-- SYN_GAIN in force: a write takes effect at the next round or sync interval (R331). -/
def synGain (s : State) (n : Nat) : Nat := match (s.syn n).was with | some w => w.1 | none => (rword s.regs (SYN_GAIN n)).toNat
/-- SYN_PATH in force. -/
def synPath (s : State) (n : Nat) : Nat := match (s.syn n).was with | some w => w.2 | none => (rword s.regs (SYN_PATH n)).toNat
/-- PATH_JUMP in force, in 2^-16 ns (R331). -/
def pathJump (s : State) (n : Nat) : Int := 4096 * (bits (synPath s n) 31 16 : Int)
/-- PATH_HOLDOFF in force; 0 acts as 1. -/
def holdoff (s : State) (n : Nat) : Nat := max 1 (bits (synPath s n) 7 0)
/-- A round or a sync interval begins: SYN_GAIN and SYN_PATH are in force as they read (R331). -/
def gainsTake (s : State) (n : Nat) : State := s.setSyn n { s.syn n with was := none }

/-- 2^e s in ns; an exponent outside -7 to 4 gives an interval the spec does not state (log entry 18). -/
def intervalNs (e : Int) : Nat :=
  if 0 ≤ e ∧ e ≤ 4 then 1000000000 * 2 ^ e.toNat
  else if -7 ≤ e ∧ e < 0 then 1000000000 / 2 ^ (-e).toNat
  else Config.oddInterval e.natAbs

/-- The sync interval of a domain. -/
def syncInterval (s : State) (n : Nat) : Nat := intervalNs (toInt 8 (s.get (PTP_CTL_LOGSYNC n)))

/-- The number of the tick to come. -/
def nextNum (s : State) : Nat := (s.tick.n0 + s.tick.idx) % 2 ^ 32

/-- Whether the time of the tick's base lies `before` 2^-16 ns ahead of the boundary to come, or later. -/
def withinSeq (s : State) (before : Nat) : Bool :=
  s.tick.run && isPast48 ((s.tick.next + 2 ^ 48 - before) % 2 ^ 48) (s.tbStamp s.tickTb)

/-- Whether rounds of a time base are computed now: ensemble mode, in Sync where cold start is enabled (R318), and not on a
follower (R502). -/
def roundsRun (s : State) (n : Nat) : Bool :=
  decide (s.get (TB_CTL_MODE n) = 1) && !followsTick s n &&
  (!s.flag (SYN_CS_CTL_EN n) || decide (s.get (SYN_CS_STAT_STATE n) = 5))

/-- Whether a round of time base `n` is due to close at the boundary to come (R315). -/
def roundDue (s : State) (n : Nat) : Bool :=
  roundsRun s n && (s.syn n).begun && !(s.syn n).closed && s.tick.cur &&
  nextNum s % (s.get (SYN_CTL_ROUND n) + 1) == 0

/-- Delays in force of a node's paths from its registers (R326, R338). -/
def takeDelays (s : State) (n j : Nat) : State :=
  [0, 1].foldl (fun t p => t.setPath n j p { t.path n j p with dly := toInt 32 (t.get (NODE_DLY_DLY n j p)) }) s

/-- A node's measurements are those of a closed round; what follows belongs to the next. -/
def shutNode (s : State) (n j : Nat) : State :=
  let x := s.node n j
  s.setNode n j { x with
    meas := 0, shut := x.meas, p0 := { x.p0 with devs := [], shut := x.p0.devs }, p1 := { x.p1 with devs := [], shut := x.p1.devs } }

/-- Close a round (R315, R338): its measurements wait for their load; those from now on belong to the next round, with the delays that
the registers hold. -/
def closeRound (s : State) (n : Nat) : State :=
  let s1 := (List.range 16).foldl (fun t j => takeDelays (shutNode t n j) n j) s
  s1.setSyn n { s1.syn n with closed := true, due := true }

/-- From T - 60 ns of a boundary that ends a round, the round is closed before anything else (R338). -/
def closeDue (s : State) (n : Nat) : State := if withinSeq s (60 * 65536) && roundDue s n then closeRound s n else s
/-- The F and C bits of NODE_STAT. -/
def fBit (n j p : Nat) : F := if p = 0 then NODE_STAT_F0 n j else NODE_STAT_F1 n j
/-- The C bits of NODE_STAT. -/
def cBit (n j p : Nat) : F := if p = 0 then NODE_STAT_C0 n j else NODE_STAT_C1 n j

/-! ### Measurements (R313, R314) -/

/-- Whether the SPER of a REL = 0 node lies in the range of R337. -/
def sperOk (s : State) (n j : Nat) : Bool :=
  s.flag (NODE_CTL_REL n j) ||
  (decide (2 * s.get (SYN_DEVLIM_DEV_LIMIT n) + 1000 ≤ s.get (NODE_SPER_SPER n j)) &&
   decide (s.get (NODE_SPER_SPER n j) ≤ 2 ^ 29))

/-- Whether frames of a node yield measurements (R313). -/
def measurable (s : State) (n j : Nat) : Bool := s.flag (NODE_CTL_VALID n j) && sperOk s n j

/-- Whether a node takes part in rounds. -/
def partakes (s : State) (n j : Nat) : Bool :=
  s.flag (NODE_CTL_VALID n j) && !s.flag (NODE_CTL_RETIRED n j) && !s.flag (NODE_STAT_LOST_TRK n j) && sperOk s n j

/-- The nominal send time nearest to `x` for REL = 1: tick starts plus SOFS, the earlier one on a tie. -/
def nominalRel (s : State) (n j x : Nat) : Nat :=
  let sofs := 65536 * s.get (NODE_SOFS_SOFS n j)
  let k0 : Int := (s.tick.idx : Int) - 1
  let m0 : Int := diff48 x (tickStart s k0 + sofs) / (tickPer s : Int)
  let at_ : Int → Nat := fun d => (tickStart s (k0 + m0 + d) + sofs) % 2 ^ 48
  [at_ 0, at_ 1, at_ 2].foldl
    (fun b c => if (diff48 c x).natAbs < (diff48 b x).natAbs then c else b) (at_ (-1))

/-- A measurement on path `p` with nominal send time `e` and receive stamp `r`. -/
def measured (s : State) (n j p e r : Nat) : State :=
  let x := s.node n j
  let y := x.path p
  let dev := 256 * divNear (diff48 e r + 256 * y.dly) 256
  let s1 := s.setNode n j { x with meas := x.meas + 1 }
  if dev.natAbs > 65536 * s.get (SYN_DEVLIM_DEV_LIMIT n) then
    raiseDevice (s1.incW (NODE_STAT_EXCL n j)) 9 .corrected (n * 16 + j)
  else s1.setPath n j p { y with devs := y.devs ++ [dev] }

/-- A reference frame of node `j` of time base `n` on path `p`, received with stamp `r` (R313). A node that is retired or has lost its
tracking is measured all the same. -/
def refMeasure (s : State) (n j p r : Nat) : State :=
  if s.get (TB_CTL_MODE n) ≠ 1 ∨ followsTick s n ∨ !measurable s n j then s
  else
    let s := closeDue s n
    let y := s.path n j p
    let x := ofInt 48 ((r : Int) - 256 * y.dly)
    if s.flag (NODE_CTL_REL n j) then (if s.tick.run then measured s n j p (nominalRel s n j x) r else s)
    else
      let last := (s.node n j).eLast
      let d := diff48 x (65536 * last)
      if d.natAbs ≥ 2 ^ 46 then s.set (NODE_STAT_LOST_TRK n j) 1
      else
        let k := divNear d (65536 * s.get (NODE_SPER_SPER n j))
        let e := ofInt 32 ((last : Int) + k * (s.get (NODE_SPER_SPER n j) : Int))
        measured (s.setNode n j { s.node n j with eLast := e }) n j p (65536 * e) r

/-! ### The jump check (R323, R324) -/

/-- A refusal in the clock of a grant comes first (R338): what the grant named is gone, and it is a miss. -/
def ungrant (s : State) (n : Nat) : State :=
  let hit : StepDue → Bool := fun e => e.n == n && e.grant.isSome
  if s.steps.any hit then { s.set SYN_GRANT_MISS 1 with steps := s.steps.filter (fun e => !hit e) } else s

/-- The jump check of a correction `v` from source `src` (0 ensemble, 1 PTP, 2 software step): whether it passes. A pass
of source 0 or 1 withdraws its own pending value; a refusal becomes the pending value. -/
def jumpCheck (s : State) (n : Nat) (v : Int) (src : Nat) : Bool × State :=
  if v.natAbs ≤ 65536 * max 1 (s.get (SYN_LIMIT_JUMP_LIMIT n)) then
    (true, if src ≤ 1 ∧ s.get (SYN_PEND_CTL_SRC n) = src then s.set (SYN_PEND_CTL_VALID n) 0 else s)
  else
    let ns := ofInt 32 (v / 65536)
    let seq := (s.get (SYN_PEND_CTL_SEQ n) + 1) % 256
    let s1 := ((s.set (SYN_PEND_NS_NS n) ns).set (SYN_PEND_CTL_FRAC n) (ofInt 16 v)).set (SYN_PEND_CTL_SEQ n) seq
    let s2 := ((s1.set (SYN_PEND_CTL_VALID n) 1).set (SYN_PEND_CTL_SRC n) src).set (SYN_STAT_STEP_REFUSED n) 1
    (false, devRec ((ungrant s2 n).inc (SYN_CNT_REFUSED_N n)) 3 2 ns (n * 65536 + seq))

/-! ### The servo (R317) -/

/-- RATE_LIMIT as 2^-40 ns per clock (R317, R331). -/
def rateLimit (s : State) (n : Nat) : Int :=
  divNear ((min 20000 (max 1 (s.get (SYN_LIMIT_RATE_LIMIT n))) : Nat) * 2 ^ 40) 100000000

/-- The new rate term and servo term for an offset `o` spread over `lr` (R317). -/
def servoTerms (s : State) (n : Nat) (o : Int) (lr : Nat) : Int × Int :=
  let off := divNear (o * 2 ^ 40) (max 1 lr)
  let rl := rateLimit s n
  let rate := max (-rl) (min rl ((s.syn n).rate + divNear ((bits (synGain s n) 31 16 : Int) * off) 256))
  (rate, rate + divNear ((bits (synGain s n) 15 0 : Int) * off) 256)

/-- Load a rate term and a servo term (R278, R312). -/
def loadServo (s : State) (n : Nat) (rate servo : Int) : State :=
  let s1 := s.setSyn n { s.syn n with rate := rate }
  (s1.setTb n { s1.tb n with servo := servo }).set (SYN_RATE_RATE n) (ofInt 32 rate)

/-- The time base has become unsynchronised: the offset term is zero, the rate term stays (R312). -/
def holdover (s : State) (n : Nat) : State := loadServo s n (s.syn n).rate (s.syn n).rate

/-! ### Rounds (R315, R316, R325) -/

/-- The mean of a path's measurements of the closed round. -/
def PathSt.mean (y : PathSt) : Option Int := if y.shut.isEmpty then none else some (divNear y.shut.sum y.shut.length)

/-- Paths in use of a node. -/
def pathsOf (s : State) (n j : Nat) : List Nat := if s.flag (NODE_CTL_P1_EN n j) then [0, 1] else [0]

/-- A node's deviation over its paths that are not frozen (R316). -/
def nodeDev (s : State) (n j : Nat) : Option Int :=
  let ds := (pathsOf s n j).filterMap (fun p => if (s.path n j p).frozen then none else (s.path n j p).mean)
  if !partakes s n j || ds.isEmpty then none else some (divNear ds.sum ds.length)

/-- Insert into an ascending list. -/
def insertInt (x : Int) : List Int → List Int
  | [] => [x]
  | y :: r => if x ≤ y then x :: y :: r else y :: insertInt x r

/-- R316: the offset (none for a thin round), m - 2k, and the node deviations. -/
def roundOffset (s : State) (n : Nat) : Option Int × Nat × List (Nat × Int) :=
  let devs := (List.range 16).filterMap (fun j => (nodeDev s n j).map (fun d => (j, d)))
  let ds := (if s.flag (SYN_CTL_SELF n) then [0] else []) ++ devs.map (·.2)
  let k := s.get (SYN_CTL_K n)
  let m := ds.length
  if m < 2 * k + 1 then (none, m - 2 * k, devs)
  else
    let mid := ((ds.foldr insertInt []).drop k).take (m - 2 * k)
    (some (divNear mid.sum (m - 2 * k)), m - 2 * k, devs)

/-- Freeze a path (R326): a path already frozen only restarts its holdoff (R338). Where no earlier round gave it a residual,
its pre-change residual is not stated: a free value. -/
def freezePath (s : State) (n j p : Nat) (change : Int) : State :=
  let y := s.path n j p
  if y.frozen then s.setPath n j p { y with hold := holdoff s n }
  else
    let (f, s0) := s.draw
    let (base, s1) := match y.last with | some r => (r, s) | none => ((toInt 48 f), s0)
    let s2 := s1.setPath n j p { y with frozen := true, offered := false, hold := holdoff s n, base := base, now := none }
    devRec (s2.set (fBit n j p) 1) 3 3 (ofInt 32 (divNear change 256)) (n * 65536 + j)

/-- The change of a path in this round, if it is judged (R325). -/
def pathDelta (s : State) (n j p : Nat) (o : Int) : Option Int :=
  let y := s.path n j p
  if y.frozen || !partakes s n j || !(pathsOf s n j).contains p then none
  else match y.mean, y.last with
    | some m, some l => some (m - o - l)
    | _, _ => none

/-- Take this round's residual of a path: as its new res_last, or, while it is frozen, for R326; the HOLD of a frozen path decreases once
per round, measured or not. -/
def takeResidual (s : State) (n j p : Nat) (o : Int) : State :=
  let y := s.path n j p
  let y1 := if y.frozen then { y with hold := y.hold - 1 } else y
  if !partakes s n j || !(pathsOf s n j).contains p then s.setPath n j p y1
  else match y.mean with
    | none => s.setPath n j p y1
    | some m =>
      s.setPath n j p (if y.frozen then { y1 with now := some (m - o) } else { y1 with last := some (m - o) })

/-- Judge one node's paths against o_pre (R325), then freeze what changed (R326). -/
def judgeNode (s : State) (n : Nat) (o : Int) (j : Nat) : State :=
  let pj := pathJump s n
  let d0 := pathDelta s n j 0 o
  let d1 := pathDelta s n j 1 o
  let hit : List (Nat × Int) := match d0, d1 with
    | some a, some b =>
      if (a - b).natAbs > pj.natAbs then (if a.natAbs > b.natAbs then [(0, a)] else [(1, b)]) else []
    | some a, none => if a.natAbs > pj.natAbs then [(0, a)] else []
    | none, some b => if b.natAbs > pj.natAbs then [(1, b)] else []
    | none, none => []
  let s1 := hit.foldl (fun t h => freezePath t n j h.1 h.2) s
  [0, 1].foldl (fun t p =>
    if hit.any (fun h => h.1 == p) then t else takeResidual t n j p o) s1

/-- Show the greater HOLD of a node's paths (R334). -/
def showHold (s : State) (n j : Nat) : State :=
  s.set (NODE_STAT_HOLD n j) (min 255 (max (s.path n j 0).hold (s.path n j 1).hold))

/-- Forget a node's measurements of the round. -/
def clearMeas (s : State) (n j : Nat) : State :=
  let x := s.node n j
  s.setNode n j { x with meas := 0, p0 := { x.p0 with devs := [] }, p1 := { x.p1 with devs := [] } }

/-- Ticks of the round that begins at tick number `n0` (R315, R317). -/
def roundTicks (s : State) (n n0 : Nat) : Nat := min (s.get (SYN_CTL_ROUND n) + 1) (2 ^ 32 - n0)

/-- Cold start returns to Listen (R258): a new timer; a time base that leaves Sync is unsynchronised, its round is discarded
(R338), and on the tick's time base every guardian returns to Startup (R249). -/
def toListen (s : State) (n : Nat) : State :=
  let was := s.get (SYN_CS_STAT_STATE n)
  let wait := s.get (SYN_CS_WAIT_WAIT n) + s.get (SYN_CS_CTL_ID n) * s.get (SYN_CS_SLOT_SLOT n)
  let s1 := (s.set (SYN_CS_STAT_STATE n) 1).setCst n
    { s.cst n with timer := s.now + 1000 * wait, sent := 0, first := none }
  if was ≠ 5 then s1
  else
    let s2 := (holdover s1 n).set (SYN_STAT_SYNC n) 0
    let s3 := s2.setSyn n { s2.syn n with due := false, begun := false, thin := 0 }
    if n ≠ s.tickTb then s3
    else guardsToStartup s3

/-- A thin round is loaded (R318). -/
def loadThin (s : State) (n : Nat) : State :=
  let x := s.syn n
  let s1 := holdover ((s.set (SYN_STAT_THIN n) 1).inc (SYN_CNT_THIN_N n)) n
  let run := x.thin + 1
  let s2 := s1.setSyn n { s1.syn n with thin := run }
  if run < max 1 (s.get (SYN_CTL_LOSS n)) then s2
  else
    let s3 := if s2.flag (SYN_STAT_SYNC n) then devRec (s2.set (SYN_STAT_SYNC n) 0) 3 1 0 n else s2
    if csOn s3 n then toListen s3 n else s3

/-- Paths, nodes and the offset of a closed round, as its load makes them known (R316, R318, R325, R326): the offset, none of a thin
round, and the state with what was found changed frozen. -/
def judgeRound (s : State) (n : Nat) : Option Int × State :=
  let o0 := ((roundOffset s n).1).getD 0
  let s1 := (List.range 16).foldl (fun t j => judgeNode t n o0 j) s
  let (o, used, devs) := roundOffset s1 n
  let s2 := devs.foldl (fun t d => t.set (NODE_DEV_DEV n d.1) (ofInt 32 (divNear d.2 256))) s1
  let s3 := (List.range 16).foldl (fun t j => showHold (t.set (NODE_STAT_MEAS n j) (min 255 (t.node n j).shut)) n j) s2
  (o, (s3.incW (SYN_STAT_ROUNDS n)).set (SYN_STAT_USED n) used)

/-- The results of a closed round take effect in one clock at T - 20 ns (R315 to R318, R325, R326, R332). -/
def servoLoad (s : State) (n : Nat) : State :=
  if !(s.syn n).due then s
  else
    match judgeRound (s.setSyn n { s.syn n with due := false }) n with
    | (none, s1) => loadThin s1 n
    | (some o, s1) =>
      let (ok, s2) := jumpCheck s1 n o 0
      let s3 := ((s2.set (SYN_STAT_THIN n) 0).set (SYN_STAT_SYNC n) 1).set (SYN_OFS_O n) (ofInt 32 (divNear o 256))
      let s4 := s3.setSyn n { s3.syn n with thin := 0 }
      let (rate, servo) := servoTerms s4 n o (roundTicks s4 n (nextNum s4) * tickPer s4)
      if ok then loadServo s4 n rate servo else s4

/-! ### Followers of a compound node (R501, R502, R504, R508, R510, R515) -/

/-- SYNC of a follower; its fall sends the guardians back to Startup. -/
def followerSync (s : State) (n : Nat) (b : Bool) : State :=
  let s1 := s.setB (SYN_STAT_SYNC n) b
  if s.flag (SYN_STAT_SYNC n) && !b then guardsToStartup s1 else s1

/-- A follower's load at T - 20 ns (R502): the average offset of the tick, through the jump check. Without an offset, before the
join and after a refusal it holds over, out of lock. In another mode than ensemble nothing is loaded (R276, R312). -/
def followerLoad (s : State) (n : Nat) : State :=
  let os := s.ulc.ofs
  let s0 := { s with ulc := { s.ulc with ofs := [] } }
  if s.get (TB_CTL_MODE n) ≠ 1 then s0
  else if os.isEmpty || !s.ulc.joined then followerSync (setLock (holdover s0 n) false) n false
  else
    let avg := divNear os.sum os.length
    let (ok, s1) := jumpCheck (s0.set ULC_TIME_OFS (ofInt 32 avg)) n (256 * avg) 0
    if ok then
      let (rate, servo) := servoTerms s1 n (256 * avg) (tickPer s1)
      followerSync (setLock (loadServo s1 n rate servo) true) n s.ulc.sync
    else followerSync (setLock (holdover s1 n) false) n false

/-- Whether the device has other members present at some depth. -/
def leadsOthers (s : State) : Bool :=
  (List.range 4).any (fun c => cnOn s c && s.get (ULC_CN_STAT_PRESENT c) != 2 ^ cnMe s c)

/-- Leadership at a tick boundary (R501, R510). A device that begins to lead keeps its time: it goes on in Sync if it has joined
the compound, else it starts cold start anew. One that leads others while it is synchronised is of their compound, without a step (R504).
One that begins to follow stops rounds and cold start; it joins by a step where it is not yet of the compound. -/
def leaderBoundary (s : State) : State :=
  let n := s.tickTb
  let s1 := leaderMoves s
  match timeLeader s, timeLeader s1 with
  | false, true =>
    let s2 := (setLock (holdover s1 n) true).set (SYN_STAT_SYNC n) 0
    let s3 := { s2 with ulc := { s2.ulc with ofs := [] } }
    if !s3.flag (SYN_CS_CTL_EN n) then s3
    else if s3.ulc.joined then (s3.set (SYN_CS_STAT_STATE n) 5).setCst n { s3.cst n with timer := s3.now, first := none }
    else toListen (guardsToStartup s3) n
  | true, false =>
    let s2 := { s1 with ulc := { s1.ulc with ofs := [] } }
    let s3 := (setLock (holdover s2 n) false).set (SYN_CS_STAT_STATE n) 0
    followerSync (s3.setSyn n { s3.syn n with due := false, begun := false, thin := 0 }) n false
  | true, true => if leadsOthers s1 && s1.flag (SYN_STAT_SYNC n) then { s1 with ulc := { s1.ulc with joined := true } } else s1
  | false, false => s1

/-- A path rejoins with its corrected delay (R326): its freeze ends and its history is cleared. -/
def rejoinPath (s : State) (n j p : Nat) : State :=
  let y := s.path n j p
  if !y.rejoin then s
  else (s.setPath n j p { y with
    rejoin := false, frozen := false, offered := false, hold := 0, last := none, now := none }).set (fBit n j p) 0

/-- A round of time base `n` begins (R315, R326). -/
def roundBegin (s : State) (n : Nat) : State :=
  if s.get (TB_CTL_MODE n) ≠ 1 then s
  else
    let keep := (s.syn n).closed
    let s1 := (List.range 16).foldl (fun t j =>
      let t1 := if keep then t else clearMeas t n j
      showHold (rejoinPath (rejoinPath (takeDelays t1 n j) n j 0) n j 1) n j) (gainsTake s n)
    s1.setSyn n { s1.syn n with begun := true, closed := false }

/-! ### Slave ports and the asymmetry watch (R327, R328) -/

/-- The freeze bit of a slave port. -/
def frzBit (n b : Nat) : F := if b = 0 then PTP_STAT_A_FRZ n else PTP_STAT_B_FRZ n

/-- Freeze a slave port for PATH_HOLDOFF sync intervals (R326, R328): by a changed meanLinkDelay (`mld`) or by a changed offset, whose
pre-change value is `base`; where there is none, that value is free. A port already frozen only restarts its holdoff. -/
def freezeSlave (s : State) (n b : Nat) (mld : Bool) (change : Int) (base : Option Int) : State :=
  let y := s.ptp n b
  let ends := s.now + holdoff s n * syncInterval s n
  if y.frozen then s.setPtp n b { y with hold := ends }
  else
    let (f, s0) := s.draw
    let (r, s1) := match base with | some r => (r, s) | none => (toInt 48 f, s0)
    let s2 := s1.setPtp n b { y with frozen := true, mld := mld, offered := false, hold := ends, base := r }
    devRec (s2.set (frzBit n b) 1) 3 3 (ofInt 32 (divNear change 256)) (n * 65536 + 128 + b)

/-- A time base serves a PTP domain. -/
def ptpMode (s : State) (n : Nat) : Bool := s.get (TB_CTL_MODE n) == 2

/-- Port of slave `b` of a domain, if it is in use. -/
def slavePort (s : State) (n b : Nat) : Option Nat :=
  if b = 0 then (if s.flag (PTP_ROLE_A_EN n) then some (s.get (PTP_ROLE_SLAVE_A n)) else none)
  else (if s.flag (PTP_ROLE_B_EN n) then some (s.get (PTP_ROLE_SLAVE_B n)) else none)

/-- A_LIVE, B_LIVE. -/
def liveBit (n b : Nat) : F := if b = 0 then PTP_STAT_A_LIVE n else PTP_STAT_B_LIVE n
/-- Whether slave `b` supplies the offset (R320, R328): live, not frozen, and the lower port if both could. -/
def supplies (s : State) (n b : Nat) : Bool :=
  let o := 1 - b
  let can : Nat → Bool := fun x => s.flag (liveBit n x) && !(s.ptp n x).frozen && (slavePort s n x).isSome
  can b && (!can o || decide ((slavePort s n b).getD 128 < (slavePort s n o).getD 128) ||
    (slavePort s n b == slavePort s n o && b == 0))

/-- No live slave port supplies an offset: the time base holds over (R320, R328). -/
def holdIfNone (s : State) (n : Nat) : State := if supplies s n 0 || supplies s n 1 then s else holdover s n

/-- ASYM of a carafe entry in 1/256 ns. -/
def curAsym (s : State) (c : Nat) : Int := toInt 32 (s.get (CRF_HD_ASYM_ASYM c))

/-- A watch entry takes BASE (R327). -/
def takeBase (s : State) (n w : Nat) : State :=
  (s.set (ASW_BASE_BASE n w) (ofInt 32 (curAsym s (s.get (ASW_CTL_CAR n w))))).setAsw n w { s.asw n w with cnt := 0 }

/-- A watch entry sees a new ASYM (R327): the second tick in a row beyond PATH_JUMP freezes the guarded paths and slave ports. EST stays
from a first detection until ACCEPT. -/
def watchAsym (s : State) (n w : Nat) (asym : Int) : State :=
  let x := s.asw n w
  let d := asym - toInt 32 (s.get (ASW_BASE_BASE n w))
  if 256 * d.natAbs ≤ (pathJump s n).natAbs then s.setAsw n w { x with cnt := 0 }
  else if x.cnt = 0 then s.setAsw n w { x with cnt := 1 }
  else if x.cnt ≥ 2 then s
  else
    let paths := (List.range 32).filter (fun i => s.get (ASW_PATHS_PATHS n w) / 2 ^ i % 2 == 1)
    let slaves := (if s.flag (ASW_CTL_PTP_A n w) then [0] else []) ++ (if s.flag (ASW_CTL_PTP_B n w) then [1] else [])
    let s1 := paths.foldl (fun t i => freezePath t n (i / 2) (i % 2) (256 * d)) s
    let s2 := slaves.foldl (fun t b => freezeSlave t n b false (256 * d) (t.ptp n b).last) s1
    let s2 := if slaves.isEmpty || !ptpMode s n then s2 else holdIfNone s2 n
    let s3 := s2.setAsw n w ⟨2, true, (x.froze ++ paths ++ slaves.map (32 + ·)).eraseDups⟩
    let s4 := (if x.susp then s3 else s3.set (ASW_EST_EST n w) (ofInt 32 d)).set (SYN_STAT_ASYM_SUSPECT n) 1
    devRec ((paths.map (· / 2)).foldl (fun t j => showHold t n j) s4) 3 6 (ofInt 32 d) (n * 65536 + w)

/-- Both returns of carafe `c` were valid and gave `asym` (R327). -/
def asymTaken (s : State) (c : Nat) (asym : Int) : State :=
  (List.range 8).foldl (fun t n => (List.range 4).foldl (fun u w =>
    if u.flag (ASW_CTL_EN n w) ∧ u.get (ASW_CTL_CAR n w) = c then watchAsym u n w asym else u) t) s

end Sys2Proof.Machine
end

