-- ==== Sys2Proof/Machine/Macsec.lean ====
section
/-! DEFINITION. MACsec on frames and copies (R411 to R413): which frames pass the controlled port, what is dropped and
counted on receipt and on sending. -/

namespace Sys2Proof.Machine

/-- Whether a frame was received under a SecTAG that the port removes: the mark has no meaning on a port without MACsec. -/
def secured (s : State) (p : Nat) (x : SecIn) : Bool := s.flag (PRT_SEC_CFG_EN p) && x.present

/-- Bytes that SecTAG and ICV add on a port (R411). -/
def secExtra (s : State) (p : Nat) : Nat := if s.flag (PRT_SEC_CFG_EN p) then 32 else 0

/-- The device's own address (R209). -/
def ownMac (s : State) : Nat := s.get CRF_SA_HI_SA_HI * 65536 + s.get CRF_SA_LO_SA_LO

/-- The SCI of a port's own transmit channel (PRESUMED: the device's address and the port's number, log entry 24). -/
def ownSci (s : State) (p : Nat) : Nat := ownMac s * 65536 + p + 1

/-- The receive associations of a port. -/
def State.sas (s : State) (p : Nat) : List SaSt := tget [] s.rxSas p

/-- The MACsec header check of a received frame (R412): whether it passes; drops are counted. -/
def secRx (s : State) (p : Nat) (b : Bytes) (x : SecIn) : Bool × State :=
  if !s.flag (PRT_SEC_CFG_EN p) then (true, s)
  else if !x.present then (if uncontrolled b then (true, s) else (false, s.inc (PRT_SEC_UNPROT_UNPROT p)))
  else match (s.sas p).find? (fun a => a.sc == x.sc.val && a.an == x.an.val) with
    | none => (false, s.inc (PRT_SEC_NOSA_NOSA p))
    | some a =>
      if x.pn + s.get (PRT_SEC_REPLAY_WINDOW p) < a.next then (false, s.inc (PRT_SEC_REPL_REPLAY p)) else (true, s)

/-- A protected frame's end: an ICV that fails counts and is an event of the port's watched source (R412, R413); one that
verifies moves the association's lowest packet number. -/
def secRxEnd (s : State) (p : Nat) (x : Option (Nat × Nat × Nat)) (icv : Bool) : State :=
  match x with
  | none => s
  | some (sc, an, pn) =>
    if !icv then raisePort (s.inc (PRT_SEC_ICV_ICV_FAIL p)) p 5 .corrected
    else { s with
      rxSas := tset [] s.rxSas p ((s.sas p).map (fun a =>
        if a.sc = sc ∧ a.an = an then { a with next := max a.next (pn + 1) } else a)) }

/-- What a frame's end needs of its SecTAG. -/
def secMark (s : State) (p : Nat) (x : SecIn) : Option (Nat × Nat × Nat) :=
  if secured s p x then some (x.sc.val, x.an.val, x.pn) else none

/-- Whether a frame may be sent on a port (R412): without a transmit SA only what passes the uncontrolled port. -/
def secTxOk (s : State) (p : Nat) (b : Bytes) : Bool :=
  !s.flag (PRT_SEC_CFG_EN p) || s.flag (PRT_SEC_STAT_TXSA p) || uncontrolled b

/-- A frame sent under the transmit SA takes the next packet number. -/
def secTxCount (s : State) (p : Nat) (b : Bytes) : State :=
  if s.flag (PRT_SEC_CFG_EN p) && !uncontrolled b then { s with txPn := tset 0 s.txPn p (tget 0 s.txPn p + 1) } else s

/-! ### Protected frames (R411; IEEE 802.1AE, log entry 110) -/

/-- The association that protects a frame which a port sends now (R411, R427): none on a port without MACsec, and for what passes the
uncontrolled port. -/
def secTxOf (s : State) (p : Nat) (b : Bytes) : Option TxSa :=
  if s.flag (PRT_SEC_CFG_EN p) && !uncontrolled b then
    some ⟨s.get (PRT_SEC_CFG_CS p), s.get (PRT_SEC_CFG_CONF p), (s.key p).sak, ownSci s p, s.get (PRT_SEC_STAT_TXAN p), tget 0 s.txPn p⟩
  else none

/-- Bytes of a frame behind its SecTAG that stay in clear (R411): all of them with integrity only, else the confidentiality offset. -/
def clearBytes (conf n : Nat) : Nat :=
  match conf with
  | 0 => n
  | 1 => 0
  | 2 => min 30 n
  | _ => min 50 n

/-- The SecTAG (R411): SCI explicit, ES and SCB 0; `n` bytes follow it before the ICV. -/
def secTag (x : TxSa) (n : Nat) : Bytes :=
  beBytes 2 0x88E5 ++ [b8 (32 + (if x.conf = 0 then 0 else 12) + x.an), b8 (if n < 48 then n else 0)] ++ beBytes 4 x.pn ++
    beBytes 8 x.sci

/-- A frame as it leaves under an association: addresses, SecTAG, what stays in clear, the ciphertext, the ICV (R411). -/
def protectAs (x : TxSa) (b : Bytes) : Bytes :=
  let user := b.drop 12
  let c := clearBytes x.conf user.length
  let front := b.take 12 ++ secTag x user.length ++ user.take c
  let cipher := fit (user.length - c) (Config.gcmCipher x.cs x.key x.sci x.pn (user.drop c))
  front ++ cipher ++ fit 16 (Config.gcmTag x.cs x.key x.sci x.pn (front ++ cipher))

/-- A frame as it leaves (R411, R412). -/
def protect (x : Option TxSa) (b : Bytes) : Bytes := x.elim b (protectAs · b)

end Sys2Proof.Machine
end

