-- ==== Sys2Proof/Machine/Transmit.lean ====
section
/-! DEFINITION. The transmitter of a port: the heads of its queues (R82, R84, R97), what is in flight, preemption (R96, R97), and how a
frame takes the line. -/

namespace Sys2Proof.Machine

/-! ### Heads of the queues (R82) -/

/-- Whether a class of a port is express. -/
def expressTc (s : State) (p tc : Nat) : Bool := s.get (PRT_TC_CFG_EXPRESS p) / 2 ^ tc % 2 == 1

/-- Classes from TC7 down. -/
def classesDown : List Nat := [7, 6, 5, 4, 3, 2, 1, 0]

/-- The first frame of a class that may leave: its gate is open, and it has arrived or was admitted cut through (R82, R99). -/
def classHead (s : State) (p tc : Nat) : Option (Nat × QFrame) :=
  if s.get (PRT_GATE_OPEN p) / 2 ^ tc % 2 = 0 then none
  else ((s.queue p tc).find? (fun f => (!f.arriving || f.cutOk) && !f.held)).map (fun f => (tc, f))

/-- The due head of the timed-release queue (R82, R84). -/
def trqHead (s : State) (p : Nat) : Option (Nat × QFrame) :=
  if (s.port p).safe && !s.flag (PRT_GATE_TRQ_SAFE p) then none
  else ((s.queue p 8).find? (fun f => f.due && !f.arriving && !f.cue && !f.held)).map (fun f => (8, f))

/-- Steps 1 and 2 of R82. -/
def expressHead (s : State) (p : Nat) : Option (Nat × QFrame) :=
  match trqHead s p with
  | some x => some x
  | none => (classesDown.filter (expressTc s p)).findSome? (classHead s p)

/-- Whether the preemption hold keeps preemptable frames back (R97). -/
def held (s : State) (p : Nat) : Bool := s.flag (PRT_MM_HOLD p) && (s.port p).preempt

/-! ### The line -/

/-- Bytes of the frame in flight that have left by now. -/
def sentBytes (s : State) (p : Nat) (t : TxSt) : Nat := min t.len ((s.now - t.startAt) * portSpeed s p / 8)

/-- How many bytes of a preemptable frame in flight its first fragment takes if it is cut now (R96): 60 at the least, 64 with the
fragment's own check field, and a remainder of 64 at the least; none if it cannot be cut any more. -/
def cutPoint (s : State) (p : Nat) (t : TxSt) : Option Nat :=
  let b := max 60 (sentBytes s p t)
  if b + 64 ≤ t.len then some b else none

/-- Whether the frame in flight yields to an express frame: preemption is active and it is preemptable. -/
def yields (s : State) (p : Nat) (t : TxSt) : Bool := (s.port p).preempt && !t.express && !t.ct && t.fr.isSome

/-- The frame in flight is preempted behind its first `b` bytes: it holds the line until that fragment has left, and its rest waits to
be resumed; PRT_CNT_PREEMPT counts it once. -/
def preemptAt (s : State) (p : Nat) (t : TxSt) (b : Nat) : State :=
  match t.fr with
  | none => s
  | some f =>
    let x := s.port p
    let s1 := if t.again then s else addCnt s (PRT_CNT_PREEMPT p) 1
    s1.setPort p { x with tx := some { t with fr := none, endAt := t.startAt + wireNs s p (b + 4) }, rest := some (f, t.len - b) }

/-- A frame in flight yields at the first point R96 permits; one that cannot is waited for. -/
def giveWay (s : State) (p : Nat) (t : TxSt) : State :=
  if yields s p t then (cutPoint s p t).elim s (preemptAt s p t) else s

/-- A transmission takes the line: its SFD leaves now. -/
def occupy (s : State) (p : Nat) (t : TxSt) : State :=
  s.setPort p { s.port p with tx := some { t with startAt := s.now, endAt := s.now + wireNs s p t.len } }

/-- Count a frame sent (R113); MACsec adds its tag and ICV. -/
def countTx (s : State) (p len : Nat) : State :=
  addCnt (addCnt s (PRT_CNT_TX_FRAMES p) 1) (PRT_CNT_TX_BYTES p) len

/-- What a queued frame is on the line: cut through while its tail has yet to arrive. -/
def txOf (f : QFrame) (express : Bool) (len : Nat) (again : Bool) : TxSt :=
  ⟨f.id, express, f.arriving, 0, 0, len, some f, again, f.arriving⟩

/-- Whether a port can send: link up, its buffers in use (R432), not in the fatal state (R448). -/
def canSend (s : State) (p : Nat) : Bool := s.flag (PRT_STAT_LINK p) && !(s.port p).memHalt && !s.fatal

end Sys2Proof.Machine
end

