-- ==== Sys2Proof/Machine/Line.lean ====
section
/-! DEFINITION. Frames that the device itself sends (R182, R195, R256, R321, R408, R411): carafe copies, PTP messages, cold-start
frames, handshakes and key agreement. Each waits for its instant and for the transmitter; carafe copies go before all others. -/

namespace Sys2Proof.Machine

/-! ### Carafe copies (R182, R189, R195) -/

/-- A head entry's tick state. -/
def State.car (s : State) (c : Nat) : CarSt := tget CarSt.rst s.cars c
/-- Replace a head entry's tick state. -/
def State.setCar (s : State) (c : Nat) (x : CarSt) : State := { s with cars := tset CarSt.rst s.cars c x }

/-- Change the copy in arrival of an identity. -/
def mapCopy (s : State) (id : Nat) (f : CopySt → CopySt) : State :=
  { s with copies := s.copies.map (fun e => (e.1, e.2.map (fun x => if x.id = id then f x else x))) }

/-- What the device itself has on the line. -/
def ownTx (id len : Nat) : TxSt := ⟨id, true, false, 0, 0, len, none, false, false⟩

/-- The SFD operand of a copy's stamps (R189, R285): without its variable part within 10 microseconds of a link-up of either port. -/
def copySfd (s : State) (p q x : Nat) : Nat := if freshLink s p || freshLink s q then x / 65536 * 65536 else x

/-- A carafe copy takes the line (R113, R182, R412); `waited` counts in SLIP. -/
def copyStart (s : State) (p c id len : Nat) (b : Bytes) (var : Nat) (waited : Bool) : State :=
  let n := len + secExtra s p
  let s1 := secTxCount (countTx (occupy s p (ownTx id n)) p n) p b
  noteTx (if waited then s1.inc (CRF_CAR_CNT1_SLIP c) else s1) p var

/-- A copy in passage leaves, or is dropped where its egress port is down or has no transmit association (R189, R201). -/
def sendPassing (s : State) (p : Nat) (d : Due) (id c : Nat) (dirB : Bool) (len : Nat) (b : Bytes) (rx : Nat) (ok : Bool)
    (ended : Option (Bytes × Bool)) : State :=
  if !canSend s p || !secTxOk s p b then mapCopy (s.inc (CRF_CAR_CNT1_DROP_LINK c)) id (fun x => { x with sent := false })
  else
    let i := s.get (if dirB then CRF_CAR_RING_B_IN c else CRF_CAR_RING_A_IN c)
    let tx := txStamp s p (copySfd s p i d.var) s.tickTb 0
    let loop := if ok then (beField b 32 6 + (tx + 2 ^ 48 - rx)) % 2 ^ 48 else beField b 32 6
    let s1 := copyStart s p c id len b d.var (decide (d.ready < s.now))
    let sa := secTxOf s p b
    match ended with
    | none => mapCopy s1 id (fun x => { x with loop := some loop, sa := sa })
    | some (out, bad) =>
      let s2 := s1.emit (.frame p (protect sa (spliceAt out 32 (beBytes 6 loop))))
      if bad then s2.emit (.stomp p) else s2

/-- A copy of a head entry leaves: FLAGS.SLIP, DIR and ORIGIN are written in flight (R184, R195). -/
def sendHead (s : State) (p : Nat) (d : Due) (c : Nat) (dirB : Bool) (img : Bytes) : State :=
  if !canSend s p || !secTxOk s p img then s.inc (CRF_CAR_CNT1_DROP_LINK c)
  else
    let waited := decide (d.ready < s.now)
    let org := txStamp s p (sfdOn s p d.var) s.tickTb 0
    let b := spliceAt (spliceAt img 20 [b8 (beField img 20 1 + 64 * waited.toNat), b8 (16 + 8 * dirB.toNat)]) 26 (beBytes 6 org)
    let s1 := (copyStart s p c 0 (img.length + 4) img d.var waited).emit (.frame p (protect (secTxOf s p b) b))
    s1.setCar c (if dirB then { s1.car c with origB := org } else { s1.car c with origA := org })

/-! ### PTP messages (R319, R321, R322) -/

/-- Length of a PTP message the hardware sends, DA to FCS (IEEE 802.1AS-2020, IEEE 1588-2019; log entry 19). -/
def ptpLen (kind : Nat) (oneStep auth : Bool) : Nat :=
  max 64 (18 + (match kind with
    | 0 => if oneStep then 76 else 44
    | 1 => 76
    | _ => 54) + (if auth then 26 else 0))

/-- The residence time in 1/256 ns since the domain's last Sync arrived, measured on TBL and scaled by the rate ratio to the grandmaster
(R321): that of the Sync, times the neighborRateRatio of the slave port it came on (log entry 61). -/
def residence (s : State) (n tx rx : Nat) : Int :=
  let d := tget DomSt.rst s.doms n
  let p := s.get (if d.slave = 0 then PTP_ROLE_SLAVE_A n else PTP_ROLE_SLAVE_B n)
  let ratio := (2 ^ 41 + d.cum) * (2 ^ 41 + (tget PdSt.rst s.pds p).ratio)
  divNear (diff48 tx rx * ratio) (2 ^ 90)

/-- A frame of the device waits on a port. -/
def addJob (s : State) (p : Nat) (j : Job) (ready var : Nat) : State :=
  s.setPort p { s.port p with jobs := (s.port p).jobs ++ [⟨j, ready, var⟩] }

/-- What a PTP message's header shows of it to the checks of R412. -/
def ptpHead : Bytes := typedHead 0x88F7 []

/-- The AUTHENTICATION TLV of a message the hardware sends (R322, R415); no bytes in a domain without one. -/
def ownTlv (s : State) (n p kind : Nat) (fields : List Int) : Bytes :=
  if s.flag (PTP_CTL_AUTH_EN n) then
    authTlv ((s.key p).cak.getD []) (s.key p).ckn (s.get (PTP_CTL_DOMAIN n)) (s.get (PTP_CTL_SPP n)) (Config.ptpBytes kind fields)
  else []

/-- A message leaves with its fields. -/
def ptpOut (s : State) (n p kind : Nat) (oneStep : Bool) (fields : List Int) (var : Nat) : State :=
  let len := ptpLen kind oneStep (s.flag (PTP_CTL_AUTH_EN n)) + secExtra s p
  let s1 := secTxCount (noteTx (countTx (occupy s p (ownTx 0 len)) p len) p var) p ptpHead
  s1.emit (.ptp p kind fields (ownTlv s n p kind fields) ((secTxOf s p ptpHead).map (fun x => (x.sci, x.an, x.pn))))

/-- A PTP message takes the line: a two-step Sync and a Pdelay_Resp are followed by the message that carries their stamp. The stamps of
Pdelay and of the residence are those of TBL. Without a transmit association the message is dropped and counted (R412). -/
def sendPtp (s : State) (p : Nat) (d : Due) (n kind : Nat) (oneStep : Bool) (a b : Int) (rx : Nat) : State :=
  let tx := txStamp s p (sfdOn s p d.var) 8 0
  if !secTxOk s p ptpHead then s.inc (PRT_SEC_NOSA_NOSA p)
  else match kind with
  | 0 =>
    let res := residence s n tx rx
    if oneStep then ptpOut s n p 0 true [a, b + res] d.var
    else addJob (ptpOut s n p 0 false [0, 0] d.var) p (.ptp n 1 false a (b + res) 0) s.now d.var
  | 1 => ptpOut s n p 1 false [a, b] d.var
  | 2 => ptpOut { s with pds := tmod PdSt.rst s.pds p (fun x => { x with sent := some tx }) } n p 2 false [(tx : Int)] d.var
  | 3 => addJob (ptpOut s n p 3 false [a] d.var) p (.ptp n 4 false (tx : Int) 0 0) s.now d.var
  | _ => ptpOut s n p 4 false [a] d.var

/-! ### Cold-start frames (R256, R257) -/

/-- TICK and PHASE of a frame sent at stamp `tx` (R256): GLB_TICK_NUM at that time, and the time since the start of that tick. Before
the first boundary the number is that of the tick before it (R35), and so is the start. -/
def csTick (s : State) (n tx : Nat) : Nat × Nat :=
  if n ≠ s.tickTb ∨ ¬ s.tick.run then (0, 0)
  else if isPast48 s.tick.next tx then (nextNum s, (diff48 tx s.tick.next).toNat / 65536)
  else
    let start := if s.tick.cur then s.tick.start else tickStart s ((s.tick.idx : Int) - 1)
    (s.get GLB_TICK_NUM_NUM, ofInt 32 (diff48 tx start / 65536))

/-- A cold-start frame of this node (R256). -/
def csFrame (s : State) (n seq tx : Nat) (sync : Bool) : Bytes :=
  let dom := s.get (SYN_CS_CTL_DOMAIN n)
  let (tick, phase) := csTick s n tx
  beBytes 5 0x035A420100 ++ [b8 dom] ++ beBytes 4 (s.get CRF_SA_HI_SA_HI) ++ beBytes 2 (s.get CRF_SA_LO_SA_LO) ++
    beBytes 2 (s.get CRF_CTL_ETYPE) ++ [b8 (16 + sync.toNat), b8 dom, b8 (s.get (SYN_CS_CTL_ID n)), b8 (s.get (SYN_CS_CTL_HOPS n))] ++
    beBytes 2 seq ++ beBytes 6 tx ++ List.replicate 6 0 ++ beBytes 4 tick ++ beBytes 4 phase

/-- A cold-start frame takes the line. -/
def csOut (s : State) (p : Nat) (b : Bytes) (var : Nat) : State :=
  let c := padFrame b
  if !secTxOk s p c then s.inc (PRT_SEC_NOSA_NOSA p)
  else
    let len := c.length + 4 + secExtra s p
    (secTxCount (noteTx (countTx (occupy s p (ownTx 0 len)) p len) p var) p c).emit (.frame p (protect (secTxOf s p c) c))

/-! ### What waits -/

/-- Whether a frame of the device is a carafe copy, which goes before every other frame (R182). -/
def Job.carafe : Job → Bool
  | .copy .. => true
  | .head .. => true
  | _ => false

/-- A handshake, key agreement or SPDM frame takes the line (R408, R411, R412). -/
def ownOut (s : State) (p len : Nat) (e : Emit) : State :=
  let (v, s1) := s.draw
  let b := match e with | .frame _ b => b | _ => typedHead 0x888E []
  if !secTxOk s p b then s.inc (PRT_SEC_NOSA_NOSA p)
  else
    let w := len + (if uncontrolled b then 0 else secExtra s p)
    let s2 := secTxCount (noteTx (countTx (occupy s1 p (ownTx 0 w)) p w) p v) p b
    s2.emit (match e with | .frame q b => .frame q (protect (secTxOf s p b) b) | _ => e)

/-- A frame of the device takes the free line of port `p`; where the port is down it is lost. The residence of a relayed cold-start
frame is measured on TBL, which no step moves (DESIGN CHOICE, log entry 106); the variable part of a handshake or key-agreement frame is
free (R65). -/
def startJob (s : State) (p : Nat) (d : Due) : State :=
  match d.job with
  | .copy id c dirB len b rx ok ended => sendPassing s p d id c dirB len b rx ok ended
  | .head c dirB img => sendHead s p d c dirB img
  | .ptp n kind oneStep a b rx => if canSend s p then sendPtp s p d n kind oneStep a b rx else s
  | .cold n seq sync =>
    if canSend s p then csOut s p (csFrame s n seq (txStamp s p (sfdOn s p d.var) n 0) sync) d.var else s
  | .relay _ b rx add =>
    let tx := txStamp s p (sfdOn s p d.var) 8 0
    if canSend s p then csOut s p (spliceAt b 26 (beBytes 6 ((beField b 26 6 + (tx + 2 ^ 48 - rx) + add) % 2 ^ 48))) d.var else s
  | .own len e => if canSend s p then ownOut s p len e else s

/-- One waiting frame: it starts once its instant has come, the line is free and the port in PS0, which it wakes (R461, R463). A preemptable
frame in flight yields to a copy. The device's other frames take a free line before a due head of the timed-release queue and before every
class (DESIGN CHOICE, log entry 49). -/
def tryJob (s : State) (p : Nat) (d : Due) : State :=
  let keep : State → State := fun t => t.setPort p { t.port p with jobs := (t.port p).jobs ++ [d] }
  if s.now < d.ready then keep s
  else if s.flag (PRT_STAT_LINK p) && curPs s (portK p) != 0 then keep (demand s (portK p))
  else match inFlight s p with
    | none => startJob s p d
    | some t => keep (if d.job.carafe then giveWay s p t else s)

/-- The frames that wait on a port, carafe copies first. -/
def runJobs (s : State) (p : Nat) : State :=
  let js := (s.port p).jobs
  (js.filter (fun d => d.job.carafe) ++ js.filter (fun d => !d.job.carafe)).foldl (fun t d => tryJob t p d)
    (s.setPort p { s.port p with jobs := [] })

/-- A frame of the device is to leave on a port, now if it can. -/
def sendJob (s : State) (p : Nat) (j : Job) (ready var : Nat) : State := runJobs (addJob s p j ready var) p

/-- Every port with frames of the device that wait. -/
def runAllJobs (s : State) : State :=
  ((s.ports.filter (fun e => !e.2.jobs.isEmpty)).map (·.1)).foldl runJobs s

end Sys2Proof.Machine
end

