-- ==== Sys2Proof/Machine/Guardian.lean ====
section
/-! DEFINITION. The slot guardian (R249 to R255): what it lets through, and until when. -/

namespace Sys2Proof.Machine

/-- A blocked or truncated frame is one event of the port's guardian source (R254). -/
def grdEvent (s : State) (p : Nat) : State := raisePort s p 4 .corrected

/-- The tick, counted from the anchor, at which the guardian cycle that contains stamp `t` begins (R250). -/
def grdCycle (s : State) (p t : Nat) : Int :=
  let n : Int := (max 1 (s.get (PRT_GRD_CTL_TICKS p)) : Nat)
  let k : Int := (s.tick.idx : Int) - 1 - (s.get GLB_TICK_NUM_NUM : Int) % n
  if diff48 t (tickStart s k) < 0 then k - n else if diff48 t (tickStart s (k + n)) < 0 then k else k + n

/-- Start and end of the guardian's slots in the cycle that contains stamp `t` (R250), in 2^-16 ns. -/
def grdSlots (s : State) (p t : Nat) : List (Nat × Nat) :=
  let k := grdCycle s p t
  (List.range (min 64 (s.get (PRT_GRD_CTL_NSLOT p)))).map (fun i =>
    let a := tickStart s k + 65536 * s.get (PRT_GRD_OFS_OFS p i)
    (a % 2 ^ 48, (a + 65536 * s.get (PRT_GRD_LEN_LEN p i)) % 2 ^ 48))

/-- What a guardian in Enforce says of a frame (R251). -/
inductive GrdVerdict where
  | accept (e : Nat)
  | early (d : Int)
  | late (d : Int)
  | outside (d : Int)
  deriving DecidableEq, Repr

/-- The algorithm of R251 on the slots in ascending order; `prev` is the slot whose window the stamp has passed. -/
def grdJudge (t : Nat) (g : Int) : Option (Nat × Nat) → List (Nat × Nat) → GrdVerdict
  | none, [] => .early 0
  | some (a, e), [] => if diff48 t e < 0 then .late (diff48 t a) else .outside (diff48 t a)
  | prev, (a, e) :: r =>
    let d := diff48 t a
    if -g ≤ d ∧ d ≤ g then .accept e
    else if g < d then grdJudge t g (some (a, e)) r
    else match prev with
      | none => .early d
      | some (b, f) =>
        let dp := diff48 t b
        let near := if -d < dp then d else dp
        if diff48 t f < 0 then .late near else .outside near

/-- PRT_GRD_LAST of a deviation. -/
def grdLast (s : State) (p : Nat) (d : Int) : State := s.set (PRT_GRD_LAST_DEV p) (ofInt 32 (divNear d 256))

/-- What the guardian in Enforce says of a frame whose SFD has the stamp `t`. -/
def grdVerdict (s : State) (p t : Nat) : GrdVerdict :=
  grdJudge t (65536 * s.get (PRT_GRD_GUARD_GUARD p)) none (grdSlots s p t)

/-- Whether the guardian in Startup lets a frame of an EtherType pass (R249). -/
def grdStartup (s : State) (p etype : Nat) : Bool :=
  etype == s.get (PRT_GRD_SU_ETYPE p) &&
  (match (s.grd p).lastPass with
   | some t => decide (1000 * s.get (PRT_GRD_SU_MINGAP p) ≤ s.now - t)
   | none => true)

/-- The guardian's judgement of a frame whose SFD has the stamp `t` on the tick's time base and was at the MAC at `sfd` on TBL (R249, R251,
R252, R254): whether it passes, and the TBL stamp after which it is cut. -/
def grdRx (s : State) (p etype t sfd : Nat) : Bool × Option Nat × State :=
  if !s.flag (PRT_GRD_CTL_EN p) then (true, none, s)
  else match s.get (PRT_GRD_STAT_STATE p) with
  | 1 =>
    if grdStartup s p etype then (true, none, s.setGrd p { s.grd p with lastPass := some s.now })
    else (false, none, grdEvent (s.inc (PRT_GRD_CNT2_SU_BLOCK p)) p)
  | 2 =>
    match grdVerdict s p t with
    | .accept e => (true, some ((sfd + e + 2 ^ 48 - t) % 2 ^ 48), s)
    | .early d => (false, none, grdEvent ((grdLast s p d).inc (PRT_GRD_CNT0_EARLY p)) p)
    | .late d => (false, none, grdEvent ((grdLast s p d).inc (PRT_GRD_CNT0_LATE p)) p)
    | .outside d => (false, none, grdEvent ((grdLast s p d).inc (PRT_GRD_CNT1_OUTSIDE p)) p)
  | 3 => (false, none, s)
  | _ => (true, none, s)

/-- The stamp a guardian judges a frame by whose SFD is at the MAC now (R251). -/
def grdStamp (s : State) (p var : Nat) : Nat := rxStamp s p (sfdOn s p var) s.tickTb

/-- Where the SFD of a frame is at the MAC, on TBL. -/
def grdSfd (s : State) (var : Nat) : Nat := tbStampIn s 8 (sfdPos var)

/-- Whether a frame whose own command brings what it carries has passed its port's guardian (R249) and MACsec (R412): with the frame in
arrival that carries it, else by the same checks, which count. -/
def lineTakes (s : State) (p : Nat) (b : Bytes) (var : Nat) (x : SecIn) : Bool × State :=
  let opens := [rxK p false, rxK p true].filterMap s.arriving
  match opens.find? (fun o => etherType o.fr.bytes == etherType b || o.blocked) with
  | some o => (!o.blocked && (!s.flag (PRT_SEC_CFG_EN p) || o.sec.isSome || uncontrolled b), s)
  | none =>
    match grdRx (demand s (portK p)) p (etherType b) (grdStamp s p var) (grdSfd s var) with
    | (false, _, s1) => (false, s1)
    | (true, _, s1) =>
      match secRx s1 p b x with
      | (false, s2) => (false, s2)
      | (true, s2) => (true, secRxEnd s2 p (secMark s2 p x) true)

/-- Whether a frame of `len` bytes whose SFD is at the MAC at `sfd` on TBL would end after its cut. -/
def grdTooLong (s : State) (p len sfd : Nat) (cut : Option Nat) : Bool :=
  match cut with
  | none => false
  | some c => decide (0 < diff48 (sfd + len * 8 * 65536 / max 1 (portSpeed s p)) c)

/-- Whether the instant of a cut has passed. -/
def grdOver (s : State) (cut : Option Nat) : Bool :=
  match cut with
  | none => false
  | some c => decide (0 < diff48 (s.tbStamp 8) c)

/-- A frame cut by the guardian counts (R252, R254). -/
def grdTrunc (s : State) (p : Nat) : State :=
  grdEvent ((addCnt s (PRT_CNT_RX_BAD p) 1).inc (PRT_GRD_CNT1_TRUNC p)) p

end Sys2Proof.Machine
end

