-- ==== Sys2Proof/Machine/Carafe.lean ====
section
/-! DEFINITION. Carafes (R178 to R220): entries and stations, the latch, settlement of sip ranges, the sip cut. -/

namespace Sys2Proof.Machine

/-! ### Lookups -/

/-- W of R183. -/
def carW (s : State) (c : Nat) : Nat := 8 * ((s.get (CRF_CAR_POS_NST c) + 3) / 4)
/-- Frame length L of R183. -/
def carLen (s : State) (c : Nat) : Nat := 54 + carW s c + s.get (CRF_CAR_CFG_DLEN c)
/-- Offset of the data area. -/
def carData (s : State) (c : Nat) : Nat := 46 + carW s c

/-- Whether a station takes part in a carafe of this device. -/
def inRing (s : State) (st : Nat) : Bool := s.flag (CRF_ST_CFG_EN st) && !servesRemote s st

/-- Stations of entry `c` on this device. -/
def stationsOf (s : State) (c : Nat) : List Nat :=
  (List.range 64).filter (fun st => inRing s st && s.get (CRF_ST_CFG_CAR st) == c)

/-- First and last position of the device's block in entry `c`. -/
def blockEnds (s : State) (c : Nat) : Nat × Nat :=
  let ps := (stationsOf s c).map (fun st => s.get (CRF_ST_CFG_POS st))
  (ps.foldl min 256, ps.foldl max 0)

/-- The enabled entry a frame that arrives on port `p` is a copy of, and its direction (true: copy B) (R178, R179). -/
def copyOf (s : State) (p : Nat) (b : Bytes) : Option (Nat × Bool) :=
  if !s.flag CRF_CTL_RUN || b.length < 60 || beField b 0 4 != 0x035A4200 || etherType b != s.get CRF_CTL_ETYPE then none
  else
    let cid := beField b 4 2
    match (List.range 64).find? (fun c => s.flag (CRF_CAR_CFG_EN c) && s.get (CRF_CAR_CFG_CID c) == cid) with
    | none => none
    | some c =>
      let a := s.get (CRF_CAR_RING_A_IN c)
      let d := s.get (CRF_CAR_RING_B_IN c)
      if a = d ∧ a = p then some (c, beField b 21 1 / 8 % 2 == 1)
      else if a = p then some (c, false)
      else if d = p then some (c, true)
      else none

/-- Step 1 of R189 but for the port: VER, NST, DLEN and DIR. -/
def copyChecks (s : State) (c : Nat) (dirB : Bool) (b : Bytes) : Bool :=
  beField b 21 1 / 16 == 1 && beField b 22 1 == s.get (CRF_CAR_POS_NST c) &&
  beField b 24 2 == s.get (CRF_CAR_CFG_DLEN c) && beField b 21 1 / 8 % 2 == dirB.toNat

/-- UIF of a copy (R186). -/
def copyUif (b : Bytes) : Bool := beField b (b.length - 4) 1 / 128 == 1

/-! ### Counts, pours, settlement -/

/-- STATUS of a station's slot (R185). -/
def slotStatus (x : StnSt) : Nat := x.stale.toNat + 2 * x.gap.toNat + 4 * x.ovr.toNat

/-- Steps 3 and 4 of R189 for one station: count, status, pour. -/
def fillOne (s : State) (c : Nat) (b : Bytes) (st : Nat) : Bytes :=
  let o := 46 + 2 * s.get (CRF_ST_CFG_POS st)
  let b1 := spliceAt b o [b8 (beField b o 1 + 1), b8 (slotStatus (s.stn st))]
  spliceAt b1 (carData s c + s.get (CRF_ST_POUR_OFS st)) (s.bytes (latchA st) (min 1024 (s.get (CRF_ST_POUR_LEN st))))

/-- Steps 3 and 4 for the device's block. -/
def fillBlock (s : State) (c : Nat) (b : Bytes) : Bytes := (stationsOf s c).foldl (fillOne s c) b

/-- The range is fresh in a copy (R192); in the head block every range is. -/
def freshIn (s : State) (c st k : Nat) (dirB : Bool) : Bool :=
  let y := s.get (CRF_ST_SIPA_OWNER st k)
  let (a, b) := blockEnds s c
  s.flag (CRF_CAR_CFG_HEAD c) || y ≤ s.get (CRF_CAR_POS_HLAST c) || (a ≤ y && y ≤ b) || (if dirB then decide (b < y) else decide (y < a))

/-- AGE byte of the settled ranges (R194). -/
def ageByte (x : StnSt) : Nat := (x.age.mapIdx (fun k a => a.getD 0 * 4 ^ k)).sum

/-- Bytes written to a station's sip buffer; what they replace is kept for a SIP in progress (R220). -/
def sipPut (s : State) (st o : Nat) (b : Bytes) : State :=
  let x := s.stn st
  (s.setStn st { x with olds := x.olds ++ [(s.now, o, s.bytes (sipA st + o) b.length)] }).putBytes (sipA st + o) b

/-- The status block of R194. -/
def statusBlock (s : State) (st tick : Nat) : State :=
  let x := s.stn st
  let fl := x.aOk.toNat + 2 * x.bOk.toNat + 4 * x.bad.toNat + 8 * x.reuse.toNat
  sipPut s st 2040 (leBytes 4 tick ++ [b8 (ageByte x), b8 fl, 0, 0])

/-- Sip ready is set (R193, R194): the status block is written, and DMA channels bound to the station are asked (R378). -/
def sipReady (s : State) (st tick : Nat) : State :=
  let s1 := statusBlock s st tick
  let s2 := ((s1.set (CRF_ST_STAT_TICK st) tick).set (CRF_ST_STAT_AGE st) (ageByte (s.stn st))).set (CRF_ST_STAT_READY st) 1
  eventRequest s2 4 st

/-- Enabled ranges of a station. -/
def rangesOf (s : State) (st : Nat) : List Nat := (List.range 4).filter (fun k => s.flag (CRF_ST_SIPA_EN st k))

/-- Sip ready when the last enabled range has settled; without ranges at the first valid copy. -/
def readyCheck (s : State) (st : Nat) : State :=
  let x := s.stn st
  let ks := rangesOf s st
  if s.flag (CRF_ST_STAT_READY st) then s
  else if ks.all (fun k => (x.age.getD k none).isSome) && (!ks.isEmpty || x.aOk || x.bOk) then sipReady s st s.crf.tick
  else s

/-- Settle range `k` of a station from a data area (R193). A range of a remote station goes on to its serving member
(R505): kind 4, station, range, AGE. -/
def settle (s : State) (st k age : Nat) (data : Bytes) : State :=
  let x := s.stn st
  let bs := (data.drop (s.get (CRF_ST_SIPA_OFS st k))).take (s.get (CRF_ST_SIPB_LEN st k))
  let s1 := s.setStn st { x with age := x.age.set k (some age) }
  let s2 := sipPut s1 st (s.get (CRF_ST_SIPB_BOFS st k)) bs
  if s.flag (CRF_ST_REMOTE_EN st) then s2.emit (.ulicon 128 4 ([st, k, age] ++ bs.map (·.toNat))) else s2

/-- What the other copy did at a station in this clock: the ranges it settled, and whether it made sip ready. -/
def sameClock (s : State) (st : Nat) : List Nat × Bool :=
  match (s.stn st).same with
  | some (t, ks, r) => if t = s.now then (ks, r) else ([], false)
  | none => ([], false)

/-- A station takes a valid copy (R193): fresh ranges settle with AGE 0, after GIVEUP the others with AGE 1 or 2. Of two copies that verify
in one clock copy A counts first (R220): a range fresh in it takes its bytes, after GIVEUP every range does, and the status shows both. -/
def takeCopy (s : State) (c st : Nat) (dirB reuse : Bool) (data : Bytes) : State :=
  let x := s.stn st
  let (ks, rdy) := sameClock s st
  let redo := if dirB then [] else ks.filter (fun k => freshIn s c st k false)
  let lead := !dirB && (match x.same with | some (t, _) => t == s.now | none => false)
  let other := if lead && x.gpass then ks.filter (fun k => !freshIn s c st k false) else []
  let s1 := s.setStn st { x with
    aOk := x.aOk || !dirB, bOk := x.bOk || dirB, reuse := x.reuse || reuse,
    first := if x.first.isSome && !lead then x.first else some (data, reuse) }
  let takes : Nat → Bool := fun k => redo.contains k || other.contains k ||
    (((s1.stn st).age.getD k none).isNone && (freshIn s1 c st k dirB || x.gpass))
  let mine := (rangesOf s st).filter takes
  let s2 := mine.foldl (fun t k =>
    settle t st k (if freshIn t c st k dirB then 0 else if reuse then 2 else 1) data) s1
  let s3 := readyCheck s2 st
  let now := s3.flag (CRF_ST_STAT_READY st) && !s.flag (CRF_ST_STAT_READY st)
  let s4 := if rdy then (statusBlock s3 st s3.crf.tick).set (CRF_ST_STAT_AGE st) (ageByte (s3.stn st)) else s3
  s4.setStn st { s4.stn st with same := some (s.now, mine ++ ks, now || rdy) }

/-- A copy failed at a station (R199, R204). -/
def stationFails (s : State) (st : Nat) : State :=
  ((s.setStn st { s.stn st with bad := true }).set (CRF_ST_STAT_INTEG st) 1).inc (CRF_ST_CNT0_FAIL st)

/-! ### The latch (R191, R195) -/

/-- Latch one station's pour data; its tick begins. -/
def latchOne (s : State) (st : Nat) : State :=
  let x := s.stn st
  let fresh : StnSt := { StnSt.rst with gap := x.lastGap, known := x.known, rtick := x.rtick, olds := x.olds.filter (fun e => e.1 == s.now) }
  if !s.flag (CRF_ST_CFG_EN st) then s
  else if servesRemote s st then s.setStn st fresh
  else
    let len := min 1024 (s.get (CRF_ST_POUR_LEN st))
    let host := s.flag (CRF_ST_CFG_HOSTB st) && !s.flag (CRF_ST_REMOTE_EN st)
    let out := s.get (CRF_ST_SLOTS_OUT st)
    let g := s.get (CRF_ST_CFG_SP st)
    let isOpen := s.flag (CRF_ST_STAT_POUR_OPEN st)
    let s1 := if host then s.putBytes (pourA st) (s.bytes (piA out (s.slot out).dev) len) else s
    let stale := if host then s.flag (CRF_PI_SLOT_STALE out)
      else isOpen || (s.flag (CRF_ST_REMOTE_EN st) && x.rflags % 2 == 1)
    let ovr := if host then false
      else if s.flag (CRF_ST_REMOTE_EN st) then x.rflags / 2 % 2 == 1
      else (s.sp g).cut || decide ((s.sp g).run = .mck) || decide ((s.sp g).run = .reload)
    let s2 := s1.putBytes (latchA st) (s1.bytes (pourA st) len)
    let s3 := s2.setStn st { fresh with stale := stale, ovr := ovr, rflags := x.rflags }
    (s3.setB (CRF_ST_STAT_STALE st) stale).set (CRF_ST_STAT_POUR_OPEN st) 1

/-- The image a head entry launches in tick `n` (R183, R184, R186, R195); DIR, ORIGIN and SLIP are written at the launch. -/
def headImage (s : State) (c n : Nat) (reuse : Bool) : Bytes :=
  let cid := s.get (CRF_CAR_CFG_CID c)
  let nst := s.get (CRF_CAR_POS_NST c)
  let dlen := s.get (CRF_CAR_CFG_DLEN c)
  let hd := beBytes 4 0x035A4200 ++ beBytes 2 cid ++ beBytes 4 (s.get CRF_SA_HI_SA_HI) ++ beBytes 2 (s.get CRF_SA_LO_SA_LO) ++
    beBytes 2 (s.get CRF_CTL_ETYPE) ++ beBytes 2 cid ++ beBytes 4 n ++ [b8 (128 * reuse.toNat), b8 16, b8 nst, 0] ++
    beBytes 2 dlen ++ List.replicate 20 0
  fillBlock s c (hd ++ List.replicate (carW s c) 0 ++ s.bytes (mergeA c) dlen ++ [0, b8 0xFF, 0, 0])

/-- A head entry's tick begins: the image is built (R195). -/
def latchHead (s : State) (c n : Nat) : State :=
  let x := s.car c
  s.setCar c { CarSt.rst with image := some (headImage s c n (!x.prev || x.cleared)) }

/-- The launch latch at T - 30 ns (R158, R187): the accept window of the tick to come opens. -/
def crfLatch (s : State) : State :=
  if !s.flag CRF_CTL_RUN then s
  else
    let n := nextNum s
    let s1 := (List.range 64).foldl latchOne s
    let s2 := (List.range 64).foldl (fun t c =>
      if t.flag (CRF_CAR_CFG_EN c) ∧ t.flag (CRF_CAR_CFG_HEAD c) then latchHead t c n else t) s1
    { s2 with crf := ⟨true, n, s.tick.next, false, if s.crf.win then some s.crf.tick else none⟩ }

/-- Group 10 clears at the boundary, but for the pour window (R204). -/
def group10Clear (s : State) : State :=
  (List.range 64).foldl (fun t st =>
    if !t.flag (CRF_ST_CFG_EN st) then t
    else ((t.set (CRF_ST_STAT_ARRIVED st) 0).set (CRF_ST_STAT_READY st) 0).set (CRF_ST_STAT_INTEG st) 0) s

/-- The group 10 bit of the first copy's header (R204). -/
def carArrived (s : State) (c : Nat) : State := (stationsOf s c).foldl (fun t st => t.set (CRF_ST_STAT_ARRIVED st) 1) s

/-! ### The sip cut (R187, R193, R201, R202, R205) -/

/-- The sip cut at one station. -/
def cutStation (s : State) (st : Nat) : State :=
  let x := s.stn st
  let ks := rangesOf s st
  let age := x.age.mapIdx (fun k a => if ks.contains k && a.isNone then some 3 else a)
  let gap := ks.any (fun k => age.getD k none == some 3)
  let s1 := s.setStn st { x with age := age, lastGap := gap }
  let s2 := if s1.flag (CRF_ST_STAT_READY st) then s1 else sipReady s1 st s1.crf.tick
  let s3 := if gap then s2.inc (CRF_ST_CNT1_GAP st) else s2
  let s4 := s3.incBy (CRF_ST_CNT0_LOST st) ((!x.aOk).toNat + (!x.bOk).toNat)
  if s.flag (CRF_ST_CFG_HOSTB st) && !s.flag (CRF_ST_REMOTE_EN st) then
    let i := s.get (CRF_ST_SLOTS_IN st)
    s4.putBytes (piA i (s4.slot i).dev) (s4.bytes (sipA st) 1016 ++ s4.bytes (sipA st + 2040) 8)
  else s4

/-- The sip cut at a station this member serves for another's ring (R505): a range that has arrived before, and not in this tick, settles
with AGE 3, and the tick has a gap (R218). The ranges are the ring member's: those that have ever arrived are known (log entry 107). -/
def cutServed (s : State) (st : Nat) : State :=
  let x := s.stn st
  let age := x.age.mapIdx (fun k a => if x.known.contains k && a.isNone then some 3 else a)
  let s0 := if s.flag (CRF_ST_STAT_READY st) then s else sipReady (s.setStn st { x with age := age }) st s.crf.tick
  let s1 := if (s0.stn st).age.contains (some 3) then s0.inc (CRF_ST_CNT1_GAP st) else s0
  if s.flag (CRF_ST_CFG_HOSTB st) then
    let i := s.get (CRF_ST_SLOTS_IN st)
    s1.putBytes (piA i (s1.slot i).dev) (s1.bytes (sipA st) 1016 ++ s1.bytes (sipA st + 2040) 8)
  else s1

/-- Trip and link of a return in 1/256 ns (R203). -/
def tripLink (org : Nat) (r : Nat × Nat) : Int × Int :=
  let trip := divNear (diff48 r.1 org) 256
  (trip, trip - divNear (toInt 48 r.2) 256)

/-- The results of a head entry are published (R201 to R203, R219). -/
def publishHead (s : State) (c : Nat) : State :=
  let x := s.car c
  let va := x.retA.isSome
  let vb := x.retB.isSome
  let reuse := !(va || vb) || x.cleared
  let w := (va.toNat * 2 ^ 31) + (vb.toNat * 2 ^ 30) + (x.wkc.isSome.toNat * 2 ^ 29) + (x.div.toNat * 2 ^ 28) +
    (reuse.toNat * 2 ^ 27) + ((x.first.getD false).toNat * 2 ^ 26) + (x.wkc.getD 255 % 256 * 65536) + s.crf.tick % 65536
  let s1 := s.setW (CRF_HD_STAT c) (w32 w)
  let lost := (!va).toNat + (!vb).toNat
  let s2 := s1.incBy (CRF_HD_CNT_LOSS c) lost
  let s3 := if !va && !x.lostA then devEvent s2 11 else s2
  let s4 := if !vb && !x.lostB then devEvent s3 11 else s3
  let s5 := if lost = 2 then devRec (devEvent (s4.inc (CRF_HD_CNT_DLOSS c)) 11) 4 1 s.crf.tick c else s4
  let s6 := match x.wkc with
    | some pos => devRec (devEvent (s5.inc (CRF_HD_CNT2_WKC c)) 11) 4 2 s.crf.tick (pos * 256 + c)
    | none => s5
  let s7 := if x.div then devRec (devEvent (s6.inc (CRF_HD_CNT2_DIV c)) 11) 4 3 s.crf.tick c else s6
  let s8 := s7.setCar c { s7.car c with prev := va || vb }
  match x.retA, x.retB with
  | some ra, some rb =>
    let (ta, la) := tripLink x.origA ra
    let (tb, lb) := tripLink x.origB rb
    let s9 := ((s8.set (CRF_HD_TRIP_TRIP c 0) (ofInt 32 ta)).set (CRF_HD_TRIP_TRIP c 1) (ofInt 32 tb)).set
      (CRF_HD_LINK_LINK c 0) (ofInt 32 la)
    asymTaken ((s9.set (CRF_HD_LINK_LINK c 1) (ofInt 32 lb)).set (CRF_HD_ASYM_ASYM c) (ofInt 32 (la - lb))) c (la - lb)
  | _, _ => s8

/-- The sip cut of the open window. -/
def sipCut (s : State) : State :=
  if !s.crf.win || s.crf.cut then s
  else
    let s1 := { s with crf := { s.crf with cut := true } }
    let s2 := (List.range 64).foldl (fun t st =>
      if !t.flag (CRF_ST_CFG_EN st) then t
      else if servesRemote t st then cutServed t st
      else cutStation t st) s1
    (List.range 64).foldl (fun t c =>
      if t.flag (CRF_CAR_CFG_EN c) ∧ t.flag (CRF_CAR_CFG_HEAD c) then publishHead t c else t) s2

/-- Whether the sip cut of the open window is due (R187): T_{n+1} - 100 ns has come. Until T_n the tick to come is the window's own. -/
def cutDue (s : State) : Bool :=
  s.tick.run && s.crf.win && !s.crf.cut && s.crf.start != s.tick.next &&
  decide (0 ≤ diff48 (s.tbStamp s.tickTb) (s.tick.next + 2 ^ 48 - 6553600))

end Sys2Proof.Machine
end

