-- ==== Sys2Proof/Machine/Tick.lean ====
section
/-! DEFINITION. The tick (R30 to R36), the boundary sequence (R158 to R160), process-image slots (R38 to R42), steps of a
time base (R280 to R282, R538) and their submission and grant (R280, R324). -/

namespace Sys2Proof.Machine

/-! ### Process-image slots (R39, R41, R42) -/

/-- The buffer of a slot that neither side names while no buffer is ready. -/
def spare (a b : Nat) : Nat := 3 - a - b

/-- The flip of one enabled slot (R39, R41). -/
def flipSlot (s : State) (n : Nat) : State :=
  if !s.flag (CRF_PI_SLOT_EN n) then s
  else
    let x := s.slot n
    if s.flag (CRF_PI_SLOT_DIR n) then
      match x.rdy with
      | some r => (((s.setSlot n { x with dev := r, rdy := some x.dev, flipPend := false, ovfLast := true }).inc
          (CRF_PI_SLOT_OVF n)).set (CRF_PI_SLOT_NEW n) 1)
      | none => (s.setSlot n { x with
          dev := spare x.dev (s.get (CRF_PI_SLOT_RD n)), rdy := some x.dev, flipPend := false, ovfLast := false }).set
          (CRF_PI_SLOT_NEW n) 1
    else
      match x.rdy with
      | some r => ((s.setSlot n { dev := r, rdy := none, flipPend := false, ovfNow := false, ovfLast := x.ovfNow }).set
          (CRF_PI_SLOT_NEW n) 1).set (CRF_PI_SLOT_STALE n) 0
      | none => ((s.setSlot n { x with flipPend := false, ovfNow := false, ovfLast := x.ovfNow }).set
          (CRF_PI_SLOT_NEW n) 0).set (CRF_PI_SLOT_STALE n) 1

/-- The publish of an out slot (R39). -/
def publishSlot (s : State) (n : Nat) : State :=
  let x := s.slot n
  let wr := s.get (CRF_PI_SLOT_WR n)
  match x.rdy with
  | some r => ((s.setSlot n { x with rdy := some wr, ovfNow := true }).set (CRF_PI_SLOT_WR n) r).inc (CRF_PI_SLOT_OVF n)
  | none => (s.setSlot n { x with rdy := some wr }).set (CRF_PI_SLOT_WR n) (spare x.dev wr)

/-- The take of an in slot (R39); the device's dw buffer is not touched, the buffer held before becomes free. -/
def takeSlot (s : State) (n : Nat) : State :=
  let x := s.slot n
  match x.rdy with
  | some r => ((s.setSlot n { x with rdy := none }).set (CRF_PI_SLOT_RD n) r).set (CRF_PI_SLOT_NEW n) 0
  | none => s

/-! ### Parts of the boundary sequence (R158) -/

/-- Whether part `k` of the sequence of the tick to come has run: 0 the flip, 1 the latch, 2 the servo load. -/
def partDone (s : State) (k : Nat) : Bool := s.tick.cutDone.contains k
/-- Mark a part as run. -/
def markPart (s : State) (k : Nat) : State := { s with tick := { s.tick with cutDone := k :: s.tick.cutDone } }

/-- T - 40 ns: every enabled slot flips. -/
def partFlip (s : State) : State :=
  if partDone s 0 then s else (List.range 256).foldl flipSlot (markPart s 0)

/-- T - 30 ns: the launch latch; a sip cut that was due comes first. -/
def partLatch (s : State) : State :=
  if partDone s 1 then s else if s.fatal then markPart s 1 else crfLatch (sipCut (markPart s 1))

/-- T - 20 ns: rounds that end here are loaded (R315); one not closed yet closes first. A follower loads its own term (R502). -/
def partLoad (s : State) : State :=
  if partDone s 2 then s
  else
    let s1 := (List.range 8).foldl (fun t n => servoLoad (if roundDue t n then closeRound t n else t) n) (markPart s 2)
    if followsTick s1 s1.tickTb then followerLoad s1 s1.tickTb else s1

/-- The parts of the boundary sequence whose instants have come (R158). -/
def dueParts (s : State) : State :=
  let s1 := if withinSeq s (40 * 65536) then partFlip s else s
  let s2 := if withinSeq s1 (30 * 65536) then partLatch s1 else s1
  if withinSeq s2 (20 * 65536) then partLoad s2 else s2

/-! ### The boundary T -/

/-- A processor enters the new tick (R120, R137, R140, R158); its first word starts a clock after T, where a wait-tick word is not still
running (R159). -/
def spBoundary (s : State) (g : Nat) : State :=
  let x := s.sp g
  let ended := decide (x.run = .waitTick) || (decide (x.run = .exec) && !cuttable s g)
  let s1 := if ended ∧ !x.cut then s.set (SP_BUDGET_USED_USED g) x.count else s
  let first := (s.tbStamp s.tickTb + 81920) / 65536 % 2 ^ 32
  let y := { x with count := 0, skew := 0, lowRaised := false, late := x.cut, cut := false, crossed := decide (x.run = .exec) }
  s1.setSp g (if x.run ≠ .waitTick then y
    else { y with run := .exec, pc := if x.vec0 then 0x1000 else (spWord s g).next, holdRun := 0, begun := true, nowAt := first, rd := spReads s g 1 })

/-- A guardian at the start of tick `num` (R249, R250): at a cycle start it enters Enforce when its base is synchronised. -/
def grdBoundary (s : State) (num p : Nat) : State :=
  let st := s.get (PRT_GRD_STAT_STATE p)
  if !s.flag (PRT_GRD_CTL_EN p) || st ≥ 2 || num % max 1 (s.get (PRT_GRD_CTL_TICKS p)) != 0 then s
  else if grdWaits s then s
  else s.set (PRT_GRD_STAT_STATE p) 2

/-- The boundary itself: tick `num` starts. -/
def boundaryT (s : State) (num : Nat) : State :=
  let k := s.tick.idx
  let s1 := leaderBoundary (s.set GLB_TICK_NUM_NUM num)
  let s2 := { s1 with tick := { s1.tick with
    cur := true, start := s1.tick.next, idx := k + 1, next := tickStart s1 ((k : Int) + 1),
    late := s1.tick.lateNext, lateNext := false, cutDone := [], startAt := s1.now } }
  let s3 := if s.fatal then s2 else group10Clear ((List.range 16).foldl spBoundary s2)
  let s4 := (List.range 8).foldl (fun t n =>
    if num % (t.get (SYN_CTL_ROUND n) + 1) = 0 then roundBegin t n else t) s3
  eventRequest ((List.range 128).foldl (fun t p => grdBoundary t num p) s4) 2 0

/-- TICK_BOUNDARY (R34, R35, R158): the boundary sequence of the tick to come, once its start has been reached. What of the
sequence has not run yet runs first; processors that have not started a wait-tick by C are cut off. -/
def execTickBoundary (s : State) : Out :=
  if !s.tick.run || !isPast48 s.tick.next (s.tbStamp s.tickTb) then .next s
  else
    let s1 := if s.fatal || !s.tick.cur then s
      else (List.range 16).foldl (fun t g => if cuttable t g then cutOff t g true else t) s
    let s2 := partLoad (partLatch (partFlip s1))
    .next (boundaryT s2 (nextNum s2))

/-- PUBLISH (R39 to R42): from T - 40 ns on the flip comes first, and the flip-pending condition is set. While the host interface is
halted nothing is published, and the flips find no new data (R42, R362; log entry 112). -/
def execPublish (n : Fin 256) (s : State) : Out :=
  if s.fatal || s.halted || s.flag (CRF_PI_SLOT_DIR n.val) then .next s
  else
    let seq := withinSeq s (40 * 65536)
    let s1 := publishSlot (if seq then partFlip s else s) n.val
    .next (if seq then s1.setSlot n.val { s1.slot n.val with flipPend := true } else s1)

/-- TAKE (R39 to R42). -/
def execTake (n : Fin 256) (s : State) : Out :=
  if s.fatal || !s.flag (CRF_PI_SLOT_DIR n.val) then .next s
  else .next (takeSlot (if withinSeq s (40 * 65536) then partFlip s else s) n.val)

/-! ### The tick starts (R35) -/

/-- The tick that contains the time `d` (2^-16 ns) after the start of tick `k` (R30). -/
def tickAfter (s : State) (k d : Nat) : Nat :=
  let c := s.get GLB_TICK_CTL_CYCLE
  let p := max 1 (tickPer s)
  let l := max 1 (65536 * s.get GLB_TICK_CYCNS_CYCNS)
  if c = 0 then k + d / p
  else
    let q := k % c
    let off := d + (diff48 (tickStart s (k : Int)) (tickStart s ((k - q : Nat) : Int))).toNat
    k - q + c * (off / l) + min (c - 1) (off % l / p)

/-- Ticks from the anchor to the first boundary: the anchor tick if ANCHOR is in the future, else the earliest tick that
starts in the future. -/
def firstIndex (s : State) : Nat :=
  let now := s.tbStamp s.tickTb
  if !isPast48 s.tick.anchor now then 0 else tickAfter s 0 (diff48 now s.tick.anchor).toNat + 1

/-- COMMIT starts the tick (R35). -/
def tickBegin (s : State) : State :=
  let n0 := s.get GLB_TICK_NUM_NUM
  let s1 := { s.set GLB_TICK_CTL_RUN 1 with
    tick := { Tick.rst with run := true, anchor := 65536 * s.get GLB_TICK_ANCHOR_ANCHOR, n0 := n0 } }
  let k := firstIndex s1
  let s2 := { s1 with tick := { s1.tick with idx := k, next := tickStart s1 (k : Int) } }
  s2.set GLB_TICK_NUM_NUM (n0 + k + (2 ^ 32 - 1))

/-! ### Steps (R36, R281, R282, R538) -/

/-- Wraps and unwraps a step makes (R282): `old` and `new_` are stamps before and after, not reduced. -/
def stepWraps (old new_ : Int) : Option Bool :=
  if new_ ≥ 2 ^ 48 then some false
  else if new_ < 0 ∨ (old < 2 ^ 47 ∧ new_ ≥ 2 ^ 47 ∧ new_ < old) then some true
  else none

/-- A forward step of the tick's base that reached T (R36): the boundary at the tick that contains the new time. -/
def stepBoundary (s : State) (now : Nat) : State :=
  let k := tickAfter s s.tick.idx (diff48 now s.tick.next).toNat
  let num := (nextNum s + (k - s.tick.idx)) % 2 ^ 32
  let s1 := devEvent s 8
  let s2 := { s1 with tick := { s1.tick with idx := k, next := tickStart s1 (k : Int) } }
  let s3 := partLoad (partLatch (partFlip (s2.set GLB_TICK_NUM_NUM (num + (2 ^ 32 - 1)))))
  boundaryT s3 num

/-- What a step of the tick's base does to the boundary sequence (R36, R538), and the TIME_STEP cause of the processors,
whose ticks run from COMMIT on (R137, R281). -/
def stepTick (s : State) (forward : Bool) : State :=
  let now := s.tbStamp s.tickTb
  let s1 := if s.tick.run then (List.range 16).foldl (fun t g => pendTrap t g 8) s else s
  if !forward || !s.tick.run || s.fatal then s1
  else
    let s2 := if s.tick.cur && isPast48 (cutInstant s) now then
        let t := (List.range 16).foldl (fun t g => if cuttable t g then cutOff t g false else t) s1
        { t with tick := { t.tick with lateNext := true } }
      else s1
    if isPast48 s.tick.next now then stepBoundary { s2 with tick := { s2.tick with lateNext := true } } now
    else dueParts s2

/-- TB_STEP_SUM after a step of `d` ns (R304): at either bound it stays there until written. -/
def stepSum (sum d : Int) : Int := if sum = 2 ^ 31 - 1 ∨ sum = -(2 ^ 31) then sum else satInt 32 (sum + d)

/-- A step of time base `n` by `d` in 2^-16 ns, with every effect of R281. A wrap by counting that is due comes first
(R311). Records carry the old time. -/
def applyStep (s : State) (n : Nat) (d : Int) : State :=
  let t := s.tb n
  let s0 := if t.wrapDue then wrapEvent (s.setTb n { t with wrapDue := false }) n false else s
  let old : Int := (s0.tbStamp n : Int)
  let s1 := devRec s0 2 1 (ofInt 32 (d / 65536)) n
  let s2 := match stepWraps old (old + d) with | some back => wrapEvent s1 n back | none => s1
  let sum := stepSum (toInt 32 (s2.get (TB_STEP_SUM_SUM n))) (d / 65536)
  let s3 := (s2.set (TB_STAT_STEPPED n) 1).set (TB_STEP_SUM_SUM n) (ofInt 32 sum)
  let u := s3.tb n
  let s4 := s3.setTb n { u with acc := (((u.acc : Int) + d * 2 ^ 24) % 2 ^ 72).toNat }
  if n = s.tickTb then stepTick s4 (decide (0 ≤ d)) else s4

/-- Re-phase the tick to the sender's (R260): `t0` is the start of the sender's tick `num` on the common time. What counts ticks by their
index goes on by the new one: the deadlines of DMA jobs (R381), the remote latches (R505). -/
def csRephase (s : State) (t0 num : Nat) : State :=
  let p : Int := max 1 (tickPer s : Int)
  let d := diff48 (s.tbStamp s.tickTb) t0 + p / 2
  let k := (d + p - 1) / p
  let b := ofInt 48 ((t0 : Int) + k * p)
  let n0 := ofInt 32 ((num : Int) + k)
  let s1 := s.set GLB_TICK_ANCHOR_ANCHOR (b / 65536)
  { s1 with
    tick := { s1.tick with anchor := b, n0 := n0, idx := 0, next := b, lateNext := true, cutDone := [] }
    dma := s1.dma.map (fun e => (e.1, { e.2 with deadline := e.2.deadline - s1.tick.idx }))
    stns := s1.stns.map (fun e => (e.1, { e.2 with rtick := 0 })) }

/-- A step that the end of the base clock adds (R280, R281). -/
def stepDue (s : State) (e : StepDue) : State := { s with steps := s.steps ++ [e] }

/-- Add one step that is due: SET_TIME sets the whole fraction; an integration re-phases the tick after it. -/
def applyDue (s : State) (e : StepDue) : State :=
  let s1 := match e.value with
    | none => applyStep s e.n e.amount
    | some v =>
      let t := s.tb e.n
      applyStep (s.setTb e.n { t with acc := t.acc / 2 ^ 24 * 2 ^ 24 }) e.n (diff48 v (s.tbStamp e.n))
  match e.rephase with
  | some (t0, num) => csRephase s1 t0 num
  | none => s1

/-- The end of a base clock: the steps that passed in it are added, in order of submission (R280, R311). -/
def applySteps (s : State) : State := s.steps.foldl applyDue { s with steps := [] }

/-- STEP (R280, R302, R323): the write of TB_STEP_NS submits the step. -/
def execStep (n : TbIx) (ns : Word) (s : State) : Out :=
  if s.fatal then .next s
  else
    let d := toInt 32 ns.toNat * 65536 + (s.get (TB_STEP_FRAC_FRAC n.val) : Int)
    match jumpCheck s n.val d 2 with
    | (true, s1) => .next (stepDue s1 ⟨n.val, d, none, none, none, false⟩)
    | (false, s1) => .next s1

/-- STEP_GRANT (R324, R333): the pending value is applied where SEQ matches; otherwise MISS. -/
def execStepGrant (v : Word) (s : State) : Out :=
  if s.fatal then .next s
  else
    let n := getField v 16 3
    let s1 := (s.set SYN_GRANT_TB n).set SYN_GRANT_SEQ (getField v 0 8)
    if getField v 31 1 = 0 then .next s1
    else if s1.flag (SYN_PEND_CTL_VALID n) ∧ s1.get (SYN_PEND_CTL_SEQ n) = getField v 0 8 then
      let d := toInt 32 (s1.get (SYN_PEND_NS_NS n)) * 65536 + (s1.get (SYN_PEND_CTL_FRAC n) : Int)
      .next (stepDue ((s1.set (SYN_PEND_CTL_VALID n) 0).set SYN_GRANT_MISS 0) ⟨n, d, none, none, some (getField v 0 8), false⟩)
    else .next (s1.set SYN_GRANT_MISS 1)

end Sys2Proof.Machine
end

