-- ==== Sys2Proof/Machine/Copies.lean ====
section
/-! DEFINITION. Carafe copies as they run (R187 to R202, R220): the head's launch and returns, copies in passage, their ends, GIVEUP and
the deadlines. -/

namespace Sys2Proof.Machine

/-! ### Launch (R187, R195) -/

/-- Base clocks until such a copy leaves its MAC. -/
def launchIn (s : State) (c p var : Nat) : Nat := ((-launchLate s c p var + 65535) / 65536).toNat

/-- CARAFE_LAUNCH (R187, R195): at T + LOFS, less the transmit parts of R48. -/
def execCarafeLaunch (c : Fin 64) (varA varB : Nat) (s : State) : Out :=
  let c := c.val
  let a := s.get (CRF_CAR_RING_A_OUT c)
  let b := s.get (CRF_CAR_RING_B_OUT c)
  let lead := max (txCorr s a varA) (txCorr s b varB)
  match (s.car c).image with
  | none => .next s
  | some img =>
    if s.fatal || !s.crf.win || decide (sinceWin s (s.get (CRF_CAR_LOFS_LOFS c)) + lead < 0) then .next s
    else
      let s1 := s.setCar c { s.car c with image := none }
      let s2 := sendJob s1 a (.head c false img) (s.now + launchIn s c a varA) varA
      .next (sendJob s2 b (.head c true img) (s.now + launchIn s c b varB) varB)

/-! ### Headers (R188 to R190, R196) -/

/-- Key of a copy in arrival. -/
def copyK (p : Nat) (dirB : Bool) : Nat := 2 * p + dirB.toNat

/-- Replace the copy in arrival under a key. -/
def State.setCopy (s : State) (k : Nat) (x : Option CopySt) : State := { s with copies := tset none s.copies k x }

/-- The header of a copy of entry `c` at its device (R188, R189 step 1, R249): what becomes of it. `win` is the tick of the accept window in
which it arrived, with whether that tick still runs; `t` is its stamp for the guardian, `sfd` where its SFD was on TBL, `rx` its stamp for
LOOP. -/
def copyHeader (s : State) (p c : Nat) (dirB : Bool) (h : RxHdr) (win : Option (Nat × Bool)) (t sfd rx : Nat) : CopySt × State :=
  let tick := (win.map (·.1)).getD 0
  let x : CopySt := ⟨s.ids, c, .taken, h.bytes, copyUif h.bytes, false, false, none, false, tick, secMark s p h.sec, rx, none, h.len, none⟩
  let s0 := { s with ids := s.ids + 1 }
  match grdRx s0 p (etherType h.bytes) t sfd with
  | (false, _, s1) => ({ x with fate := .blocked }, s1)
  | (true, cut, s1) =>
    match secRx s1 p h.bytes h.sec with
    | (false, s2) => ({ x with fate := .dropped, cut := cut }, s2)
    | (true, s2) =>
      if win.isNone || tick != beField h.bytes 16 4 then
        ({ x with fate := .dropped, cut := cut }, s2.inc (CRF_CAR_CNT0_DROP_TICK c))
      else
        let ok := copyChecks s c dirB h.bytes
        let s3 := if (win.map (·.2)).getD true then carArrived s2 c else s2
        ({ x with cut := cut, mism := !ok }, if ok then s3 else devEvent (s3.inc (CRF_CAR_CNT0_MISMATCH c)) 10)

/-- The accept window open now. -/
def windowNow (s : State) : Option (Nat × Bool) := if s.crf.win then some (s.crf.tick, true) else none

/-- The accept window open `ago` (2^-16 ns) before now (R187, R188): before the latch of the present one, that of the tick before, which
runs until the present tick starts. -/
def windowAt (s : State) (ago : Nat) : Option (Nat × Bool) :=
  if s.crf.win && decide (sinceWin s 0 + 30 * 65536 < (ago : Int)) then s.crf.before.map (fun n => (n, decide (sinceWin s 0 < 0)))
  else windowNow s

/-- The egress port of a copy. -/
def copyOut (s : State) (c : Nat) (dirB : Bool) : Nat := s.get (if dirB then CRF_CAR_RING_B_OUT c else CRF_CAR_RING_A_OUT c)

/-- COPY_RECEIVE (R178, R179, R188 to R190): the header of a copy arrives; the model takes the clock of its SFD at the ingress MAC for that
instant, which the spec does not fix further (DESIGN CHOICE, log entry 108). A device that does not head its carafe forwards an accepted copy
38 ns later, 51 ns where either port runs MACsec; the boundary sequence up to this clock comes first (R220). -/
def execCopyReceive (p : Port) (h : RxHdr) (varTx : Nat) (s : State) : Out :=
  let p := p.val
  if s.fatal || !canSend s p then .next s
  else match copyOf s p h.bytes with
  | none => .next s
  | some (c, dirB) =>
    let s0 := noteRx (dueParts s) p h.varRx
    let o := copyOut s c dirB
    let head := s.flag (CRF_CAR_CFG_HEAD c)
    let rx := rxStamp s0 p (if head then sfdOn s p h.varRx else copySfd s p o h.varRx) s.tickTb
    let (x, s1) := copyHeader s0 p c dirB h (windowNow s0) (grdStamp s0 p h.varRx) (grdSfd s0 h.varRx) rx
    if x.fate ≠ .taken ∨ head then .next (s1.setCopy (copyK p dirB) (some x))
    else
      let b := if x.mism then h.bytes else fillBlock s1 c h.bytes
      let res := if s.flag (PRT_SEC_CFG_EN p) || s.flag (PRT_SEC_CFG_EN o) then 51 else 38
      let s2 := s1.setCopy (copyK p dirB) (some { x with bytes := b, sent := true })
      .next (sendJob s2 o (.copy x.id c dirB h.len b rx (!x.mism) none) (s.now + res) varTx)

/-! ### Ends (R193, R198 to R201) -/

/-- Count a received copy at its port (R113, R182). -/
def countRx (s : State) (p len : Nat) (fcs : Bool) : State :=
  if fcs then addCnt (addCnt s (PRT_CNT_RX_FRAMES p) 1) (PRT_CNT_RX_BYTES p) len else addCnt s (PRT_CNT_RX_BAD p) 1

/-- The trailer of a copy sent on (R198). -/
def copyTrailer (s : State) (c : Nat) (b : Bytes) (bad uif : Bool) : Bytes :=
  let n := b.length
  if !bad || uif then b
  else
    let b1 := spliceAt b (n - 4) [b8 (128 + beField b (n - 4) 1 % 128)]
    if (stationsOf s c).isEmpty then b1 else spliceAt b1 (n - 3) [b8 (blockEnds s c).1]

/-- What leaves for a copy in passage at its end: at once where its SFD has left, else with it. -/
def copyLeaves (s : State) (o : Nat) (x : CopySt) (out : Bytes) (bad : Bool) : State :=
  match x.loop with
  | some l =>
    let s1 := s.emit (.frame o (protect x.sa (spliceAt out 32 (beBytes 6 l))))
    if bad || x.broken then s1.emit (.stomp o) else s1
  | none =>
    let end_ : Due → Due := fun d => match d.job with
      | .copy i c b n bs r ok _ => if i = x.id then { d with job := .copy i c b n bs r ok (some (out, bad)) } else d
      | _ => d
    s.setPort o { s.port o with jobs := (s.port o).jobs.map end_ }

/-- Whether sips of a copy are still taken: its window is open and its sip cut has not come (R188). -/
def inWindow (s : State) (x : CopySt) : Bool := s.crf.win && s.crf.tick == x.tick && !s.crf.cut

/-- A copy failed at the stations of the entry (R198, R199, R202): the group 10 bit is that of the tick in progress. -/
def blockFails (s : State) (x : CopySt) : State :=
  (stationsOf s x.car).foldl (fun t st =>
    if t.crf.win && t.crf.tick == x.tick then stationFails t st else t.inc (CRF_ST_CNT0_FAIL st))
    (if x.mism then s else devEvent s 10)

/-- Its sips are discarded by lateness (R188, R201). -/
def blockLate (s : State) (c : Nat) : State := (stationsOf s c).foldl (fun t st => t.inc (CRF_ST_CNT1_LATE st)) s

/-- The end of an accepted copy in passage (R189, R193, R198 to R201): `good` with a correct FCS and a verified ICV, `rxLen` its length. -/
def copyEnd (s : State) (p : Nat) (dirB : Bool) (x : CopySt) (good : Bool) (rxLen : Nat) : State :=
  let c := x.car
  let o := copyOut s c dirB
  let long := decide (rxLen ≠ carLen s c)
  let fails := !good || x.uif || x.mism || long
  let out := copyTrailer s c x.bytes fails x.uif
  let s0 := s.setCopy (copyK p dirB) none
  let s1 := if x.sent then copyLeaves s0 o x out long else s0
  let mine := stationsOf s c
  if mine.isEmpty then s1
  else
    let s2 := if fails then blockFails s1 x else s1
    if !inWindow s x then blockLate s2 c
    else if fails then s2
    else mine.foldl (fun t st => takeCopy t c st dirB (beField out 20 1 / 128 == 1) (out.drop (carData s c))) s2

/-- Whether GIVEUP of a station is due (R193). -/
def giveupDue (s : State) (st : Nat) : Bool :=
  let g := s.get (CRF_ST_GIVEUP_GIVEUP st)
  inRing s st && s.crf.win && !s.crf.cut && g != 0 && !(s.stn st).gpass && decide (0 ≤ sinceWin s g)

/-- GIVEUP at a station: ranges still waiting settle from the first valid copy, with AGE 1 or 2. -/
def giveup (s : State) (st : Nat) : State :=
  let x := s.stn st
  let s1 := s.setStn st { x with gpass := true }
  match x.first with
  | none => s1
  | some (data, reuse) =>
    readyCheck ((rangesOf s st).foldl (fun t k =>
      if ((t.stn st).age.getD k none).isSome then t else settle t st k (if reuse then 2 else 1) data) s1) st

/-- What comes before a copy's end in the same clock (R220): the sip cut and GIVEUP at the stations of its entry. -/
def beforeEnd (s : State) (c : Nat) : State :=
  let s1 := if cutDue s then sipCut s else s
  (stationsOf s1 c).foldl (fun t st => if giveupDue t st then giveup t st else t) s1

/-- COPY_VERIFY (R193, R198 to R201): the end of a copy at a device that does not head its carafe; `rxLen` is its received length from DA
to FCS, without SecTAG and ICV. A copy dropped at its header only counts at its port (R182), a blocked one only where it ends bad (R249),
and a copy that a guardian has cut has ended already. -/
def execCopyVerify (p : Port) (dirB : Bool) (e : RxEnd) (rxLen : Nat) (s : State) : Out :=
  let p := p.val
  let k := copyK p dirB
  match tget none s.copies k with
  | none => .next s
  | some x =>
    let fcs := e.fcs && s.flag (PRT_STAT_LINK p) && !(s.port p).memHalt
    let wire := rxLen + (if s.flag (PRT_SEC_CFG_EN p) then 32 else 0)
    if s.fatal || s.flag (CRF_CAR_CFG_HEAD x.car) then .next s
    else match x.fate with
    | .cut => .next (s.setCopy k none)
    | .blocked => .next (if fcs then s.setCopy k none else addCnt (s.setCopy k none) (PRT_CNT_RX_BAD p) 1)
    | .dropped => .next (countRx (s.setCopy k none) p wire fcs)
    | .taken =>
      let icv := x.sec.isNone || e.icv
      let s1 := secRxEnd (countRx (beforeEnd s x.car) p (rxLen + (if x.sec.isSome then 32 else 0)) fcs) p (if fcs then x.sec else none) icv
      .next (copyEnd s1 p dirB x (fcs && icv) rxLen)

/-! ### Returns (R196, R197) -/

/-- The lowest position whose COUNT is not as EXP says (R196). -/
def wkcFault (s : State) (c : Nat) (b : Bytes) : Option Nat :=
  (List.range (s.get (CRF_CAR_POS_NST c))).find? (fun x =>
    beField b (46 + 2 * x) 1 != s.get (CRF_HD_EXP_EXP c (x / 32)) / 2 ^ (x % 32) % 2)

/-- A valid return: the first becomes the merge image and settles the head block, the second is compared (R197). Of two that verify in
one clock copy A is the first (R220). -/
def takeReturn (s : State) (c : Nat) (dirB : Bool) (b : Bytes) (rx : Nat) : State :=
  let x := s.car c
  let area := (b.drop (carData s c)).take (s.get (CRF_CAR_CFG_DLEN c))
  let ret := some (rx, beField b 32 6)
  let wkc := match wkcFault s c b, x.wkc with
    | some a, some d => some (min a d)
    | some a, none => some a
    | none, w => w
  let swap := !dirB && x.first == some true && x.firstAt == s.now
  let y := { x with
    wkc := wkc, retA := if dirB then x.retA else ret, retB := if dirB then ret else x.retB
    div := x.first.isSome && area != x.area }
  let s1 := if x.first.isSome && !swap then s.setCar c y
    else (s.setCar c { y with first := some dirB, area := area, firstAt := s.now }).putBytes (mergeA c) area
  (stationsOf s c).foldl (fun t st => takeCopy t c st dirB (beField b 20 1 / 128 == 1) (b.drop (carData s c))) s1

/-- The end of an accepted return (R188, R196, R197, R201): late after the sip cut, lost after RDL. -/
def returnEnd (s : State) (p : Nat) (dirB : Bool) (x : CopySt) (b : Bytes) (good : Bool) (rxLen : Nat) : State :=
  let c := x.car
  let fails := !good || x.uif || x.mism || decide (rxLen ≠ carLen s c)
  let s0 := s.setCopy (copyK p dirB) none
  let s1 := if fails then blockFails s0 x else s0
  let had := if dirB then (s.car c).retB.isSome else (s.car c).retA.isSome
  if !inWindow s x then blockLate s1 c
  else if fails || had || decide (sinceWin s (s.get (CRF_CAR_RDL_RDL c)) > 0) then s1
  else takeReturn s1 c dirB b x.rx

/-- A return whose header no COPY_RECEIVE has brought: its header is judged at its last byte, by the stamps its SFD had and the window that
was open then. -/
def returnHeader (s : State) (p c : Nat) (dirB : Bool) (h : RxHdr) : CopySt × State :=
  let wire := (h.len + (if secured s p h.sec then 32 else 0)) * 8 * 65536 / max 1 (portSpeed s p)
  let rx := ofInt 48 ((rxStamp s p (sfdOn s p h.varRx) s.tickTb : Int) - wire)
  let sfd := (grdSfd s h.varRx + 2 ^ 48 - wire % 2 ^ 48) % 2 ^ 48
  let (x, s1) := copyHeader (noteRx s p h.varRx) p c dirB h (windowAt s wire) rx sfd rx
  if grdOver s1 x.cut then
    (let s2 := grdTrunc s1 p
     ({ x with fate := .cut }, if x.fate = .taken then returnEnd s2 p dirB x h.bytes false 0 else s2))
  else (x, s1)

/-- CARAFE_RETURN (R189, R195 to R197, R203): a copy has come back to the head; the command stands at its last byte. -/
def execCarafeReturn (p : Port) (h : RxHdr) (e : RxEnd) (s : State) : Out :=
  let p := p.val
  match copyOf s p h.bytes with
  | none => .next s
  | some (c, dirB) =>
    let k := copyK p dirB
    let known := tget none s.copies k
    if s.fatal || !s.flag (CRF_CAR_CFG_HEAD c) || (known.isNone && !canSend s p) then .next s
    else
      let (x, s1) := match known with
        | some x => (x, s)
        | none => returnHeader (dueParts s) p c dirB h
      let fcs := e.fcs && s.flag (PRT_STAT_LINK p) && !(s.port p).memHalt
      let wire := h.len + (if secured s p h.sec then 32 else 0)
      match x.fate with
      | .cut => .next (s1.setCopy k none)
      | .blocked => .next (if fcs then s1.setCopy k none else addCnt (s1.setCopy k none) (PRT_CNT_RX_BAD p) 1)
      | .dropped => .next (countRx (s1.setCopy k none) p wire fcs)
      | .taken =>
        let icv := x.sec.isNone || e.icv
        let s2 := secRxEnd (countRx (beforeEnd s1 c) p wire fcs) p (if fcs then x.sec else none) icv
        .next (returnEnd s2 p dirB x h.bytes (fcs && icv) h.len)

/-- The copies of a port that a guardian cuts now (R252): each ends as one with a bad FCS. -/
def cutCopies (s : State) (p : Nat) : State :=
  [false, true].foldl (fun t dirB =>
    match tget none t.copies (copyK p dirB) with
    | none => t
    | some x =>
      if x.fate = .cut ∨ x.fate = .blocked ∨ !grdOver t x.cut then t
      else
        let t1 := grdTrunc t p
        let t2 := if x.fate = .dropped then t1
          else if t.flag (CRF_CAR_CFG_HEAD x.car) then returnEnd t1 p dirB x x.bytes false 0
          else copyEnd t1 p dirB x false 0
        t2.setCopy (copyK p dirB) (some { x with fate := .cut, cut := none })) s

/-! ### GIVEUP, deadlines, the sip cut -/

/-- GIVEUP (R193): ranges still waiting settle from the first valid copy, with AGE 1 or 2. -/
def execGiveup (st : Fin 64) (s : State) : Out :=
  if s.fatal || !giveupDue s st.val then .next s else .next (giveup s st.val)

/-- RETURN_DEADLINE (R187, R196, R202): returns whose last byte has not come are lost. -/
def execReturnDeadline (c : Fin 64) (s : State) : Out :=
  let c := c.val
  let x := s.car c
  if s.fatal || !s.crf.win || s.crf.cut || !s.flag (CRF_CAR_CFG_EN c) || !s.flag (CRF_CAR_CFG_HEAD c) ||
      decide (sinceWin s (s.get (CRF_CAR_RDL_RDL c)) < 0) then .next s
  else
    let a := x.retA.isNone && !x.lostA
    let b := x.retB.isNone && !x.lostB
    let s1 := s.setCar c { x with lostA := x.lostA || a, lostB := x.lostB || b }
    let s2 := if a then devEvent s1 11 else s1
    .next (if b then devEvent s2 11 else s2)

/-- SIP_CUT (R187): T_{n+1} - 100 ns. -/
def execSipCut (s : State) : Out :=
  if s.fatal || !cutDue s then .next s else .next (sipCut s)

/-! ### Stations across members (R505) -/

/-- REMOTE_POUR_LATCH (R505): at T - 2,030 ns the serving member sends a station's pour data to the ring member: kind 3,
station, STALE and OVR, bytes. -/
def execRemotePourLatch (st : Fin 64) (s : State) : Out :=
  let st := st.val
  if s.fatal || !remoteDue s st then .next s else .next (remoteLatch s st)

/-- REMOTE_STATION_DATA (R505): without a range, pour data at the ring member, `age` holding STALE and OVR; with one, a
settled range at the serving member, whose first two bytes are its place in the sip buffer and whose third tells whether
it is the station's last. -/
def execRemoteStationData (st : Fin 64) (range : Option (Fin 4)) (age : Fin 4) (data : Bytes) (s : State) : Out :=
  let st := st.val
  if s.fatal || !s.flag (CRF_ST_CFG_EN st) || !s.flag (CRF_ST_REMOTE_EN st) then .next s
  else match range with
  | none =>
    if servesRemote s st then .next s
    else
      let s1 := s.putBytes (pourA st) (data.take 1024)
      .next ((s1.setStn st { s1.stn st with rflags := age.val }).set (CRF_ST_STAT_POUR_OPEN st) 0)
  | some k =>
    if !servesRemote s st then .next s
    else if !s.crf.win || s.crf.cut then .next (s.inc (CRF_ST_CNT1_LATE st))
    else
      let x := s.stn st
      let y := { x with age := x.age.set k.val (some age.val), known := if x.known.contains k.val then x.known else x.known ++ [k.val] }
      let s1 := (s.setStn st y).set (CRF_ST_STAT_ARRIVED st) 1
      let o := beField data 0 2 % 2048
      let s2 := sipPut s1 st o ((data.drop 3).take (2048 - o))
      .next (if beField data 2 1 % 2 = 1 ∧ !s.flag (CRF_ST_STAT_READY st) then sipReady s2 st s.crf.tick else s2)

end Sys2Proof.Machine
end

