-- ==== Sys2Proof/Machine/Sync.lean ====
section
/-! DEFINITION. Synchronisation commands: rounds and holdoffs (R315, R326), the node registers (R314, R334), the asymmetry
watch's ACCEPT (R327), and the PTP follower (R319 to R322, R328). -/

namespace Sys2Proof.Machine

/-! ### Ensemble (R313 to R327) -/

/-- SYNC_ROUND_END (R315 to R318): from T - 60 ns of a boundary that ends a round. -/
def execSyncRoundEnd (n : TbIx) (s : State) : Out :=
  .next (closeDue s n.val)

/-- A frozen path's HOLD is 0 (R326): it rejoins, or its estimate is offered. -/
def holdoffOver (s : State) (n j p : Nat) (r : Int) : State :=
  let y := s.path n j p
  if (r - y.base).natAbs ≤ (pathJump s n).natAbs then
    (s.setPath n j p { y with frozen := false, last := some r, now := none }).set (fBit n j p) 0
  else
    let est := ofInt 32 (divNear (y.base - r) 256)
    let s1 := (s.setPath n j p { y with offered := true }).set (NODE_EST_EST n j p) est
    devRec ((s1.set (cBit n j p) 1).set (SYN_STAT_PATH_CHANGED n) 1) 3 4 est (n * 65536 + j)

/-- HOLDOFF_END (R326). -/
def execHoldoffEnd (n : TbIx) (j : Fin 16) (path : Fin 2) (s : State) : Out :=
  let y := s.path n.val j.val path.val
  match y.frozen && !y.offered && !y.rejoin && y.hold == 0, y.now with
  | true, some r => .next (holdoffOver s n.val j.val path.val r)
  | _, _ => .next s

/-- The path rejoins at the next round with the delay its register then holds (R326); once the round has closed, what is measured already
counts for the next, with that delay (R338). -/
def pathAccepted (s : State) (n j p : Nat) : State :=
  let y := s.path n j p
  let dly := if (s.syn n).closed then toInt 32 (s.get (NODE_DLY_DLY n j p)) else y.dly
  (s.setPath n j p { y with rejoin := true, offered := false, dly := dly }).set (cBit n j p) 0

/-- ACCp (R326): acts only while Cp = 1. -/
def accPath (s : State) (n j p : Nat) : State :=
  if !s.flag (cBit n j p) then s
  else pathAccepted (s.set (NODE_DLY_DLY n j p) (s.get (NODE_DLY_DLY n j p) + s.get (NODE_EST_EST n j p))) n j p

/-- NODE_ACC (R326, R334). -/
def execNodeAcc (n : TbIx) (j : Fin 16) (v : Word) (s : State) : Out :=
  if s.fatal then .next s
  else
    let s1 := if getField v 0 1 = 1 then accPath s n.val j.val 0 else s
    .next (if getField v 1 1 = 1 then accPath s1 n.val j.val 1 else s1)

/-- NODE_DLY (R326, R334): a write of DLYp. -/
def execNodeDly (n : TbIx) (j : Fin 16) (path : Fin 2) (v : Word) (s : State) : Out :=
  if s.fatal then .next s
  else .next (pathAccepted (s.setW (NODE_DLY n.val j.val path.val) v) n.val j.val path.val)

/-- NODE_CTL (R314, R334): the node begins anew. -/
def execNodeCtl (n : TbIx) (j : Fin 16) (v : Word) (s : State) : Out :=
  if s.fatal then .next s
  else
    let n := n.val
    let j := j.val
    let s1 := s.setW (NODE_CTL n j) (v &&& 0xE000FFFF)
    let s2 := s1.setW (NODE_STAT n j) (rword s1.regs (NODE_STAT n j) &&& 0x0000FFFF)
    let s3 := (s2.set (NODE_EST_EST n j 0) 0).set (NODE_EST_EST n j 1) 0
    .next (takeDelays (s3.setNode n j { NodeSt.rst with eLast := s.get (NODE_SOFS_SOFS n j) }) n j)

/-- NODE_SOFS (R313, R334). -/
def execNodeSofs (n : TbIx) (j : Fin 16) (v : Word) (s : State) : Out :=
  if s.fatal then .next s
  else
    let s1 := (s.setW (NODE_SOFS n.val j.val) v).set (NODE_STAT_LOST_TRK n.val j.val) 0
    .next (s1.setNode n.val j.val { s1.node n.val j.val with eLast := v.toNat })

/-- A slave port rejoins with its history cleared (R326, R328). -/
def slaveRejoin (s : State) (n b : Nat) : State :=
  (s.setPtp n b { s.ptp n b with frozen := false, mld := false, offered := false, hold := 0, last := none, delta := none }).set
    (frzBit n b) 0

/-- ASW_ACCEPT (R327, R335): ASYM_SUSPECT and EST clear, BASE is taken, what the entry froze and is still frozen rejoins. -/
def execAswAccept (n : TbIx) (w : Fin 4) (s : State) : Out :=
  if s.fatal then .next s
  else
    let n := n.val
    let w := w.val
    let s1 := (s.asw n w).froze.foldl (fun t i =>
      if i < 32 then (if (t.path n (i / 2) (i % 2)).frozen then pathAccepted t n (i / 2) (i % 2) else t)
      else if (t.ptp n (i - 32)).frozen then slaveRejoin t n (i - 32) else t) s
    let s2 := ((s1.set (SYN_STAT_ASYM_SUSPECT n) 0).set (ASW_EST_EST n w) 0).setAsw n w AswSt.rst
    .next (takeBase s2 n w)

/-! ### PTP follower (R319 to R322, R328, R336) -/

/-- The slave a port is in a domain. -/
def slaveOf (s : State) (n p : Nat) : Option Nat :=
  if slavePort s n 0 = some p then some 0 else if slavePort s n 1 = some p then some 1 else none

/-- Whether a port is a master port of a domain. -/
def masterPort (s : State) (n p : Nat) : Bool := s.get (PTP_MASTER_PORTS n (p / 32)) / 2 ^ (p % 32) % 2 == 1

/-- PTP_ASYM_A, PTP_ASYM_B. -/
def asymReg (n b : Nat) : F := PTP_ASYM_ASYM n b
/-- meanLinkDelay of a slave port, 1/256 ns. -/
def slaveMld (s : State) (n b : Nat) : Int := toInt 32 (s.get (PTP_MLD_MLD n b))

/-- Whether a port holds a PTP key for a domain that authenticates (R415). -/
def ptpKeyed (s : State) (n p : Nat) : Bool := !s.flag (PTP_CTL_AUTH_EN n) || (s.key p).cak.isSome

/-- Whether an AUTHENTICATION TLV verifies (R322, R415): its ICV, under the key of the CKN in force or of the one before it while that is
still accepted, for 10 s. -/
def tlvGood (s : State) (p : Nat) (x : TlvIn) : Bool :=
  let k := s.key p
  let old := match k.oldPtp with
    | some (t, _, ckn) => decide (s.now < t + 10000000000) && x.keyId == beNat (fit 4 ckn)
    | none => false
  x.ok && k.cak.isSome && (x.keyId == beNat (fit 4 k.ckn) || old)

/-- Whether a message carries a TLV that verifies (R322). -/
def tlvVerified (s : State) (p : Nat) (x : Option TlvIn) : Bool := x.any (tlvGood s p)

/-- Whether a message may be used, and copied to the host (R322, R415). -/
def ptpPasses (s : State) (n p : Nat) (tlv : Option TlvIn) : Bool :=
  ptpKeyed s n p && !(s.flag (PTP_CTL_AUTH_EN n) && tlv.any (fun x => !tlvGood s p x)) && !(s.flag (PTP_CTL_AUTH_REQ n) && tlv.isNone)

/-- The AUTHENTICATION check of a message received on port `p` (R322, R415): whether it may be used; a discard counts in
AUTH_FAIL. -/
def ptpAuth (s : State) (n p : Nat) (tlv : Option TlvIn) : Bool × State :=
  if ptpPasses s n p tlv then (true, s) else (false, s.inc (PTP_CNT_AUTH_FAIL n))

/-- Freeze a slave port by its offset's change `d` from `base` (R326, R328). -/
def slaveChanged (s : State) (n b : Nat) (d base : Int) : State := holdIfNone (freezeSlave s n b false d (some base)) n

/-- The comparison of R328 in the manner of R325, once slave `b` has a change `d` from `l`: with the other port's change of the
interval, or alone where the other port is frozen. -/
def judgeSlave (s : State) (n b : Nat) (d l : Int) : State :=
  let o := 1 - b
  let pj := (pathJump s n).natAbs
  if !s.flag (liveBit n o) then s
  else if (s.ptp n o).frozen then (if d.natAbs > pj then slaveChanged s n b d l else s)
  else match (s.ptp n o).delta with
  | none => s.setPtp n b { s.ptp n b with delta := some d }
  | some e =>
    let s1 := s.setPtp n o { s.ptp n o with delta := none }
    if (d - e).natAbs ≤ pj then s1
    else if d.natAbs > e.natAbs ∨ (d.natAbs = e.natAbs ∧ b = 1) then slaveChanged s1 n b d l
    else slaveChanged s1 n o e (((s1.ptp n o).last.getD 0) - e)

/-- A new offset `o` of slave `b` that is not frozen: its change is judged and becomes history (R325, R328). A change of the interval
before that met none of the other port is judged alone. -/
def slaveOffset (s : State) (n b : Nat) (o : Int) : State :=
  let y := s.ptp n b
  let s0 := s.setPtp n b { y with delta := none }
  match y.last with
  | none => s0.setPtp n b { s0.ptp n b with last := some o }
  | some l =>
    let alone := match y.delta with | some d => decide (d.natAbs > (pathJump s n).natAbs) && s.flag (liveBit n (1 - b)) | none => false
    if alone then slaveChanged s0 n b (y.delta.getD 0) (l - y.delta.getD 0)
    else judgeSlave (s0.setPtp n b { s0.ptp n b with last := some o }) n b (o - l) l

/-- An offset of a frozen slave port (R326, R328), once its holdoff of sync intervals is over. -/
def frozenOffset (s : State) (n b : Nat) (o : Int) : State :=
  let y := s.ptp n b
  if s.now < y.hold ∨ y.offered then s
  else if y.mld then devRec (slaveRejoin s n b) 3 5 (ofInt 32 (slaveMld s n b)) (n * 65536 + 128 + b)
  else if (o - y.base).natAbs ≤ (pathJump s n).natAbs then
    let t := slaveRejoin s n b
    t.setPtp n b { t.ptp n b with last := some o }
  else
    let est := ofInt 32 (divNear (y.base - o) 256)
    let s2 := (s.setPtp n b { y with offered := true }).set (PTP_EST_EST n b) est
    devRec (s2.set (SYN_STAT_PATH_CHANGED n) 1) 3 4 est (n * 65536 + 128 + b)

/-- The supplying port's offset, checked and loaded (R317, R320, R323, R332). -/
def ptpLoad (s : State) (n : Nat) (o : Int) : State :=
  let v := ofInt 32 (divNear o 256)
  let s1 := ((((s.set (PTP_OFS_O n) v).set (SYN_OFS_O n) v).set (SYN_STAT_SYNC n) 1).incW (SYN_STAT_ROUNDS n))
  match jumpCheck s1 n o 1 with
  | (false, s2) => s2
  | (true, s2) =>
    let (rate, servo) := servoTerms s2 n o (65536 * syncInterval s n)
    loadServo s2 n rate servo

/-- A Sync of slave `b` is complete (R320): `t1` and `corr` in 1/256 ns, `rx` its receive stamp and `rxL` that of TBL, `cum` its
cumulative rate offset. -/
def ptpComplete (s : State) (n b : Nat) (t1 corr : Int) (rx rxL : Nat) (cum : Int) : State :=
  let o := 256 * toInt 40 (ofInt 40 (t1 + corr + slaveMld s n b + toInt 32 (s.get (asymReg n b)) - divNear (rx : Int) 256))
  let s1 := if (s.ptp n b).frozen then frozenOffset s n b o else slaveOffset s n b o
  if !supplies s1 n b then s1
  else ptpLoad { s1 with doms := tset DomSt.rst s1.doms n ⟨t1, corr, rxL, b, cum⟩ } n o

/-- Whether a PTP message that arrives on port `p` reaches domain `n` and may be used: PTP mode, a MAC and a pipeline that work (R432,
R433), a frame that the guardian (R249) and MACsec (R412) let pass, and the AUTHENTICATION check (R322). -/
def ptpHears (s : State) (n p var : Nat) (m : PtpMsg) : Bool × State :=
  if s.fatal || !ptpMode s n || !s.flag (PRT_STAT_LINK p) || (s.port p).memHalt || s.reacting (grpK (p / 8)) 5 then (false, s)
  else match lineTakes s p ptpHead var m.sec with
  | (false, s1) => (false, s1)
  | (true, s1) => ptpAuth s1 n p m.tlv

/-- SYNC_MESSAGE (R312, R319, R320, R322): a Sync on a slave port, at its SFD. -/
def execSyncMessage (n : TbIx) (p : Port) (m : PtpMsg) (stamped : Bool) (varRx : Nat) (s : State) : Out :=
  match ptpHears s n.val p.val varRx m with
  | (false, s1) => .next s1
  | (true, s1) =>
    match slaveOf s n.val p.val with
    | none => .next s1
    | some b =>
      if !stamped || freshLink s p.val then .next (s1.inc (PTP_CNT_NO_STAMP n.val))
      else
        let rx := rxStamp s p.val varRx n.val
        let rxL := rxStamp s p.val varRx 8
        let s0 := gainsTake s1 n.val
        let s2 := (s0.setPtp n.val b { s0.ptp n.val b with liveAt := s.now, sync := none }).set (liveBit n.val b) 1
        if m.oneStep then .next (ptpComplete s2 n.val b m.origin m.corr rx rxL m.cum)
        else .next (s2.setPtp n.val b { s2.ptp n.val b with sync := some (m.corr, rx, rxL) })

/-- FOLLOW_UP (R320): completes the awaited Sync of its port. -/
def execFollowUp (n : TbIx) (p : Port) (x : PtpRx) (s : State) : Out :=
  let m := x.msg
  match ptpHears s n.val p.val x.varRx m with
  | (false, s1) => .next s1
  | (true, s1) =>
    match slaveOf s n.val p.val with
    | none => .next s1
    | some b =>
      match (s1.ptp n.val b).sync with
      | none => .next s1
      | some (corr, rx, rxL) =>
        let s2 := s1.setPtp n.val b { s1.ptp n.val b with sync := none }
        .next (ptpComplete s2 n.val b m.origin (corr + m.corr) rx rxL m.cum)

/-- Whether a port may send a PTP message of a domain now (R415, R432, R448). -/
def ptpMaySend (s : State) (n p : Nat) : Bool :=
  ptpKeyed s n p && s.flag (PRT_STAT_LINK p) && !(s.port p).memHalt && !s.fatal

/-- SYNC_TRANSMIT (R321): on one master port, once a sync interval, counted in base clocks, has passed since the last. -/
def execSyncTransmit (n : TbIx) (p : Port) (varTx : Nat) (s : State) : Out :=
  let n := n.val
  let p := p.val
  let early := match tget none s.syncNext (n * 128 + p) with | some t => decide (s.now < t) | none => false
  if early || !ptpMode s n || !masterPort s n p || !ptpMaySend s n p ||
      (!s.flag (PTP_STAT_A_LIVE n) && !s.flag (PTP_STAT_B_LIVE n)) then .next s
  else
    let s := { s with syncNext := tset none s.syncNext (n * 128 + p) (some (s.now + syncInterval s n)) }
    let d := tget DomSt.rst s.doms n
    .next (sendJob s p (.ptp n 0 (s.flag (PTP_CTL_ONESTEP n)) d.origin (d.corr + slaveMld s n d.slave) d.at_) s.now varTx)

/-- A port of a domain. -/
def domainPort (s : State) (n p : Nat) : Bool := masterPort s n p || (slaveOf s n p).isSome

/-- The Pdelay state of a port. -/
def State.pd (s : State) (p : Nat) : PdSt := tget PdSt.rst s.pds p
/-- Replace it. -/
def State.setPd (s : State) (p : Nat) (x : PdSt) : State := { s with pds := tset PdSt.rst s.pds p x }

/-- PDELAY_REQ (R319): once 2^LOGPD s have passed since the port's last request. -/
def execPdelayReq (n : TbIx) (p : Port) (varTx : Nat) (s : State) : Out :=
  let x := s.pd p.val
  if s.now < x.next || !ptpMode s n.val || !domainPort s n.val p.val || !ptpMaySend s n.val p.val then .next s
  else
    let next := s.now + intervalNs (toInt 4 (s.get (PTP_CTL_LOGPD n.val)))
    .next (sendJob (s.setPd p.val { x with next := next }) p.val (.ptp n.val 2 false 0 0 0) s.now varTx)

/-- PDELAY_REQ_RECEIVE (R319, R322): answered with Pdelay_Resp and Pdelay_Resp_Follow_Up. -/
def execPdelayReqReceive (n : TbIx) (p : Port) (x : PtpReq) (s : State) : Out :=
  if !domainPort s n.val p.val then .next s
  else match ptpHears s n.val p.val x.varRx x.msg with
  | (false, s1) => .next s1
  | (true, s1) =>
    if !ptpMaySend s1 n.val p.val then .next s1
    else
      let rx := rxStamp s1 p.val (sfdOn s1 p.val x.varRx) 8
      .next (sendJob s1 p.val (.ptp n.val 3 false (rx : Int) 0 0) s1.now x.varTx)

/-- A slave port of one domain takes a new meanLinkDelay of its port (R328, R336). -/
def takeMld (s : State) (n b : Nat) (old : Option Int) (mld : Int) : State :=
  let s1 := s.set (PTP_MLD_MLD n b) (ofInt 32 mld)
  match old with
  | some o => if (256 * (mld - o)).natAbs > (pathJump s n).natAbs then
      holdIfNone (freezeSlave s1 n b true (256 * (mld - o)) (s1.ptp n b).last) n else s1
  | none => s1

/-- The results of an exchange (R319): neighborRateRatio less 1 in 2^-41, from the last exchange, and meanLinkDelay in 1/256 ns, by the
formulas of IEEE 802.1AS-2020 (PRESUMED, log entry 61). `t1` and `t4` are the port's own stamps on TBL, `t2` and `t3` the responder's in
1/256 ns. -/
def pdResult (s : State) (x : PdSt) (t1 t4 : Nat) (t2 t3 : Int) : Int × Int :=
  let at3 := ofInt 48 (256 * t3)
  let ratio := match x.last with
    | some (a, b, c) => divNear (toInt 48 (at3 + 2 ^ 48 - a + (b + 2 ^ 48 - t4)) * 2 ^ 41) (65536 * max 1 (s.now - c))
    | none => 0
  let own := diff48 t4 t1 * (2 ^ 41 + ratio)
  (ratio, divNear (own - 256 * toInt 40 (ofInt 40 (t3 - t2)) * 2 ^ 41) (2 ^ 50))

/-- PDELAY_RESP (R319, R328): the response, with its Follow_Up's `t3`, ends the exchange of a port, whose meanLinkDelay and
neighborRateRatio every domain shares. The interrupt-time stamps of a port that has none yet are not used (R285). -/
def execPdelayResp (n : TbIx) (p : Port) (r : RespTimes) (m : PtpRx) (s : State) : Out :=
  let p := p.val
  if !domainPort s n.val p then .next s
  else match ptpHears s n.val p m.varRx m.msg with
  | (false, s1) => .next s1
  | (true, s1) =>
    let x := s1.pd p
    match x.sent with
    | none => .next s1
    | some t1 =>
      if freshLink s1 p then .next (s1.setPd p { x with sent := none })
      else
        let t4 := rxStamp s1 p m.varRx 8
        let (ratio, mld) := pdResult s1 x t1 t4 r.t2 r.t3
        let old := tget none s1.mlds p
        let s2 := s1.setPd p { x with sent := none, last := some (ofInt 48 (256 * r.t3), t4, s1.now), ratio := ratio }
        let s3 := { s2 with mlds := tset none s2.mlds p (some mld) }
        .next ((List.range 8).foldl (fun t d =>
          if !ptpMode t d then t
          else [0, 1].foldl (fun u b => if slavePort u d b = some p then takeMld u d b old mld else u) t) s3)

/-- No slave port of a domain is live any more (R312, R320): holdover, and an event record. -/
def noneLive (s : State) (n : Nat) : State := devRec ((holdover s n).set (SYN_STAT_SYNC n) 0) 3 1 1 n

/-- SLAVE_PORT_TIMEOUT (R312, R320): no usable Sync for three sync intervals. -/
def execSlavePortTimeout (n : TbIx) (b : Fin 2) (s : State) : Out :=
  let n := n.val
  let b := b.val
  let y := s.ptp n b
  if s.fatal || !s.flag (liveBit n b) || decide (s.now - y.liveAt < 3 * syncInterval s n) then .next s
  else
    let s1 := (s.set (liveBit n b) 0).setPtp n b { y with sync := none, delta := none, last := if y.frozen then y.last else none }
    if s1.flag (liveBit n (1 - b)) then .next (holdIfNone s1 n)
    else .next (noneLive s1 n)

/-- PTP_ACC (R328, R336): acts only while an estimate is offered. -/
def execPtpAcc (n : TbIx) (b : Fin 2) (s : State) : Out :=
  if s.fatal || !(s.ptp n.val b.val).offered then .next s
  else .next (slaveRejoin (s.set (asymReg n.val b.val) (s.get (asymReg n.val b.val) + s.get (PTP_EST_EST n.val b.val))) n.val b.val)

end Sys2Proof.Machine
end

