-- ==== Sys2Proof/Machine/Launch.lean ====
section
/-! DEFINITION. How a queued frame starts (R82, R113, R222, R322, R412), and the timed launches that fall due (R87, R88, R114). -/

namespace Sys2Proof.Machine

/-- Domains whose port `p` is, and that a PTP message of domain number `d` belongs to (R319). -/
def ptpDomain (s : State) (p d : Nat) : Option Nat :=
  (List.range 8).find? (fun n => ptpMode s n && domainPort s n p && s.get (PTP_CTL_DOMAIN n) == d)

/-- PTP message types the hardware handles (R319): Sync, Pdelay_Req, Pdelay_Resp, Follow_Up, Pdelay_Resp_Follow_Up. -/
def ptpHardware (ty : Nat) : Bool := ty == 0 || ty == 2 || ty == 3 || ty == 8 || ty == 10

/-- The domain that takes a received PTP message, and whether the hardware handles its type. -/
def ptpOf (s : State) (p : Nat) (b : Bytes) : Option (Nat × Bool) :=
  if etherType b ≠ 0x88F7 then none
  else (ptpDomain s p (beField b 18 1)).map (fun n => (n, ptpHardware (beField b 14 1 % 16)))

/-- Whether the MAC of a port takes frames: link up, buffers in use (R432), not in the fatal state. -/
def macUp (s : State) (p : Nat) : Bool := s.flag (PRT_STAT_LINK p) && !(s.port p).memHalt && !s.fatal

/-- The transmit stamp of a host frame whose SFD leaves now (R48, R285, R349): results written, a place of the port's stamp store
taken. -/
def hostSent (s : State) (p : Nat) (f : QFrame) (var : Nat) (fresh : Bool) : State :=
  match f.host with
  | none => s
  | some (ring, _) =>
    if !f.tsReq || fresh then hostDone s f 0 0 0 false []
    else if (s.port p).stamps ≥ 64 then
      let r := s.ring 0 ring
      hostDone (s.setRing 0 ring { r with cntA := min (r.cntA + 1) (2 ^ 32 - 1) }) f 0 0 0 false []
    else
      let t := txStamp s p var (s.ring 0 ring).tb 0
      let s1 := s.setPort p { s.port p with stamps := (s.port p).stamps + 1 }
      hostDone s1 f 0 (t / 65536) (t % 65536) true [(100, p)]

/-- A host's PTP message with its AUTHENTICATION TLV (R322, R415): 26 bytes behind the message, whose length grows by as much (IEEE 1588,
log entry 19); none where the port has no key. Other frames leave as they are. -/
def ptpTlv (s : State) (p : Nat) (f : QFrame) (b : Bytes) : Option Bytes :=
  match f.host, ptpOf s p b with
  | some _, some (n, _) =>
    if !s.flag (PTP_CTL_AUTH_EN n) then some b
    else (s.key p).cak.map (fun cak =>
      let m := beField b 16 2
      let c := (spliceAt b 16 (beBytes 2 (m + 26))).take (14 + m)
      padFrame (c ++ authTlv cak (s.key p).ckn (s.get (PTP_CTL_DOMAIN n)) (s.get (PTP_CTL_SPP n)) (c.drop 14)))
  | _, _ => some b

/-- The header of the cells of a frame that leaves over Ulicon port `p` (R499). -/
def cellHead (s : State) (p : Nat) (express : Bool) (f : QFrame) : CellHead :=
  ⟨Fin.ofNat 4 (cnMe s (s.get (PRT_ULC_DEPTH p))), Fin.ofNat 128 f.inPort, f.handle.map (BitVec.ofNat 16), express, f.recovered⟩

/-- A frame leaves (R497, R499): as it is, or on a Ulicon port in cells. -/
def sendOut (s : State) (p : Nat) (express : Bool) (f : QFrame) (b : Bytes) : State :=
  if isUlc s p then
    sendCells s p (ulcLinks s p) (cellHead s p express f) f.tc (if f.due then some (f.t, f.cue, f.skip) else none) f.bytes
  else s.emit (.frame p (protect (secTxOf s p b) b))

/-- Whether a port may send from its queues now; a Ulicon group sends where a link, or a relay, carries its cells. -/
def maySend (s : State) (p : Nat) : Bool :=
  if isUlc s p then !(ulcLinks s p).isEmpty && !s.fatal else macUp s p

/-- Start a frame of queue `tc` of port `p` on a free line (R82, R113, R222, R412). The queue's charge ends here, and its cells are freed
when it has left (DESIGN CHOICE, log entry 97). -/
def startFrame (s : State) (p tc : Nat) (f : QFrame) (var : Nat) : State :=
  let s0 := dropFrom s p tc (fun q => q.id == f.id && q.keep == f.keep)
  let b? := if isUlc s p then some f.bytes else ptpTlv s0 p f (egressBytes s p f)
  let b := b?.getD []
  let n := b.length + 4
  if b?.isNone then hostLost s0 f
  else if n > 9216 then hostLost (s0.inc (PRT_RED_CNT_OVERSIZE p)) f
  else if !secTxOk s p b then hostLost (s0.inc (PRT_SEC_NOSA_NOSA p)) f
  else
    let express := tc == 8 || expressTc s p tc
    let w := n + (if uncontrolled b then 0 else secExtra s p)
    let s2 := secTxCount (countTx (occupy s0 p (txOf f express w false)) p w) p b
    sendOut (noteTx (hostSent s2 p f (sfdOn s p var) (freshLink s p)) p var) p express f b

/-- Whether a timed entry's launch falls due with the reference-plane stamp `plane` (R87, R88, R230). -/
def fallsDue (plane : Nat) (f : QFrame) : Bool := !f.cue && !f.due && !f.arriving && !f.held && isPast f.t plane

/-- Launches whose T has come fall due (R87, R88): with the link down they are skipped; a due entry then waits for its turn, and stays
due where the link goes down afterwards (DESIGN CHOICE, log entry 98). -/
def markDue (s : State) (p : Nat) (falls : QFrame → Bool) : State :=
  if !s.flag (PRT_STAT_LINK p) then skipEntries s p falls
  else s.setQueue p 8 ((s.queue p 8).map (fun f => if falls f then { f with due := true } else f))

/-- The stamp at the reference plane of a frame whose SFD would leave now, in ns. -/
def planeNs (s : State) (p var : Nat) : Nat := txStamp s p (sfdOn s p var) s.tickTb 0 / 65536

/-- Launches that fall due in this clock (R87, R114): the first starts at once when nothing stands before it, a carafe copy due in this
clock included; each other one waits and counts, and what is in flight yields. -/
def launchDue (s : State) (p var : Nat) : State :=
  let falls := fallsDue (planeNs s p var)
  let n := ((s.queue p 8).filter falls).length
  if n = 0 then s
  else
    let now := trqClear s p && !copyDue s p
    let s1 := markDue s p falls
    if !s.flag (PRT_STAT_LINK p) then s1
    else
      let s2 := addCnt s1 (PRT_CNT_TRQ_SLIP p) (n - now.toNat)
      match trqHead s2 p, inFlight s2 p with
      | some (tc, f), none => if now then startFrame s2 p tc f var else s2
      | some _, some t => giveWay s2 p t
      | none, _ => s2

end Sys2Proof.Machine
end

