-- ==== Sys2Proof/Machine/Streams.lean ====
section
/-! DEFINITION. Ingress VLAN (R77, R107), stream identification (R89 to R91), and per-stream filters, gates and meters (R92
to R95). -/

namespace Sys2Proof.Machine

/-! ### Stage 2: the ingress VLAN -/

/-- The VLAN and priority a frame takes on entering. -/
structure VlanIn where
  vid : Nat
  pcp : Nat
  dei : Bool
  tagged : Bool
  deriving DecidableEq, Repr

/-- Classification by the outer tag (R77): a priority-tagged frame takes PVID and the tag's PCP. -/
def classify (s : State) (p : Nat) (x : Parsed) : VlanIn :=
  match x.tci with
  | none => ⟨s.get (PRT_VLAN_PVID p), s.get (PRT_VLAN_PCP p), false, false⟩
  | some t => ⟨if t % 4096 = 0 then s.get (PRT_VLAN_PVID p) else t % 4096, t / 8192 % 8, t / 4096 % 2 == 1, true⟩

/-- Whether a VLAN is in use (R77). -/
def vlanValid (s : State) (vid : Nat) : Bool := bits (s.strW 5 vid 8) 31 31 == 1

/-- Whether the port accepts the frame (R77, R107). -/
def vlanAccepts (s : State) (p : Nat) (x : Parsed) (v : VlanIn) : Bool :=
  let plain := (x.tci.getD 0) % 4096 == 0
  let acc := s.get (PRT_VLAN_ACCEPT p)
  !(acc == 1 && plain) && !(acc == 2 && !plain) && vlanValid s v.vid &&
  (!s.flag (PRT_VLAN_IN_FILT p) || portBit s 5 v.vid 0 p)

/-- Traffic class of a priority: the default table of IEEE 802.1Q for eight classes (log entry 21). -/
def classOf (pcp : Nat) : Nat := if pcp = 0 then 1 else if pcp = 1 then 0 else pcp

/-! ### Stage 3: stream identification -/

/-- A field comparison that an entry may leave out. -/
def optEq (en : Nat) (a b : Nat) : Bool := en == 0 || a == b

/-- The address of an entry at word `w`: one word for IPv4, four for IPv6, most significant first. -/
def sidAddr (s : State) (i w : Nat) (v6 : Bool) : Nat :=
  if v6 then (List.range 4).foldl (fun a k => a * 2 ^ 32 + s.strW 0 i (w + k)) 0 else s.strW 0 i w

/-- Whether the TAGGED field of an entry admits the frame (R90). -/
def sidTagged (w0 : Nat) (x : Parsed) : Bool :=
  let vid := (x.tci.getD 0) % 4096
  match bits w0 27 26 with
  | 1 => vid != 0 && vid == w0 % 4096
  | 2 => vid == 0
  | _ => true

/-- Whether a TYPE 2 or 3 entry matches an IP frame. -/
def sidIp (s : State) (i : Nat) (x : Parsed) (v6 : Bool) : Bool :=
  let e := s.strW 0 i 3
  let mac := s.strW 0 i 1 * 65536 + s.strW 0 i 2 / 65536
  let en : Nat → Nat := fun b => e / 2 ^ b % 2
  x.ip == (if v6 then 6 else 4) && optEq (en 31) x.da mac && optEq (en 30) x.src (sidAddr s i 5 v6) &&
  optEq (en 29) x.dst (sidAddr s i 9 v6) && optEq (en 28) x.dscp (bits e 23 18) && optEq (en 27) x.proto (bits e 15 8) &&
  (en 26 == 0 || x.ports.map (·.1) == some (s.strW 0 i 4 / 65536)) &&
  (en 25 == 0 || x.ports.map (·.2) == some (s.strW 0 i 4 % 65536))

/-- Whether a valid entry matches a frame (R89, R90). -/
def sidMatch (s : State) (x : Parsed) (i : Nat) : Bool :=
  let w0 := s.strW 0 i 0
  let mac := s.strW 0 i 1 * 65536 + s.strW 0 i 2 / 65536
  bits w0 31 31 == 1 && sidTagged w0 x &&
  (match bits w0 30 28 with
   | 0 => x.da == mac
   | 1 => x.sa == mac
   | 2 => sidIp s i x false
   | 3 => sidIp s i x true
   | _ => false)

/-- Precedence of an entry (R89): lower wins. -/
def sidPrec (s : State) (i : Nat) : Nat :=
  match bits (s.strW 0 i 0) 30 28 with
  | 0 => 3
  | 1 => 2
  | _ => 1

/-- The entry that identifies a frame: highest precedence, then lowest index. -/
def sidOf (s : State) (x : Parsed) : Option Nat :=
  ((entriesOf s.str 0 0).filter (sidMatch s x)).foldl (fun b i =>
    match b with
    | none => some i
    | some j => if sidPrec s i < sidPrec s j then some i else some j) none

/-- What identification gives a frame (R89 to R91): handle, class, and the timed-release fields. -/
structure Stream where
  handle : Option Nat
  tc : Nat
  trq : Option (Nat × Nat × Nat × Nat)
  deriving DecidableEq, Repr

/-- Stage 3: HITS of the matching entry increments. -/
def identify (s : State) (x : Parsed) (tc : Nat) : Stream × State :=
  match sidOf s x with
  | none => (⟨none, tc, none⟩, s)
  | some i =>
    let w := s.strW 0 i 13
    (⟨some (w / 65536), if bits w 15 15 = 1 then bits w 14 12 else tc,
      if bits w 11 11 = 1 then some (bits w 10 10, bits w 9 8, bits w 1 0, s.strW 0 i 14) else none⟩,
     s.setStr 0 i 15 (s.strW 0 i 15 + 1))

/-! ### Stage 4: filters, gates, meters -/

/-- The first filter that matches a handle and priority (R92). -/
def filterOf (s : State) (handle pcp : Nat) : Option Nat :=
  (entriesOf s.str 1 0).find? (fun i =>
    let w := s.strW 1 i 0
    bits w 31 31 == 1 && (bits w 30 30 == 1 || w % 65536 == handle) && (bits w 29 29 == 1 || bits w 26 24 == pcp))

/-- Count in counter `k` of a filter (R95): MATCH, PASS, GATE_DROP, SDU_DROP, RED_DROP. -/
def filterCount (s : State) (i k : Nat) : State :=
  let v := s.strW 4 i (2 * k) + 2 ^ 32 * s.strW 4 i (2 * k + 1) + 1
  (s.setStr 4 i (2 * k) v).setStr 4 i (2 * k + 1) (v / 2 ^ 32)

/-- Full buckets of a meter in 10^-6 bit (R94). -/
def meterFull (s : State) (m : Nat) : Nat × Nat :=
  (s.strW 2 m 2 / 256 * 8000000, s.strW 2 m 3 / 256 * 8000000)

/-- Tokens of a meter now (MEF 10.3): the committed overflow goes to the excess bucket with CF = 1. -/
def meterTokens (s : State) (m : Nat) : Nat × Nat :=
  let (cbs, ebs) := meterFull s m
  match tget none s.meters m with
  | none => (0, 0)
  | some x =>
    let dt := s.now - x.upd
    let c := x.com + s.strW 2 m 0 * dt
    let surplus := if bits (s.strW 2 m 2) 7 7 = 1 then c - cbs else 0
    (min c cbs, min (x.exc + s.strW 2 m 1 * dt + surplus) ebs)

/-- The colour of a frame of `len` bytes: 0 green, 1 yellow, 2 red (R92 step 3, R94). -/
def meterFrame (s : State) (m len : Nat) (dei : Bool) : Nat × State :=
  let w2 := s.strW 2 m 2
  let (c, e) := meterTokens s m
  let need := len * 8000000
  let upd : Nat → Nat → State := fun a b => { s with meters := tset none s.meters m (some ⟨a, b, s.now⟩) }
  if bits w2 3 3 = 1 then (2, upd c e)
  else if need ≤ c ∧ ¬ (bits w2 6 6 = 1 ∧ dei) then (0, upd (c - need) e)
  else if need ≤ e then (1, upd c (e - need))
  else if bits w2 4 4 = 1 then (2, (upd c e).setStr 2 m 2 (putBits w2 3 3 1))
  else (2, upd c e)

/-- A frame that a filter drops: counter `k` of the filter and DROP_FILTER of the port. -/
def filterDrop (s : State) (p i k : Nat) : Option (Nat × Bool) × State :=
  (none, addCnt (filterCount s i k) (PRT_CNT_DROP_FILTER p) 1)

/-- Step 3 and 4 of R92 and the pass: class and DEI the frame leaves with. -/
def filterMeter (s : State) (p i ipv len tc : Nat) (dei : Bool) : Option (Nat × Bool) × State :=
  let m := s.strW 1 i 2 / 65536
  let tc' := if ipv < 8 then ipv else tc
  if m = 0xFFFF then (some (tc', dei), filterCount s i 1)
  else
    let (col, s1) := meterFrame s m len dei
    if col = 2 ∨ (col = 1 ∧ bits (s.strW 2 m 2) 5 5 = 1) then filterDrop s1 p i 4
    else (some (tc', dei || col == 1), filterCount s1 i 1)

/-- Stage 4 (R92): none for a frame that is dropped, otherwise its class and DEI. -/
def filterStage (s : State) (p : Nat) (handle : Option Nat) (pcp len tc : Nat) (dei : Bool) : Option (Nat × Bool) × State :=
  match handle with
  | none => (some (tc, dei), s)
  | some h =>
    match filterOf s h pcp with
    | none => if s.flag FWD_CFG_NOMATCH_DROP then (none, addCnt s (PRT_CNT_DROP_FILTER p) 1) else (some (tc, dei), s)
    | some i =>
      let s1 := filterCount s i 0
      let w1 := s.strW 1 i 1
      let w2 := s.strW 1 i 2
      let gi := bits w1 27 16
      let g := s.strW 3 gi 0
      if w2 % 2 = 1 then filterDrop s1 p i 3
      else if gi ≠ 0xFFF ∧ (bits g 31 31 = 0 ∨ bits g 27 27 = 1) then
        filterDrop (if bits g 28 28 = 1 then s1.setStr 3 gi 0 (putBits g 27 27 1) else s1) p i 2
      else if w1 % 65536 ≠ 0 ∧ w1 % 65536 < len then
        filterDrop (if bits w2 1 1 = 1 then s1.setStr 1 i 2 (putBits w2 0 0 1) else s1) p i 3
      else filterMeter s1 p i (if gi = 0xFFF then 15 else bits g 19 16) len tc dei

end Sys2Proof.Machine
end

