-- ==== Sys2Proof/Machine/Pipeline.lean ====
section
/-! DEFINITION. The forwarding pipeline (R75): bridging decision (R77, R234, R351), admission and cut-through (R79, R80,
R85, R88, R99), what a frame's end does (R77, R100, R230, R313, R351), learning. -/

namespace Sys2Proof.Machine

/-! ### Stage 6: bridging -/

/-- Ports of a 128-bit set that a predicate names. -/
def portsWhere (f : Nat → Bool) : List Nat := (List.range 128).filter f

/-- A group counts as its PORT_A (R234): a set of ports with the groups' ports put right. -/
def groupPorts (s : State) (ps : List Nat) : List Nat :=
  portsWhere (fun p => match groupOf s p with
    | none => ps.contains p
    | some r => ps.contains (portA s r))

/-- The port as which forwarding sees a frame from `p` (R234). -/
def asPort (s : State) (p : Nat) (ll : Bool) : Nat :=
  if isUlc s p then ulcLow s p else if ll then p else match groupOf s p with | none => p | some r => portA s r

/-- Egress ports and delivery to the host (R77, R102, R234, R351, R499). Unknown group addresses flood, as IEEE 802.1Q. -/
def decide6 (s : State) (inPort vid da : Nat) (ll : Bool) : List Nat × Bool :=
  let member : Nat → Bool := portBit s 5 vid 0
  let (set, host) := match fdbFind s da (vlanFid s vid) with
    | none => (portsWhere (fun _ => true), false)
    | some i =>
      let w := s.strW 6 i 2
      let mc := bits w 29 29 == 1
      let host := bits w 28 28 == 1
      if mc then (portsWhere (portBit s 7 (w % 4096) 0), host)
      else if host then ([], true)
      else ([w % 128], false)
  let out := ulcFilter s inPort (set.filter (fun p => member p && p != inPort))
  if ll then (out, host)
  else ((groupPorts s out).filter (fun p => asPort s p false != inPort), host)

/-! ### Stage 7: admission (R79, R80, R88, R99) -/

/-- Speed of a port (R99). -/
def fastIn (s : State) (p : Nat) : Bool := decide (100 ≤ portSpeed s p)

/-- Whether a frame is cut through from port `i` to port `p` (R99, R237). -/
def cutsThrough (s : State) (i p tc : Nat) : Bool :=
  expressTc s p tc && s.get (PRT_TC_CFG_CT_EN p) / 2 ^ tc % 2 == 1 && fastIn s i &&
  decide (portSpeed s p ≤ portSpeed s i) && (s.queue p tc).isEmpty && s.get (PRT_GATE_OPEN p) / 2 ^ tc % 2 == 1 &&
  (match inFlight s p with | some t => !t.express | none => true) && curPs s (portK p) == 0 &&
  s.flag (PRT_STAT_LINK p) && !(s.port p).memHalt &&
  (match groupOf s i with | some r => isHsr s r | none => true)

/-- Count a drop at admission (R80). -/
def dropBuf (s : State) (p : Nat) : State := addCnt s (PRT_CNT_DROP_BUF p) 1

/-- Begin to send a frame cut through on a free line (R65, R99, R113). -/
def startCut (s : State) (p : Nat) (f : QFrame) (var : Nat) : State :=
  let b := egressBytes s p f
  let n := b.length + 4
  if n > 9216 then s.inc (PRT_RED_CNT_OVERSIZE p)
  else if !secTxOk s p b then s.inc (PRT_SEC_NOSA_NOSA p)
  else
    let w := n + (if uncontrolled b then 0 else secExtra s p)
    (noteTx (secTxCount (countTx (occupy s p (txOf f true w false)) p w) p b) p var).emit (.frame p (protect (secTxOf s p b) b))

/-- Whether a port has something that goes before a cut-through frame of class `tc` (R82): a due timed release, or a higher express
class. -/
def goesBefore (s : State) (p tc : Nat) : Bool :=
  match expressHead s p with
  | some (q, _) => decide (tc < q)
  | none => false

/-- A frame cut through to a port starts where the line is free and nothing goes before it, a launch that falls due in this clock
included (R114); else it takes its place in the queue, from where it may start before its tail has come, and what is in flight yields
(R82, R96, R99). -/
def admitCut (s0 : State) (p : Nat) (f : QFrame) (var : Nat) : State :=
  let s := launchDue s0 p var
  match inFlight s p with
  | none => if goesBefore s p f.tc then s.setQueue p f.tc (s.queue p f.tc ++ [{ f with cutOk := true }]) else startCut s p f var
  | some t => giveWay (s.setQueue p f.tc (s.queue p f.tc ++ [{ f with cutOk := true }])) p t

/-- Whether the mesh link from the slice of port `i` to that of port `p` has stopped (R434). -/
def meshStops (s : State) (i p : Nat) : Bool := i / 32 != p / 32 && s.meshOff.testBit (4 * (p / 32) + i / 32)

/-- The admissions of this clock (R114). -/
def claimsNow (s : State) : List (Nat × Nat × Nat × Nat) := if s.claims.1 = s.now then s.claims.2 else []

/-- Admission of `n` cells for a frame from port group `g`, when two pipelines claim the last cells of a slice in one clock (R114): where
they are not admitted, frames of this clock from higher-numbered groups give theirs up, latest first. -/
def claimCells (s : State) (g p q n : Nat) : List (Nat × Nat × Nat × Nat) → Bool × State
  | [] => (admits s p q n, s)
  | (g', p', q', id) :: r =>
    if admits s p q n then (true, s)
    else if g < g' ∧ p' / 32 = p / 32 ∧ (s.queue p' q').any (fun f => f.id == id) then
      (match claimCells (dropFrom (dropBuf s p') p' q' (fun f => f.id == id)) g p q n r with
       | (true, t) => (true, t)
       | (false, _) => (false, s))
    else claimCells s g p q n r

/-- Note an admission of this clock. -/
def claim (s : State) (g p q id : Nat) : State := { s with claims := (s.now, (g, p, q, id) :: claimsNow s) }

/-- Admit a frame to one egress port: what becomes of it there is added to `o`. Admission is tested before the timed-release queue's
256 places (DESIGN CHOICE, log entry 95). -/
def admitOne (s : State) (o : RxOpen) (ct : Bool) (p : Nat) (seq : Option Nat) : RxOpen × State :=
  let s1 := demand s (portK p)
  let f := { o.fr with seq := seq, arriving := true }
  let g := o.port / 8
  if s.get (PRT_GRD_STAT_STATE p) = 3 ∨ (isUlc s p ∧ !ulcPresent s p) ∨ meshStops s o.port p then (o, dropBuf s1 p)
  else
    let timed := o.trq.isSome && !isUlc s p
    let q := if timed then 8 else f.tc
    match claimCells s1 g p q (cellsOf f.len) (claimsNow s1) with
    | (false, s2) => (o, dropBuf s2 p)
    | (true, s2) =>
      if timed then
        (if (s.queue p 8).length ≥ 256 then (o, addCnt s2 (PRT_CNT_TRQ_FULL p) 1)
         else ({ o with places := o.places ++ [(p, 8)] }, claim (s2.setQueue p 8 (s2.queue p 8 ++ [{ f with cue := true }])) g p 8 f.id))
      else if ct && !isUlc s p && cutsThrough s o.port p f.tc then ({ o with cts := o.cts ++ [p] }, admitCut s2 p f (tget 0 o.varTx p))
      else ({ o with places := o.places ++ [(p, q)] }, claim (s2.setQueue p q (s2.queue p q ++ [f])) g p q f.id)

/-- Admit a frame to its egress ports with their numbers. -/
def admitAll (s : State) (o : RxOpen) (ct : Bool) (ps : List (Nat × Option Nat)) : RxOpen × State :=
  ps.foldl (fun (a : RxOpen × State) e => admitOne a.2 a.1 ct e.1 e.2) (o, s)

/-! ### Stages 1 to 7 -/

/-- Whether a tagged HSR frame has come back round the ring to its own node (R238 step 1). -/
def ringOwn (s : State) (r : Nat) (x : Parsed) : Bool := (nodeOf s r x.sa true).isSome

/-- The ring port on which a tagged HSR frame is sent on (R238 step 2), other than `p`; `inst` is the instance that recovers it. -/
def ringForward (s : State) (p r : Nat) (x : Parsed) (inst : Option Nat) (seq : Nat) : Option Nat × State :=
  let other := if portA s r = p then portB s r else portA s r
  let known := x.da / 2 ^ 40 % 2 == 0 && (nodeOf s r x.da true).isSome
  match inst with
  | none => (if known then none else some other, s)
  | some i =>
    let k := i * 128 + other
    let h := tget [] s.fwdHist k
    if known || h.contains seq then (none, s)
    else (some other, { s with fwdHist := tset [] s.fwdHist k ((seq :: h).take 32) })

/-- Stage 6 and 7 of a frame that stage 5 passed (or holds: `held`). -/
def forwardFrame (s : State) (o : RxOpen) (recv : Option Nat) (x : Parsed) (ll held : Bool) : RxOpen × State :=
  let (ps, host) := decide6 s o.fr.inPort o.fr.vid x.da ll
  let o1 := { o with
    toHost := host
    learn := bits (s.strW 5 o.fr.vid 8) 30 30 == 1 && x.sa / 2 ^ 40 % 2 == 0 }
  if held then
    let (o2, s1) := admitAll s o1 false (ps.map (fun p => (p, recv)))
    (o2, mapFrame s1 o.fr.id (fun q => { q with held := !q.keep }))
  else
    let (ns, s1) := numbersFor s o recv x.sa ps ll
    admitAll s1 o1 true ns

/-- The instances that recover a frame (R224, R229, R236, R237): individual recovery and the instance of its binding; for a tagged frame
on a group port without such an instance the remote entry's. Untagged and link-local frames on a group port pass without recovery. -/
def recoverers (s : State) (p : Nat) (handle : Option Nat) (seq : Option Nat) (sa : Nat) (ll : Bool) : List Nat × State :=
  let own := match handle with | some h => bindOwn s h p | none => []
  let inst := match handle with | some h => bindInst s h | none => []
  match groupOf s p, seq with
  | none, _ => (own ++ inst, s)
  | some r, some _ =>
    if ll then ([], s)
    else if !inst.isEmpty then (own ++ inst, s)
    else
      let (i, s1) := remoteInst s r sa
      (own ++ i.toList, s1)
  | some _, none => ([], s)

/-- The open frame of port `q` that stays behind a copy of its number from port `p` (R248): both reached instance `i` in this clock, the
other comes from the lower-numbered port group, and nothing of this one has left. -/
def staysBehind (s : State) (i q p : Nat) (seq : Option Nat) : Option (Nat × RxOpen) :=
  s.rxOpen.findSome? (fun e => e.2.bind (fun o =>
    if o.port = q ∧ p / 8 < q / 8 ∧ o.came = s.now ∧ o.marks.contains (i, seq) ∧ o.insts.getLast? = some i ∧ !started s o.fr.id
    then some (e.1, o) else none))

/-- The frame under key `k`, which passed instance `i`, is held for the copy from port `p` that is judged before it. -/
def yieldTo (s : State) (i p : Nat) (seq : Option Nat) (k : Nat) (o : RxOpen) : State :=
  let r := s.rec_ i
  let s1 := s.setRec i { r with pend := r.pend.map (fun e => if e = (o.port, seq) then (p, seq) else e) }
  let s2 := (mapFrame s1 o.fr.id (fun f => { f with held := !f.keep })).setOpen k
    (some { o with marks := o.marks.filter (fun m => m != (i, seq)) })
  hold s2 ⟨i, p, seq, o.port, o.fr.id, false, [], none⟩

/-- Stage 5, then stages 6 and 7 (R224, R230, R238, R248). -/
def stage5 (s : State) (o : RxOpen) (u : Untagged) (x : Parsed) (raw : Bytes) (ll : Bool) : RxOpen × State :=
  let p := o.port
  let hsr := (groupOf s p).filter (fun r => isHsr s r && !ll && u.seq.isSome)
  if hsr.any (fun r => ringOwn s r x) then (o.drop, s.inc (DUP_RG_CNT_OWN (hsr.getD 0)))
  else
    let (insts, s1) := recoverers s p o.handle u.seq x.sa ll
    let (ring, s2) := match hsr with
      | some r => ringForward s1 p r x insts.getLast? (u.seq.getD 0)
      | none => (none, s1)
    let (o1, s3) := match ring with
      | none => (o, s2)
      | some q => admitOne s2 { o with fr := { o.fr with bytes := raw, keep := true }, trq := none } true q none
    let o2 := { o with cts := o1.cts, insts := insts }
    match judgeAll s3 p u.seq [] insts with
    | (⟨ms, true, _⟩, s4) => forwardFrame s4 { o2 with marks := ms, fr := { o2.fr with recovered := !insts.isEmpty } } u.seq x ll false
    | (⟨ms, false, none⟩, s4) => ({ o2 with marks := ms }.drop, s4)
    | (⟨ms, false, some (i, q, j, rest)⟩, s4) =>
      let s5 := frCount s4 i 9 1
      match (if j || !rest.isEmpty then none else staysBehind s5 i q p u.seq) with
      | some (k, b) => forwardFrame (yieldTo s5 i p u.seq k b) { o2 with marks := ms ++ [(i, u.seq)] } u.seq x ll false
      | none =>
        let (o3, s6) := forwardFrame s5 { o2 with marks := ms } u.seq x ll true
        (o3, hold s6 ⟨i, q, u.seq, p, o.fr.id, j, rest, none⟩)

/-- The frame as it stands at the MAC, before any stage. -/
def openFrame (s : State) (p : Nat) (b : Bytes) (len : Nat) (stamps : List Nat) (stamped : Bool) (varTx : Tab Nat) : RxOpen :=
  ⟨⟨s.ids, b, len, p, none, none, 0, 0, 0, false, false, true, false, false, false, false, 0, none, false, false, false, false⟩,
   p, [], [], false, false, false, stamps, stamped, [], [], none, false, none, none, none, false, none, false, varTx, s.now⟩

/-- Stages 1 to 7 (R75) for a frame that port `p` hands to the pipeline. On a PRP port the RCT shows only at the frame's end, and stages
5 to 7 wait for it (R74, R237). A pipeline that stands after a contained PIPE_MEM drops every frame (R433). -/
def pipeline (s0 : State) (o : RxOpen) : RxOpen × State :=
  let s := { s0 with ids := s0.ids + 1 }
  let p := o.port
  let raw := o.fr.bytes
  if s.reacting (grpK (p / 8)) 5 then (o.drop, s)
  else
  let u := untagFrame s p raw
  let x := parse u.bytes
  let ll := linkLocal raw
  let v := classify s p x
  if !vlanAccepts s p x v then ({ o with vlanDrop := true }.drop, addCnt s (PRT_CNT_DROP_FILTER p) 1)
  else
    let (st, s1) := identify s x (classOf v.pcp)
    let fr := { o.fr with
      bytes := u.bytes, handle := st.handle, tc := st.tc, vid := v.vid, pcp := v.pcp, dei := v.dei, tagged := v.tagged,
      inPort := asPort s p ll }
    let o1 := { o with fr := fr, handle := st.handle, trq := st.trq }
    match filterStage s1 p st.handle v.pcp o.fr.len st.tc v.dei with
    | (none, s2) => ({ o1 with vlanDrop := true }.drop, s2)
    | (some (tc, dei), s2) =>
      let o2 := { o1 with fr := { fr with tc := tc, dei := dei } }
      match ptpOf s p raw with
      | some (n, true) => ({ o2 with ptp := some n }.drop, s2)
      | _ =>
        if u.badTag && !ll then (o2.drop, s2.inc (PRT_RED_CNT_BAD_TAG p))
        else if !ll && (groupOf s p).any (fun r => !isHsr s r) then ({ o2 with fr := { o2.fr with bytes := raw }, late := true }, s2)
        else stage5 s2 o2 u x raw ll

/-! ### The end of a frame -/

/-- Reference frames (R313): nodes whose handle and ingress port a good frame has. -/
def reference (s : State) (o : RxOpen) : State :=
  match o.handle with
  | none => s
  | some h =>
    if !o.stamped then s
    else (List.range 128).foldl (fun t k =>
      let n := k / 16
      let j := k % 16
      let r := o.stamps.getD n 0
      if !t.flag (NODE_CTL_VALID n j) || t.get (NODE_CTL_HANDLE n j) != h then t
      else if t.get (NODE_PORTS_PORT0 n j) = o.port then refMeasure t n j 0 r
      else if t.flag (NODE_CTL_P1_EN n j) && t.get (NODE_PORTS_PORT1 n j) == o.port then refMeasure t n j 1 r
      else t) s

/-- Stages 5 to 7 of a frame from a PRP port, at its good end (R237). -/
def lateStages (s : State) (o : RxOpen) : RxOpen × State :=
  if !o.late then (o, s)
  else
    let u := untagFrame s o.port o.fr.bytes
    stage5 s { o with fr := { o.fr with bytes := u.bytes }, late := false } u (parse u.bytes) o.fr.bytes false

/-- The good end of a frame of the pipeline, with a correct FCS and a verified ICV (R77, R230, R231, R313). -/
def finishGood (s : State) (o0 : RxOpen) (auth : Bool) : State :=
  let (o, s0) := lateStages s o0
  let s1 := o.insts.foldl (fun t i => goodOnPath t i o.port) (reference s0 o)
  let s2 := endCuts s1 o true
  let s3 := if isHeld s2 o.fr.id then endHeld s2 o true
    else if o.dropped then frameReady s2 o.fr.id none [] else passEnd s2 o auth
  endMarks resolve s3 o.port o.marks true

/-- The end of a frame of the pipeline (R77, R100, R230). -/
def finishFrame (s : State) (o : RxOpen) (good auth : Bool) : State :=
  if good then finishGood s o auth else finishBad s o

end Sys2Proof.Machine
end

