-- ==== Sys2Proof/Machine/ColdStart.lean ====
section
/-! DEFINITION. Cold start of an ensemble time base (R256 to R261): frames, relays, the state sequence, integration. Times of
the sequence count base clocks. -/

namespace Sys2Proof.Machine

/-- A port that carries the cold-start frames of time base `n` (R270). -/
def csPort (s : State) (n p : Nat) : Bool :=
  csOn s n && s.get (SYN_CS_PORTS_PORTS n (p / 32)) / 2 ^ (p % 32) % 2 == 1

/-- The time base whose cold-start frame arrives on port `p` (R256, R257). -/
def csOf (s : State) (p : Nat) (b : Bytes) : Option Nat :=
  if beField b 0 5 ≠ 0x035A420100 ∨ etherType b ≠ s.get CRF_CTL_ETYPE then none
  else (List.range 8).find? (fun n => csPort s n p && s.get (SYN_CS_CTL_DOMAIN n) == beField b 5 1)

/-- State of the sequence (R258). -/
def csState (s : State) (n : Nat) : Nat := s.get (SYN_CS_STAT_STATE n)
/-- SLOT in base clocks. -/
def csSlot (s : State) (n : Nat) : Nat := 1000 * s.get (SYN_CS_SLOT_SLOT n)
/-- PERIOD in base clocks. -/
def csPeriod (s : State) (n : Nat) : Nat := 1000 * s.get (SYN_CS_PER_PERIOD n)
/-- Enter a state with a timer. -/
def csEnter (s : State) (n st timer : Nat) : State :=
  (s.set (SYN_CS_STAT_STATE n) st).setCst n { s.cst n with timer := timer }
/-- Enter Coldstart: the first frame is due at once. -/
def csColdstart (s : State) (n : Nat) : State :=
  let t := csEnter s n 2 s.now
  t.setCst n { t.cst n with sent := 0 }
/-- Enter Backoff (R258). -/
def csBackoff (s : State) (n : Nat) : State :=
  csEnter s n 3 (((s.cst n).lastSend.getD s.now) + 1000 * (s.get (SYN_CS_SLOT_BACKOFF n) +
    s.get (SYN_CS_CTL_ID n) * s.get (SYN_CS_SLOT_SLOT n)))
/-- Enter Integrate with a first frame (R258). -/
def csIntegrate (s : State) (n : Nat) (f : CsFirst) : State :=
  let t := csEnter s n 4 (s.now + csPeriod s n + s.get (SYN_CS_PER_TOL n))
  t.setCst n { t.cst n with first := some f }

/-! ### Sending (R256, R257) -/

/-- Ports of a time base's cold start. -/
def csPorts (s : State) (n : Nat) : List Nat := portsWhere (csPort s n)

/-- Count a collision (R258, R271). -/
def csCollide (s : State) (n : Nat) : State := s.inc (SYN_CS_CNT_COLL n)

/-- COLD_START_SEND (R258): in Coldstart at once and every PERIOD, in Sync every PERIOD. A SYNC = 0 frame received less than SLOT before is
a collision. -/
def execColdStartSend (x : TbSend) (s : State) : Out :=
  let n := x.n.val
  let st := csState s n
  let c := s.cst n
  if s.fatal || !(st == 2 || st == 5) || decide (s.now < c.timer) then .next s
  else
    let s1 := (csPorts s n).foldl (fun t p => sendJob t p (.cold n c.seq (st == 5)) s.now (tget 0 x.varTx p)) s
    let s2 := s1.setCst n { c with
      timer := s.now + csPeriod s n, sent := c.sent + 1, lastSend := some s.now, seq := (c.seq + 1) % 65536 }
    if c.lastRx.all (fun x => decide (csSlot s n ≤ s.now - x.2)) then .next s2
    else .next (if st = 2 then csBackoff (csCollide s2 n) n else csCollide s2 n)

/-! ### Integration (R259, R260) -/

/-- What a time-out, a restart or an integration of this clock may have to give back (R273). -/
def csNote (s : State) (n : Nat) (restart : Bool) (t : State) : State :=
  let c := s.cst n
  t.setCst n { t.cst n with undo := some {
    clock := s.now, st := csState s n, timer := c.timer, first := c.first, restart := restart
    step := s.get (SYN_CS_STEP_STEP n), integ := s.get (SYN_CS_CNT_INTEG n), src := s.get (SYN_CS_STAT_FROM n) } }

/-- Integration at a consistent frame (R259, R271): the time base will read the sender's time, and Sync is entered. -/
def csJoin (s : State) (n sender : Nat) (d : Int) (t0 num : Nat) : State :=
  let s1 := stepDue s ⟨n, d, none, if n = s.tickTb ∧ s.tick.run then some (t0, num) else none, none, true⟩
  let s2 := ((s1.set (SYN_CS_STEP_STEP n) (ofInt 32 (d / 65536))).inc (SYN_CS_CNT_INTEG n)).set (SYN_CS_STAT_FROM n) sender
  let s3 := csEnter s2 n 5 (s.now + csPeriod s n)
  csNote s n false (s3.setCst n { s3.cst n with first := none })

/-- Whether a frame is consistent with the first one (R259). -/
def csConsistent (s : State) (n : Nat) (a f : CsFirst) : Bool :=
  a.sender == f.sender && a.sync == f.sync && f.seq == (a.seq + 1) % 65536 &&
  decide ((diff48 f.time a.time - diff48 f.rx a.rx).natAbs ≤ 65536 * s.get (SYN_CS_PER_TOL n))

/-- What the state was in this clock before a time-out, a restart or an integration of this clock (R273). -/
def csWas (s : State) (n : Nat) : Option CsUndo := (s.cst n).undo.filter (fun u => u.clock == s.now)

/-- The state as it was before. -/
def csBack (s : State) (n : Nat) (u : CsUndo) : State :=
  (s.set (SYN_CS_STAT_STATE n) u.st).setCst n { s.cst n with timer := u.timer, first := u.first, undo := none }

/-- A frame that meets a time-out of Listen or Integrate, or a restart, in one clock (R273): the frame wins where it ends Listen, or is
consistent with the first one in Integrate. -/
def csRevive (s : State) (n : Nat) (f : CsFirst) : State :=
  match csWas s n with
  | none => s
  | some u =>
    if u.st = 1 ∧ !u.restart ∧ csState s n = 2 then csBack s n u
    else if u.st = 4 ∧ csState s n = 1 ∧ u.first.any (fun a => csConsistent s n a f) then csBack s n u
    else s

/-- An integration of this clock that meets a second sender's frame is none (R273). -/
def csUnjoin (s : State) (n : Nat) : State :=
  match csWas s n with
  | some u =>
    if csState s n = 5 ∧ u.st = 4 then
      { ((s.set (SYN_CS_STEP_STEP n) u.step).set (SYN_CS_CNT_INTEG n) u.integ).set (SYN_CS_STAT_FROM n) u.src with
        steps := s.steps.filter (fun e => e.n != n || !e.join) }
    else s
  | none => s

/-- Whether a frame collides (R258): SYNC = 0, and another sender's SYNC = 0 frame or this node's own frame lies less than SLOT before
it. -/
def csNear (s : State) (n : Nat) (f : CsFirst) : Bool :=
  let c := s.cst n
  let near : Nat → Bool := fun t => decide (s.now - t < csSlot s n)
  f.sync == 0 && (c.lastRx.any (fun x => x.1 != f.sender && near x.2) || c.lastSend.any near)

/-- Whether a frame meets one of another sender in the same clock at a node that was in Integrate before that clock (R273). -/
def csMeets (s : State) (n : Nat) (f : CsFirst) : Bool :=
  let c := s.cst n
  c.lastAny.any (fun x => x.1 != f.sender && x.2 == s.now) &&
  ((csState s n == 4 && c.timer != s.now + csPeriod s n + s.get (SYN_CS_PER_TOL n)) ||
   (csState s n == 5 && (csWas s n).any (fun u => u.st == 4)))

/-- The SYNC = 0 frames less than SLOT old, with one more where it is of that kind. -/
def csHeard (s : State) (n : Nat) (f : CsFirst) : List (Nat × Nat) :=
  let old := (s.cst n).lastRx.filter (fun x => x.1 != f.sender && decide (s.now - x.2 < csSlot s n))
  if f.sync = 0 then (f.sender, s.now) :: old else (s.cst n).lastRx.filter (fun x => decide (s.now - x.2 < csSlot s n))

/-- What the state sequence does with a frame (R258). `rx` is its receive stamp on time base `n`, `t0` the start of the
sender's tick `num`. An integration in the clock of a restart completes, and Listen follows (R273). -/
def csUse (s : State) (n : Nat) (f : CsFirst) (rx t0 num : Nat) : State :=
  let restarts := (csWas s n).any (fun u => u.restart) && csState s n == 1
  let s0 := csRevive s n f
  let meets := csMeets s0 n f
  let coll := csNear s0 n f || meets
  let s1 := s0.setCst n { s0.cst n with lastAny := some (f.sender, s.now), lastRx := csHeard s0 n f }
  let s2 := if coll then csCollide s1 n else s1
  match csState s0 n with
  | 1 => if coll then toListen s2 n else csIntegrate s2 n f
  | 2 =>
    if coll then csBackoff s2 n
    else if f.sync = 1 ∨ f.sender < s.get (SYN_CS_CTL_ID n) then csIntegrate s2 n f else s2
  | 3 => csIntegrate s2 n f
  | 4 =>
    if coll then toListen s2 n
    else match (s0.cst n).first with
      | some a =>
        if csConsistent s n a f then
          (let s3 := csJoin s2 n f.sender (diff48 f.time rx) t0 num
           if restarts then toListen s3 n else s3)
        else s2
      | none => s2
  | _ => if meets then toListen (csUnjoin s2 n) n else s2

/-- Relay a frame, with its receive stamp on TBL, on every other port of the domain (R257). -/
def csRelay (s : State) (n p : Nat) (b : Bytes) (rx len : Nat) (varTx : Tab Nat) : State :=
  let sender := beField b 16 1
  let key := 2 * sender + beField b 14 1 % 2
  let seq := beField b 18 2
  let c := s.cst n
  let newer := match c.relayed.find? (fun e => e.1 == key) with
    | some (_, q) => decide (toInt 16 (seq + 65536 - q) > 0)
    | none => true
  if beField b 17 1 ≤ 1 || sender == s.get (SYN_CS_CTL_ID n) || !newer then s
  else
    let s1 := s.setCst n { c with relayed := (key, seq) :: c.relayed.filter (fun e => e.1 != key) }
    let b1 := spliceAt b 17 [b8 (beField b 17 1 - 1)]
    ((csPorts s n).filter (· != p)).foldl (fun t q =>
      sendJob t q (.relay n b1 rx (65536 * s.get (PRT_CS_DLY_DLY p))) (s.now + wireNs s p len) (tget 0 varTx q)) s1

/-- COLD_START_FRAME (R249, R252, R256 to R259): a cold-start frame, at its SFD; its end is good unless a guardian cuts it. -/
def execColdStartFrame (n : TbIx) (p : Port) (h : RxHdr) (varTx : TxSfds) (s : State) : Out :=
  let n := n.val
  let p := p.val
  if s.fatal || !canSend s p || csOf s p h.bytes != some n then .next s
  else match grdRx (demand s (portK p)) p (etherType h.bytes) (grdStamp s p h.varRx) (grdSfd s h.varRx) with
  | (false, _, s1) => .next s1
  | (true, cut, s1) =>
    let mark := secMark s p h.sec
    let wire := h.len + (if mark.isSome then 32 else 0)
    if grdTooLong s p wire (grdSfd s h.varRx) cut then .next (grdTrunc (noteRx s1 p h.varRx) p)
    else match secRx s1 p h.bytes h.sec with
    | (false, s2) => .next (countRx (noteRx s2 p h.varRx) p wire true)
    | (true, s2) =>
      let s3 := secRxEnd (countRx (noteRx s2 p h.varRx) p wire true) p mark true
      let b := h.bytes
      let rx := rxStamp s p (sfdOn s p h.varRx) n
      let time := (beField b 20 6 + beField b 26 6 + 65536 * s.get (PRT_CS_DLY_DLY p)) % 2 ^ 48
      let t0 := (beField b 20 6 + 2 ^ 48 - 65536 * beField b 36 4) % 2 ^ 48
      let tbl := rxStamp s p (sfdOn s p h.varRx) 8
      let s4 := csRelay s3 n p b tbl h.len varTx
      if csState s n = 0 ∨ beField b 16 1 = s.get (SYN_CS_CTL_ID n) then .next s4
      else .next (csUse s4 n ⟨beField b 16 1, beField b 14 1 % 2, beField b 18 2, time, tbl⟩ rx t0 (beField b 32 4))

/-! ### Timers -/

/-- LISTEN_TIMEOUT (R258). -/
def execListenTimeout (n : TbIx) (s : State) : Out :=
  if s.fatal || csState s n.val != 1 || decide (s.now < (s.cst n.val).timer) then .next s
  else .next (csNote s n.val false (csColdstart s n.val))

/-- BACKOFF_END (R258). -/
def execBackoffEnd (n : TbIx) (s : State) : Out :=
  if s.fatal || csState s n.val != 3 || decide (s.now < (s.cst n.val).timer) then .next s
  else .next (csColdstart s n.val)

/-- INTEGRATE_TIMEOUT (R258, R273). -/
def execIntegrateTimeout (n : TbIx) (s : State) : Out :=
  if s.fatal || csState s n.val != 4 || decide (s.now < (s.cst n.val).timer) then .next s
  else .next (csNote s n.val false (toListen s n.val))

/-- COLDSTART_SYNC (R258, R260, R271): SLOT after the second send without a collision; the node keeps its own tick. -/
def execColdstartSync (n : TbIx) (s : State) : Out :=
  let n := n.val
  let c := s.cst n
  if s.fatal || csState s n != 2 || decide (c.sent < 2) || decide (s.now < c.lastSend.getD s.now + csSlot s n) then .next s
  else .next ((s.set (SYN_CS_STAT_STATE n) 5).set (SYN_CS_STAT_FROM n) (s.get (SYN_CS_CTL_ID n)))

/-- SYN_CS_RESTART (R258, R268): back to Listen, from COMMIT on. -/
def execSynCsRestart (n : TbIx) (s : State) : Out :=
  if s.fatal || !csOn s n.val || csState s n.val == 0 then .next s
  else .next (csNote s n.val true (toListen s n.val))

end Sys2Proof.Machine
end

