-- ==== Sys2Proof/Machine/Forward.lean ====
section
/-! DEFINITION. The forwarding commands: a frame's header and end at a port (R75 to R77, R98), ageing (R78), transmit selection
(R82, R96, R97), timed launches (R87, R88), preemption verification (R96), the port counters' latch (R113). -/

namespace Sys2Proof.Machine

/-! ### Receiving -/

/-- MAC Control frames, discarded at the MAC (R74). -/
def macControl (b : Bytes) : Bool := etherType b == 0x8808

/-- Frames that go no further (R408, R411): key agreement, handshakes, SPDM requests to the device, and the frames of R408 with another
TYPE, wherever they are addressed. -/
def selfFrame (s : State) (b : Bytes) : Bool :=
  etherType b == 0x888E ||
  (etherType b == 0x88B6 &&
    (beField b 0 6 == 0x0180C2000003 || beField b 0 6 == ownMac s || beField b 14 1 == 0 || decide (3 < beField b 14 1)))

/-- Put an arriving frame in place. -/
def openAs (s : State) (p : Nat) (preempt : Bool) (o : RxOpen) : State := s.setOpen (rxK p preempt) (some o)

/-- What the stages make of a frame at a MAC whose guardian has let it pass (R74, R75, R408, R412). -/
def takeFrame (s : State) (p : Nat) (o : RxOpen) (h : RxHdr) : RxOpen × State :=
  if h.len < 64 || macControl h.bytes then (o.drop, s)
  else match secRx s p h.bytes h.sec with
  | (false, s1) => (o.drop, s1)
  | (true, s1) =>
    let o1 := { o with sec := secMark s1 p h.sec }
    if selfFrame s1 h.bytes then (o1.drop, s1) else pipeline s1 o1

/-- FRAME_RECEIVE (R74, R75, R98, R249, R412): a header arrives. Carafe copies and cold-start frames have commands of their
own. -/
def execFrameReceive (p : Port) (h : RxHdr) (s : State) : Out :=
  let p := p.val
  if !macUp s p || (copyOf s p h.bytes).isSome || (csOf s p h.bytes).isSome then .next s
  else
    let s1 := noteRx (demand (cutArrival s p h.preempt) (portK p)) p h.varRx
    let o := openFrame s1 p h.bytes h.len (rxStamps s1 p (sfdOn s p h.varRx)) (!freshLink s1 p) h.varTx
    match grdRx s1 p (etherType h.bytes) (grdStamp s1 p h.varRx) (grdSfd s1 h.varRx) with
    | (false, _, s2) => .next (openAs s2 p h.preempt { o with blocked := true })
    | (true, cut, s2) =>
      let (o1, s3) := takeFrame s2 p { o with cut := cut } h
      .next (openAs s3 p h.preempt o1)

/-- The AUTHENTICATION TLV's part in a PTP message's end (R319, R322): whether the frame stays good. A hardware message is judged
by its own command. -/
def ptpJudge (s : State) (o : RxOpen) (tlv : Option TlvIn) : Bool × State :=
  match o.ptp, ptpOf s o.port o.fr.bytes with
  | none, some (n, false) => ptpAuth s n o.port tlv
  | _, _ => (true, s)

/-- A hardware PTP message's copy for the host, where the message is used (R319, R322). -/
def ptpCopy (s : State) (o : RxOpen) (tlv : Option TlvIn) : State :=
  match o.ptp with
  | none => s
  | some n =>
    if s.flag (PTP_CTL_COPY n) && ptpPasses s n o.port tlv then toHost s (hostFrame s o (tlvVerified s o.port tlv)) (some n)
    else s

/-- Bytes of an arriving frame on the wire, from DA to FCS: those of L with SecTAG and ICV (R113). L itself, which cells, meters and
maximum SDU count, is without them (DESIGN CHOICE, log entry 96). -/
def wireLen (o : RxOpen) : Nat := o.fr.len + (if o.sec.isSome then 32 else 0)

/-- FRAME_END (R77, R98, R100, R113, R249, R413): a frame's last byte. A blocked frame that ends good counts nowhere. -/
def execFrameEnd (p : Port) (preempt : Bool) (e : RxEnd) (s : State) : Out :=
  let p := p.val
  match s.arriving (rxK p preempt) with
  | none => .next s
  | some o =>
    if s.fatal then .next s
    else
      let s0 := s.setOpen (rxK p preempt) none
      if (e.frag && preempt) || !(e.fcs && s.flag (PRT_STAT_LINK p) && decide (64 ≤ o.fr.len)) then
        let s1 := addCnt s0 (if e.frag && preempt then PRT_CNT_FRAG_ERR p else PRT_CNT_RX_BAD p) 1
        .next (if o.blocked then s1 else finishFrame s1 o false false)
      else if o.blocked then .next s0
      else if macControl o.fr.bytes then .next (addCnt s0 (PRT_CNT_MACCTL p) 1)
      else
        let icv := o.sec.isNone || e.icv
        let s1 := secRxEnd (countRx s0 p (wireLen o) true) p o.sec e.icv
        let (ok, s2) := if icv then ptpJudge s1 o e.tlv else (true, s1)
        let s3 := finishFrame s2 o (icv && ok) (tlvVerified s2 p e.tlv)
        .next (if icv then ptpCopy s3 o e.tlv else s3)

/-- A frame open at a MAC is cut by the guardian where its instant has passed (R252). -/
def cutOpen (s : State) (p : Nat) (preempt : Bool) : State :=
  match s.arriving (rxK p preempt) with
  | none => s
  | some o =>
    if o.blocked || !grdOver s o.cut then s
    else finishFrame (grdTrunc (s.setOpen (rxK p preempt) none) p) o false false

/-- TRUNCATION (R252, R254, R273): what a guardian accepted and what still arrives after E_i ends as received with a bad FCS. -/
def execTruncation (p : Port) (s : State) : Out :=
  if s.fatal then .next s else .next (cutCopies (cutOpen (cutOpen s p.val false) p.val true) p.val)

/-- AGEING (R78): a dynamic entry that no frame has refreshed for AGE seconds at the least. -/
def execAgeing (i : Fin 262144) (s : State) : Out :=
  let w := s.strW 6 i.val 2
  let age := s.get FWD_CFG_AGE
  let seen := tget 0 s.fdbSeen i.val
  if s.fatal || bits w 31 31 == 0 || bits w 30 30 == 1 || age == 0 || decide (s.now + 1 < seen + age * 1000000000) then
    .next s
  else .next ({ ((s.setStr 6 i.val 0 0).setStr 6 i.val 1 0).setStr 6 i.val 2 0 with fdbSeen := tset 0 s.fdbSeen i.val 0 })

/-! ### Sending -/

/-- Step 3 of R82; a preempted frame is resumed first. -/
def startPreemptable (s : State) (p var : Nat) : State :=
  if held s p then s
  else match (s.port p).rest with
  | some (f, n) => occupy (s.setPort p { s.port p with rest := none }) p (txOf f false n true)
  | none =>
    match (classesDown.filter (fun tc => !expressTc s p tc)).findSome? (classHead s p) with
    | some (tc, f) => startFrame s p tc f var
    | none => s

/-- Whether a port has anything to send. -/
def hasWork (s : State) (p : Nat) : Bool :=
  (expressHead s p).isSome || (s.port p).rest.isSome || classesDown.any (fun tc => (classHead s p tc).isSome)

/-- TIMED_RELEASE_LAUNCH (R86 to R88): the entries whose T has come fall due. -/
def execTimedReleaseLaunch (p : Port) (varTx : Nat) (s : State) : Out :=
  if s.fatal then .next s else .next (launchDue s p.val varTx)

/-- TRANSMIT_SELECTION (R82, R83, R96, R97, R114): launches that fall due in this clock come first; then a free transmitter starts what it
may, or a preemptable frame in flight yields. A port in a deeper power state is asked for (R463). -/
def execTransmitSelection (p : Port) (varTx : Nat) (s0 : State) : Out :=
  let p := p.val
  let s := if s0.fatal then s0 else launchDue s0 p varTx
  if !maySend s p || !hasWork s p && !held s p then .next s
  else if curPs s (portK p) ≠ 0 then .next (demand s (portK p))
  else match inFlight s p, expressHead s p with
  | none, some (tc, f) => .next (if copyDue s p then s else startFrame s p tc f varTx)
  | none, none => .next (if copyDue s p then s else startPreemptable s p varTx)
  | some t, some _ => .next (giveWay s p t)
  | some t, none => .next (if held s p then giveWay s p t else s)

/-- The verify interval of a port in base clocks (R110): VTIME ms from 1 to 128, else 10 ms. -/
def verifyTime (s : State) (p : Nat) : Nat :=
  let v := s.get (PRT_MM_VTIME p)
  1000000 * (if 1 ≤ v ∧ v ≤ 128 then v else 10)

/-- VERIFY (R96, R110): the result of a verification attempt; one that has had no answer for the verify interval has failed, and the third
failure is final (IEEE 802.3br, log entry 22). -/
def execVerify (p : Port) (ok : Bool) (s : State) : Out :=
  let p := p.val
  let x := s.port p
  if s.fatal || s.get (PRT_MM_VSTAT p) ≠ 1 || !s.flag (PRT_STAT_LINK p) then .next s
  else if ok then .next ((s.setPort p { x with preempt := true }).set (PRT_MM_VSTAT p) 2)
  else if s.now < x.verAt + verifyTime s p then .next s
  else if x.tries ≥ 2 then .next ((s.setPort p { x with tries := 3 }).set (PRT_MM_VSTAT p) 3)
  else .next (s.setPort p { x with tries := x.tries + 1, verAt := s.now })

/-- PORT_COUNTER_LOW_READ (R113): the high word is latched for the next read of it. -/
def execPortCounterLowRead (p : Port) (c : Fin 15) (s : State) : Out :=
  let hi := (rword s.regs (PRT_CNT_RX_FRAMES p.val + 8 * c.val + 4)).toNat
  .next { s with ctrHi := tset 0 s.ctrHi (p.val * 16 + c.val) hi }

end Sys2Proof.Machine
end

