-- ==== Sys2Proof/Machine/TableAccess.lean ====
section
/-! DEFINITION. The table windows (R102 to R104, R239 to R241) and the timers of recovery instances and nodes (R228, R231, R232,
R236). -/

namespace Sys2Proof.Machine

/-! ### What a write may hold -/

/-- Entries of a forwarding table; 0 for a reserved code (R102). -/
def strSize : Nat → Nat
  | 0 => 65536
  | 1 => 16384
  | 2 => 16384
  | 3 => 4096
  | 4 => 16384
  | 5 => 4096
  | 6 => 262144
  | 7 => 4096
  | _ => 0

/-- Words of an entry of a forwarding table (R102). -/
def strWords : Nat → Nat
  | 0 => 16
  | 1 => 3
  | 2 => 4
  | 3 => 1
  | 4 => 10
  | 5 => 9
  | 6 => 3
  | 7 => 4
  | _ => 0

/-- Entries of a redundancy table (R239). -/
def frSize : Nat → Nat
  | 0 => 65536
  | 1 => 8192
  | 2 => 16384
  | 3 => 16384
  | 4 => 4096
  | _ => 0

/-- Words of an entry of a redundancy table (R239). -/
def frWords : Nat → Nat
  | 0 => 2
  | 1 => 1
  | 2 => 5
  | 3 => 10
  | 4 => 4
  | _ => 0

/-- Whether all listed (word, hi, lo) fields of an entry are zero. -/
def zeros (w : Nat → Nat) (fs : List (Nat × Nat × Nat)) : Bool := fs.all (fun f => bits (w f.1) f.2.1 f.2.2 == 0)

/-- Stream identification entries (R90). -/
def sidLegal (w : Nat → Nat) : Bool :=
  zeros w [(0, 25, 12), (2, 15, 0), (3, 24, 24), (3, 17, 16), (3, 7, 0), (13, 7, 2)] &&
  decide (bits (w 0) 30 28 < 4) && decide (bits (w 0) 27 26 < 3) && decide (bits (w 13) 9 8 < 2) &&
  (bits (w 0) 30 28 != 2 || [6, 7, 8, 10, 11, 12].all (fun k => w k == 0))

/-- Whether a forwarding-table write is accepted (R102). -/
def strWriteOk (table index : Nat) (w : Nat → Nat) : Bool :=
  decide (index < strSize table) &&
  (match table with
   | 0 => sidLegal w
   | 1 => zeros w [(0, 28, 27), (0, 23, 16), (1, 31, 28), (2, 15, 2)] &&
     (decide (w 2 / 65536 < 16384) || w 2 / 65536 == 65535)
   | 2 => zeros w [(2, 2, 0), (3, 7, 0)]
   | 3 => zeros w [(0, 26, 24), (0, 15, 0)]
   | 5 => zeros w [(8, 29, 12)] && index != 0 && index != 4095
   | 6 => zeros w [(1, 15, 12), (2, 27, 16)] &&
     decide (bits (w 2) 15 0 < if bits (w 2) 29 29 = 1 then 4096 else 128)
   | 7 => true
   | _ => false)

/-- Write an accepted entry, with what the write does besides (R90, R93 to R95, R102). -/
def strPut (s : State) (table index : Nat) (w : Nat → Nat) : State :=
  let s1 := (List.range (strWords table)).foldl (fun t k => t.setStr table index k (w k)) s
  match table with
  | 0 => s1.setStr 0 index 15 0
  | 1 => (List.range 10).foldl (fun t k => t.setStr 4 index k 0) (s1.setStr 1 index 2 (putBits (w 2) 0 0 0))
  | 2 =>
    let s2 := s1.setStr 2 index 2 (putBits (w 2) 3 3 0)
    let (c, e) := meterFull s2 index
    { s2 with meters := tset none s2.meters index (some ⟨c, e, s2.now⟩) }
  | 3 => s1.setStr 3 index 0 (putBits (putBits (w 0) 27 27 0) 31 31 (bits (s.strW 3 index 0) 31 31))
  | 6 => { s1 with fdbSeen := tset 0 s1.fdbSeen index (if bits (w 2) 31 31 = 1 then s1.now + 1 else 0) }
  | _ => s1

/-- An access begins and ends: STR_ACC shows it; ERR reports it. -/
def strShow (s : State) (table index : Nat) (err : Bool) : State :=
  (((s.set STR_ACC_TABLE table).set STR_ACC_INDEX index).setB STR_ACC_ERR err).set STR_ACC_BUSY 0

/-- STR_TABLE_READ (R102): the entry's words reach STR_DATA; an access completes in the model at once. -/
def execStrTableRead (table : Fin 16) (index : Fin 262144) (s : State) : Out :=
  if s.fatal then .next s
  else
    let ok := decide (index.val < strSize table.val)
    let s1 := strShow s table.val index.val (!ok)
    .next (if ok then (List.range (strWords table.val)).foldl (fun t k =>
        t.set (STR_DATA_DATA k) (s.strW table.val index.val k)) s1 else s1)

/-- STR_TABLE_WRITE (R102): the whole entry in one clock, or a refusal. -/
def execStrTableWrite (table : Fin 16) (index : Fin 262144) (s : State) : Out :=
  if s.fatal then .next s
  else
    let w : Nat → Nat := fun k => s.get (STR_DATA_DATA k)
    let ok := strWriteOk table.val index.val w
    let s1 := strShow s table.val index.val (!ok)
    .next (if ok then strPut s1 table.val index.val w else s1)

/-! ### Redundancy tables (R239) -/

/-- Whether an instance lies in the pool of an enabled group. -/
def pooled (s : State) (i : Nat) : Bool :=
  (List.range 16).any (fun r => s.flag (DUP_RG_CFG_EN r) && decide (s.get (DUP_RG_POOL_BASE r) ≤ i) &&
    decide (i < s.get (DUP_RG_POOL_BASE r) + s.get (DUP_RG_POOL_N r)))

/-- Instances that a binding names: INST with REC_EN or IREC_EN, which takes its paths from INST (R229), and those of its paths with
IREC_EN. -/
def namedInsts (s : State) (w : Nat → Nat) : List Nat :=
  let i := bits (w 0) 13 0
  (if bits (w 0) 30 30 = 1 ∨ bits (w 0) 29 29 = 1 then [i] else []) ++
    (if bits (w 0) 29 29 = 1 then (List.range (max 1 (instNpath s i))).map (bits (w 1) 13 0 + ·) else [])

/-- Group and kind of a remote entry in use. -/
def remoteEntry (w1 : Nat) : Bool := bits w1 15 15 == 1 && bits w1 14 14 == 0

/-- The state after the instance of a node entry has returned to its pool: it is no longer in use. -/
def giveBack (s : State) (e : Nat) : State :=
  if remoteEntry (s.frW 4 e 1) then
    let i := bits (s.frW 4 e 2) 13 0
    let s1 := (s.setFr 2 i 0 (putBits (s.frW 2 i 0) 31 31 0)).setFr 4 e 1 0
    { s1 with fwdHist := tclear s1.fwdHist (fun k => k / 128 == i) }
  else s

/-- Whether a redundancy-table write is accepted (R239). -/
def frWriteOk (s : State) (table index : Nat) (w : Nat → Nat) : Bool :=
  decide (index < frSize table) &&
  (match table with
   | 0 => zeros w [(0, 15, 14), (1, 31, 14)] && !(namedInsts s w).any (pooled s)
   | 1 => zeros w [(0, 31, 16)]
   | 2 => zeros w [(0, 26, 24), (1, 31, 31), (1, 23, 23), (1, 15, 15), (1, 7, 7)] &&
     decide (1 ≤ bits (w 2) 31 29) && decide (bits (w 2) 31 29 ≤ 4) &&
     (bits (w 0) 30 30 == 1 || (decide (1 ≤ bits (w 0) 23 16) && decide (bits (w 0) 23 16 ≤ 128))) && !pooled s index
   | 4 => zeros w [(1, 12, 12), (1, 7, 0), (2, 15, 14)] && s.flag (DUP_RG_CFG_EN (bits (w 1) 11 8)) &&
     (!remoteEntry (w 1) || (poolFree (giveBack s index) (bits (w 1) 11 8)).isSome)
   | _ => false)

/-- Withdraw an instance's pending marks and let the copies that wait for them go on as passed, each pending until its own end (R230,
R248). -/
def releaseInst (s : State) (i : Nat) : State :=
  let mine := s.heldFrames.filter (fun h => h.inst == i)
  let drop : Option RxOpen → Option RxOpen := fun o =>
    o.map (fun x => { x with marks := x.marks.filter (fun m => m.1 != i) })
  let s1 := { s with
    heldFrames := s.heldFrames.filter (fun h => h.inst != i)
    rxOpen := s.rxOpen.map (fun e => (e.1, drop e.2)) }
  mine.foldl (fun t h =>
    if h.judge || !instValid t i then continueHeld resolve t h [] (if h.judge then i :: h.todo else h.todo)
    else continueHeld resolve (addMark t i h.port none) h [(i, none)] h.todo) s1

/-- Write an accepted node entry (R235, R236). -/
def nodeWrite (s : State) (e : Nat) (w : Nat → Nat) : State :=
  let s1 := giveBack s e
  let r := bits (w 1) 11 8
  let (inst, s2) := if remoteEntry (w 1) then
      (match poolFree s1 r with | some i => (i, poolTake s1 r i) | none => (0, s1)) else (0, s1)
  let seq := if remoteEntry (w 1) then 0 else w 2 / 65536
  let s3 := (((s2.setFr 4 e 0 (w 0)).setFr 4 e 1 (w 1)).setFr 4 e 2 (seq * 65536 + inst)).setFr 4 e 3 0
  { s3 with nodeSeen := tset 0 s3.nodeSeen e s3.now }

/-- Write an accepted entry of a redundancy table. -/
def frPut (s : State) (table index : Nat) (w : Nat → Nat) : State :=
  match table with
  | 0 => (s.setFr 0 index 0 (w 0)).setFr 0 index 1 (w 1)
  | 1 => { s.setFr 1 index 0 (w 0) with given := (s.now, (givenNow s).filter (fun e => e.1 != index)) }
  | 2 => releaseInst (instWrite s index [w 0, w 1, w 2, w 3]) index
  | 4 => nodeWrite s index w
  | _ => s

/-- A word of a redundancy entry as a read shows it: IDLE of a node entry counts from its last refresh. -/
def frView (s : State) (table index k : Nat) : Nat :=
  if table = 4 ∧ k = 3 then
    (if bits (s.frW 4 index 1) 15 15 = 1 then min ((s.now - tget 0 s.nodeSeen index) / 1000000) (2 ^ 32 - 1) else 0)
  else s.frW table index k

/-- FRER_ACC shows an access. -/
def frShow (s : State) (table index : Nat) (err : Bool) : State :=
  (((s.set FRER_ACC_TABLE table).set FRER_ACC_INDEX index).setB FRER_ACC_ERR err).set FRER_ACC_BUSY 0

/-- FRER_TABLE_READ (R239). -/
def execFrerTableRead (table : Fin 16) (index : Fin 65536) (s : State) : Out :=
  if s.fatal then .next s
  else
    let ok := decide (index.val < frSize table.val)
    let s1 := frShow s table.val index.val (!ok)
    .next (if ok then (List.range (frWords table.val)).foldl (fun t k =>
        t.set (FRER_DATA_DATA k) (frView s table.val index.val k)) s1 else s1)

/-- FRER_TABLE_WRITE (R226, R235, R239, R248). -/
def execFrerTableWrite (table : Fin 16) (index : Fin 65536) (s : State) : Out :=
  if s.fatal then .next s
  else
    let w : Nat → Nat := fun k => s.get (FRER_DATA_DATA k)
    let ok := frWriteOk s table.val index.val w
    let s1 := frShow s table.val index.val (!ok)
    .next (if ok then frPut s1 table.val index.val w else s1)

/-! ### Timers -/

/-- Whether `ms` milliseconds have passed since base clock `t`. -/
def since (s : State) (t ms : Nat) : Bool := decide (t + ms * 1000000 ≤ s.now)

/-- RECOVERY_RESET (R228, R248): no frame of the instance has passed for longer than RESET_MS; one silence resets it once. A frame that
ends good in the clock in which RESET_MS runs out comes before. -/
def execRecoveryReset (i : Fin 16384) (s : State) : Out :=
  let ms := bits (s.frW 2 i.val 0) 15 0
  let r := s.rec_ i.val
  if s.fatal || !instValid s i.val || ms == 0 || r.wasReset || decide (s.now ≤ r.lastPass + ms * 1000000) then .next s
  else .next (frCount ((s.setFr 2 i.val 4 (putBits (s.frW 2 i.val 4) 15 15 1)).setRec i.val { r with wasReset := true }) i.val 6 1)

/-- LOSS_TMO (R231): a path has been silent for LOSS_TMO; a change of HEALTH posts a record and raises the event. -/
def execLossTmo (i : Fin 16384) (path : Fin 4) (s : State) : Out :=
  let ok := instPathOk s i.val
  let silent := match (s.rec_ i.val).good.getD path.val none with
    | some t => since s t (instLossTmo s i.val)
    | none => true
  if s.fatal || instLossTmo s i.val == 0 || ok / 2 ^ path.val % 2 == 0 || !silent then .next s
  else .next (setPathOk s i.val (ok - 2 ^ path.val))

/-- Take the base values of PASSED and DISCARDED anew (R232). -/
def takeBases (s : State) (i : Nat) : State :=
  s.setRec i { s.rec_ i with baseP := s.frW 3 i 0, baseD := s.frW 3 i 1, resetAt := s.now }

/-- The latent-error difference of an instance (R232). -/
def latentDiff (s : State) (i : Nat) : Int :=
  let r := s.rec_ i
  let p : Nat := (s.frW 3 i 0 + 2 ^ 32 - r.baseP) % 2 ^ 32
  let d : Nat := (s.frW 3 i 1 + 2 ^ 32 - r.baseD) % 2 ^ 32
  let paths : Int := if bits (s.frW 2 i 0) 27 27 = 1 then popCount (instPathOk s i) else instNpath s i
  p * (paths - 1) - d

/-- The latent-error test of an instance at the end of a period (R232). -/
def laerrTest (s : State) (i : Nat) : State :=
  let d := latentDiff s i
  if !instValid s i || decide (d ≤ bits (s.frW 2 i 2) 15 0) then s
  else note (devRec (takeBases (frCount s i 7 1) i) 5 3 i (ofInt 32 d)) 0 12 .corr

/-- The latent-error tests of a clock, at its end: a change of HEALTH in that clock comes first (R248). -/
def laerrEnd (s : State) : State := s.laerrs.foldl laerrTest { s with laerrs := [] }

/-- LAERR_PERIOD (R232, R248): a period ends in this clock, at whose end the test is made. -/
def execLaerrPeriod (i : Fin 16384) (s : State) : Out :=
  let i := i.val
  let per := bits (s.frW 2 i 3) 31 16
  if s.fatal || !instValid s i || bits (s.frW 2 i 0) 28 28 == 0 || per == 0 || !since s (s.rec_ i).perAt per then .next s
  else .next { s.setRec i { s.rec_ i with perAt := s.now } with laerrs := s.laerrs ++ [i] }

/-- LAERR_RESET (R232): the bases are taken anew. -/
def execLaerrReset (i : Fin 16384) (s : State) : Out :=
  let i := i.val
  if s.fatal || !instValid s i || bits (s.frW 2 i 0) 28 28 == 0 || !since s (s.rec_ i).resetAt (bits (s.frW 2 i 3) 15 0) then
    .next s
  else .next (takeBases s i)

/-- NODE_FORGET (R236, R242): an entry that has not been refreshed is removed, and its instance returns to the pool. -/
def execNodeForget (e : Fin 4096) (s : State) : Out :=
  let e := e.val
  let w := s.frW 4 e 1
  if s.fatal || bits w 15 15 == 0 || bits w 13 13 == 1 ||
      !since s (tget 0 s.nodeSeen e) (1000 * max 1 (s.get DUP_CFG_NODE_FORGET)) then .next s
  else
    let s1 := (List.range 4).foldl (fun t k => t.setFr 4 e k 0) (giveBack s e)
    .next { s1 with nodeSeen := tset 0 s1.nodeSeen e 0 }

end Sys2Proof.Machine
end

