-- ==== Sys2Proof/Machine/HostTx.lean ====
section
/-! DEFINITION. Transmit descriptors (R348, R349): frames of the host to a port's queues or into the pipeline. -/

namespace Sys2Proof.Machine

/-- A descriptor's frame as a queue holds it (R79, R349): sent as the host wrote it, padded. -/
def hostQFrame (s : State) (b : Bytes) (ring i : Nat) (e : List Nat) : QFrame :=
  let w3 := entryWord e 3
  ⟨s.ids, b, max 60 b.length + 4, 128, none, none, bits w3 10 8, 0, 0, false, false, false, false, false, false, false, 0,
    some (ring, i), bits w3 31 31 == 1, true, false, false⟩

/-- A descriptor that completes without a stamp. -/
def txDone (s : State) (ring i status : Nat) : State := ringResult s 0 ring i [(6, 0), (7, status * 2 ^ 26)]

/-- FWD = 0, TRQ = 1 (R85, R88, R349): a cued or timed entry of the port's timed-release queue. -/
def hostTimed (s : State) (p : Nat) (f : QFrame) (w3 launch ring i : Nat) : State :=
  if (s.queue p 8).length ≥ 256 then txDone (addCnt s (PRT_CNT_TRQ_FULL p) 1) ring i 2
  else if bits w3 28 28 = 1 then s.setQueue p 8 (trqInsert (s.queue p 8) { f with cue := true })
  else
    let past := isPast launch s.tickNs
    let skip := bits w3 27 26 == 1
    let g := { f with skip := skip, t := launch, due := past }
    if past && (skip || !s.flag (PRT_STAT_LINK p)) then txDone (addCnt s (PRT_CNT_TRQ_SKIP p) 1) ring i 2
    else
      let s1 := s.setQueue p 8 (trqInsert (s.queue p 8) g)
      if past then addCnt s1 (PRT_CNT_TRQ_LATE p) 1 else s1

/-- FWD = 0 (R349): disabled and retired ports, admission, the queue. -/
def hostSend (s0 : State) (p : Nat) (b : Bytes) (ring i : Nat) (e : List Nat) : State :=
  let f := hostQFrame s0 b ring i e
  let s := { s0 with ids := s0.ids + 1 }
  let w3 := entryWord e 3
  let st := s.get (PRT_STAT_STATE p)
  let q := if bits w3 29 29 = 1 then 8 else f.tc
  if st = stOff ∨ st = stRetired then txDone s ring i 3
  else
    let s1 := demand s (portK p)
    if s.get (PRT_GRD_STAT_STATE p) = 3 ∨ admits s1 p q (cellsOf f.len) = false then txDone (dropBuf s1 p) ring i 1
    else if q = 8 then hostTimed s1 p f w3 (entryWord e 4) ring i
    else s1.setQueue p q (s1.queue p q ++ [f])

/-- The AUTHENTICATION TLV of an injected frame: whether it has one, and verifies, is free (log entry 102). -/
def injectTlv (s : State) : Option TlvIn × State :=
  let (v, s1) := s.draw
  (if v % 3 = 0 then none else some ⟨v / 3, v % 3 == 1⟩, s1)

/-- FWD = 1 (R349): the frame enters stage 1 as one received on the port, and ends good. It passes no MAC (R285): the guardian, MACsec
and the MAC's counters see nothing of it (DEDUCED, log entry 102). -/
def hostInject (s : State) (p : Nat) (b : Bytes) (ring i : Nat) : State :=
  let c := padFrame b
  let o := openFrame s p c (c.length + 4) [] false []
  let (o1, s1) := if selfFrame s c then (o.drop, s) else pipeline s o
  let (tlv, s2) := injectTlv s1
  let (ok, s3) := ptpJudge s2 o1 tlv
  let s4 := ptpCopy (finishFrame s3 o1 ok (tlvVerified s3 p tlv)) o1 tlv
  txDone s4 ring i (if o1.vlanDrop then 5 else 4)

/-- A transmit ring's next entry is taken, its frame read and handed on (R346, R349). -/
def transmitEntry (s : State) (g : Nat) (readErr : Bool) : State :=
  let r := s.ring 0 g
  match r.ready with
  | none => s
  | some e =>
    if readErr then hostHalt s 7 0 r.fn r.loc r.next none
    else
      let b := gather s (buffer s e)
      let w3 := entryWord e 3
      let p := bits w3 6 0
      let s1 := s.setRing 0 g { r with next := (r.next + 1) % 65536 }
      if bits w3 30 30 = 1 then hostInject s1 p b g r.next else hostSend s1 p b g r.next e

/-- TRANSMIT_DESCRIPTOR (R346, R348, R349, R361): the ring's next entry is taken and its frame read; a read error halts. -/
def execTransmitDescriptor (ring : Fin 4096) (readErr : Bool) (s : State) : Out :=
  .next (whileRuns s (fun t => transmitEntry t ring.val readErr))

end Sys2Proof.Machine
end

