-- ==== Sys2Proof/Machine/Security.lean ====
section
/-! DEFINITION. The security processor: owner slots and the attestation log (R398 to R404), the mailbox (R418, R419), debug unlock
(R417), pair handshake (R407 to R410), key agreement (R411), PTP keys (R415). The primitives of other standards are constants without a
body (log entry 14). -/

namespace Sys2Proof.Machine

/-! ### Owners, log -/

/-- An owner slot. -/
def State.slot_ (s : State) (i : Nat) : OwnerSlot := tget OwnerSlot.empty s.sec.slots i
/-- Replace an owner slot. -/
def State.setSlot_ (s : State) (i : Nat) (x : OwnerSlot) : State :=
  { s with sec := { s.sec with slots := tset OwnerSlot.empty s.sec.slots i x } }

/-- State of a slot (R398, R421): 0 Empty, 1 Valid, 2 Revoked, 3 Spoilt. -/
def OwnerSlot.state (x : OwnerSlot) : Nat :=
  if x.marker then (if x.revoked then 2 else 1) else if x.hash = 0 then 0 else 3

/-- A Valid slot. -/
def slotValid (s : State) (i : Nat) : Bool := decide (i < 4) && (s.slot_ i).state == 1

/-- The device is unowned (R398). -/
def unowned (s : State) : Bool := (List.range 4).all (fun i => (s.slot_ i).state == 0)

/-- Entries of the log (R420). -/
def logN (s : State) : Nat := s.sec.log.length

/-- Add a log entry (R403). -/
def logAdd (s : State) (typ arg : Nat) (data : Bytes) : State :=
  { s with sec := { s.sec with log := s.sec.log ++ [⟨typ, arg, data⟩] } }

/-- What an entry measures: the boot ROM's contents stand outside the spec. -/
def LogE.measured (e : LogE) : Bytes := if e.typ = 1 then Config.bootRom else e.data

/-- A log entry's 64 bytes (R404). -/
def logBytes (e : LogE) (seq : Nat) : Bytes :=
  leBytes 2 e.typ ++ leBytes 2 seq ++ leBytes 4 e.arg ++ leBytes 4 e.measured.length ++ leBytes 4 0 ++ sha e.measured

/-- All entries' bytes, in order. -/
def logAll (s : State) : List Bytes := s.sec.log.mapIdx (fun i e => logBytes e i)

/-- The log digest (R404). -/
def logDigest (s : State) : Bytes := (logAll s).foldl (fun l e => sha (l ++ e)) (List.replicate 48 0)

/-! ### Challenges and AUTHORISE (R417, R419) -/

/-- Issue a challenge: it replaces any other. -/
def newChallenge (s : State) : Bytes × State :=
  let (n, s1) := s.draw
  let nonce := fit 32 (Config.secretBytes 3 n)
  (nonce, { s1 with sec := { s1.sec with chal := some (nonce, s1.now) } })

/-- The challenge in force: 60 s at the longest. -/
def challenge (s : State) : Option Bytes :=
  match s.sec.chal with
  | some (n, t) => if s.now < t + 60000000000 then some n else none
  | none => none

/-- Whether a signature block verifies for a slot over `m` (R401, R402, R419): the slot's hash is that of its keys, and both
signatures hold. -/
def blockVerifies (hash : Nat) (blk m ctx : Bytes) : Bool :=
  let ec := blk.take 97
  let ml := (blk.drop 100).take 1952
  beNat (idHash ec ml) == hash && ecdsaHolds ec m ((blk.drop 2052).take 96) &&
  Config.mldsaOk ml ctx m ((blk.drop 2148).take 3309)

/-- Zero every key, remove every association, disable the handshakes (R417 scope MEM). -/
def zeroKeys (s : State) : State :=
  let s1 := { s with sec := { s.sec with hsOff := true } }
  (List.range 128).foldl secClear (s1.set SEC_STAT_KEYS_ZEROED 1)

/-- An AUTHORISE request (R400, R404, R417, R419): its RESULT. The challenge is used up whatever the result. -/
def authorise (s : State) (req : Bytes) : Nat × State :=
  let s1 := { s with sec := { s.sec with chal := none } }
  let op := leNat (req.take 4)
  let arg := leNat ((req.drop 4).take 4)
  let slot := beField req 8 1
  match challenge s with
  | none => (2, s1)
  | some nonce =>
    if !slotValid s slot then (3, s1)
    else
      let m := ascii "ZB-AUTH" ++ nonce ++ ownIdh ++ req.take 8
      if !blockVerifies (s.slot_ slot).hash ((req.drop 16).take 5464) m (ascii "ZB-AUTH") then (2, s1)
      else if op = 1 then
        (if !slotValid s arg || !(List.range 4).any (fun i => i != arg && slotValid s i) then (4, s1)
         else (0, s1.setSlot_ arg { s.slot_ arg with revoked := true }))
      else if logN s ≥ 239 then (4, s1)
      else
        let s2 := (logAdd s1 9 arg req).set SEC_STAT_DBG (s.get SEC_STAT_DBG ||| arg % 8)
        (0, if arg / 4 % 2 = 1 then zeroKeys s2 else s2)

/-! ### The mailbox (R418, R422) -/

/-- The mailbox input. -/
def mboxIn (s : State) : Bytes := s.bytes mboxA (s.get SEC_MB_CTL_LEN)

/-- A mailbox command ends: RESULT, output, BUSY = 0. -/
def mboxDone (s : State) (result : Nat) (outp : Bytes) : State :=
  (((s.putBytes mboxA outp).set SEC_MB_STAT_RESULT result).set SEC_MB_STAT_RLEN outp.length).set SEC_MB_STAT_BUSY 0

/-- Whether a mailbox command of a code runs: with the device in PS1, as in the fatal state, the security processor's clock stands
(R458). -/
def mboxRuns (s : State) (cmd : Nat) : Bool := !s.fatal && curPs s 0 == 0 && s.flag SEC_MB_STAT_BUSY && s.get SEC_MB_CTL_CMD == cmd

/-- Whether GO runs a command: it is listed and its input has the length R418 gives; otherwise RESULT 1. -/
def mboxLegal (s : State) : Bool :=
  let len := s.get SEC_MB_CTL_LEN
  match s.get SEC_MB_CTL_CMD with
  | 1 => len == 1 && decide (leNat (s.bytes mboxA 1) < 2)
  | 2 => len == 32
  | 3 => len == 0
  | 4 => len == 5480 && (leNat (s.bytes mboxA 4) == 1 || leNat (s.bytes mboxA 4) == 2)
  | _ => false

/-- GO = 1 (R418, R422). -/
def mboxGo (s : State) : State :=
  if s.flag SEC_MB_STAT_BUSY then s
  else if mboxLegal s then demand (s.set SEC_MB_STAT_BUSY 1) 0
  else (s.set SEC_MB_STAT_RESULT 1).set SEC_MB_STAT_RLEN 0

/-- GET_CERT (R418). -/
def execGetCert (s : State) : Out :=
  if mboxRuns s 1 then .next (mboxDone s 0 (Config.cert (leNat (mboxIn s)))) else .next s

/-- ATTEST (R418): nonce, log digest, count, TBL, identity hash, entries, signatures. -/
def execAttest (s : State) : Out :=
  if !mboxRuns s 2 then .next s
  else
    let (n, s1) := s.draw
    let body := mboxIn s ++ logDigest s ++ leBytes 4 (logN s) ++ leBytes 4 (s.tbNs 8) ++ ownIdh ++ (logAll s).flatten
    .next (mboxDone s1 0 (body ++ ownSigns (ascii "ZB-ATTEST") body n))

/-- CHALLENGE (R417, R418). -/
def execChallenge (s : State) : Out :=
  if !mboxRuns s 3 then .next s
  else
    let (nonce, s1) := newChallenge s
    .next (mboxDone s1 0 (nonce ++ ownIdh))

/-- AUTHORISE through the mailbox, with the OP given. -/
def mboxAuthorise (s : State) (op : Nat) : State :=
  if mboxRuns s 4 && leNat (s.bytes mboxA 4) == op then
    let (r, s1) := authorise s (mboxIn s)
    mboxDone s1 r []
  else s

/-- REVOKE (R400, R418). -/
def execRevoke (s : State) : Out := .next (mboxAuthorise s 1)

/-- DEBUG (R417, R418). -/
def execDebug (s : State) : Out := .next (mboxAuthorise s 2)

/-- CHALLENGE_EXPIRY (R417). -/
def execChallengeExpiry (s : State) : Out :=
  if (challenge s).isNone then .next { s with sec := { s.sec with chal := none } } else .next s

/-- Source of replies over JTAG. -/
def jtagSrc : Nat := 201

/-- SEC_CHAL (R416, R417, R427): a challenge over JTAG, which always offers it. -/
def execSecChal (s : State) : Out :=
  let (nonce, s1) := newChallenge s
  .next ({ s1 with jtag := { s1.jtag with ir := 0x40 } }.emit (.reply jtagSrc (nonce ++ ownIdh)))

/-- SEC_RESP (R417): an AUTHORISE request over JTAG; the RESULT code is shifted out (DESIGN CHOICE, log entry 23). A request of
another length, or with another OP, is a bad command. -/
def execSecResp (req : Bytes) (s : State) : Out :=
  if req.length ≠ 5480 ∨ ¬ (leNat (req.take 4) = 1 ∨ leNat (req.take 4) = 2) then
    .next ({ s with jtag := { s.jtag with ir := 0x41 } }.emit (.reply jtagSrc [1]))
  else
    let (r, s1) := authorise s req
    .next ({ s1 with jtag := { s1.jtag with ir := 0x41 } }.emit (.reply jtagSrc [b8 r]))

/-! ### Pair handshake (R407 to R410) -/

/-- Send a frame of the device itself behind what is in flight. -/
def sendOwn (s : State) (p : Nat) (b : Bytes) : State :=
  if canSend s p then sendJob s p (.own ((padFrame b).length + 4) (.frame p (padFrame b))) s.now 0 else s

/-- A frame of R408. -/
def secFrame (s : State) (da typ : Nat) (payload : Bytes) : Bytes :=
  beBytes 6 da ++ beBytes 6 (ownMac s) ++ beBytes 2 0x88B6 ++ [b8 typ, 1] ++ beBytes 2 payload.length ++ payload

/-- The secrets of a handshake drawn with the n-th random values (R395): the ECDH scalar, and the seed of an ML-KEM key. -/
def hsSecrets (n : Nat) : Bytes × Bytes := (fit 48 (Config.secretBytes 6 n), fit 64 (Config.secretBytes 7 n))

/-- The randomness of an ML-KEM encapsulation. -/
def hsEncaps (n : Nat) : Bytes := fit 32 (Config.secretBytes 9 n)

/-- The nonce of a handshake message. -/
def hsNonce (n : Nat) : Bytes := fit 32 (Config.secretBytes 8 n)

/-- What a handshake message holds before its signatures (R408); `kem` is the encapsulation key of HS1 or the ciphertext of HS2. -/
def hsBody (n : Nat) (kem : Bytes) : Bytes :=
  ownEc ++ [0, 0, 0] ++ ownMl ++ fit 97 (Config.ecPublic (beNat (hsSecrets n).1)) ++ [0, 0, 0] ++ kem ++ hsNonce n

/-- The payload of an HS1 (R408). -/
def hs1Payload (n : Nat) : Bytes :=
  let b := hsBody n (fit 1184 (Config.kemPublic (hsSecrets n).2))
  b ++ ownSigns (ascii "ZB-HS1") b n

/-- The payload of the HS2 that answers the HS1 payload `h` (R408): it signs the digest of that payload in front of its own bytes. -/
def hs2Payload (h : Bytes) (n : Nat) : Bytes :=
  let b := hsBody n (fit 1088 (Config.kemCipher ((h.drop 2152).take 1184) (hsEncaps n)))
  b ++ ownSigns (ascii "ZB-HS2") (sha h ++ b) n

/-- The handshake's destination address. -/
def hsDa : Nat := 0x0180C2000003

/-- Send an HS1 with fresh ephemerals (R407). -/
def sendHs1 (s : State) (p : Nat) : State :=
  let (n, s1) := s.draw
  let pay := hs1Payload n
  let k := s1.key p
  sendOwn (s1.setKey p { k with hs1 := some pay, hs1Old := k.hs1Old ++ k.hs1.toList, hs1At := s1.now, eph := hsSecrets n }) p
    (secFrame s1 hsDa 2 pay)

/-- The pair handshake at a link-up (R407). -/
def pairBegin (s : State) (p : Nat) : State :=
  if pairs s p then sendHs1 (s.set (PRT_SEC_STAT_PAIR p) 1) p else s

/-- The identity hash of a handshake payload's sender. -/
def hsIdh (pay : Bytes) : Bytes := idHash (pay.take 97) ((pay.drop 100).take 1952)

/-- The trust-list entry that allows a handshake with a peer on a port (R406, R407); on a Ulicon port a
member's (R495). -/
def trustOf (s : State) (p : Nat) (idh : Bytes) : Option Nat :=
  (s.sec.trust.find? (fun e =>
    let port := beField e.2 50 2
    beField e.2 48 1 % 4 == 3 && (!isUlc s p || beField e.2 48 1 / 4 % 2 == 1) && e.2.take 48 == idh && (port == p || port == 0xFFFF))).map (·.1)

/-- Whether a handshake message's signatures verify over `m` with a context (R408). -/
def hsVerifies (pay m ctx : Bytes) (sigAt : Nat) : Bool :=
  ecdsaHolds (pay.take 97) (ctx ++ m) ((pay.drop sigAt).take 96) &&
  Config.mldsaOk ((pay.drop 100).take 1952) ctx m ((pay.drop (sigAt + 96)).take 3309)

/-- Whether an HS1 is valid but for the trust list (R407). -/
def hs1Valid (pay : Bytes) : Bool :=
  pay.length == 6773 && hsIdh pay != ownIdh && hsVerifies pay (pay.take 3368) (ascii "ZB-HS1") 3368

/-- Whether an HS2 is valid but for the trust list, as an answer to the HS1 payload `h` (R407). -/
def hs2Answers (pay h : Bytes) : Bool :=
  pay.length == 6677 && hsIdh pay != ownIdh && hsVerifies pay (sha h ++ pay.take 3272) (ascii "ZB-HS2") 3272

/-- A handshake message that fails (R407): HS_FAIL; an unpaired port shows the refusal (R425). -/
def hsFail (s : State) (p : Nat) : State :=
  let s1 := s.inc (PRT_SEC_KEYS_HS_FAIL p)
  if s1.get (PRT_SEC_STAT_PAIR p) = 2 then s1 else s1.set (PRT_SEC_STAT_PAIR p) 3

/-- Whether a port takes handshake messages now. -/
def hsUp (s : State) (p : Nat) : Bool := macUp s p && pairs s p

/-- A CAK exists (R409): the ephemerals are destroyed; the PTP key before it is accepted for 10 s more (R415). -/
def cakComes (s : State) (p peer : Nat) (cak ckn : Bytes) : State :=
  let k := s.key p
  (s.setKey p { k with
    hs1 := none, hs1Old := k.hs1Old ++ k.hs1.toList, eph := ([], []), cak := some cak, ckn := ckn, cakAt := s.now
    oldPtp := k.cak.map (fun old => (s.now, old, k.ckn)), peers := [] }).set (PRT_SEC_STAT_PEER p) peer

/-- The pair keys, CAK and CKN, of the end that answers the HS1 `h` with the HS2 drawn with `n` (R409). -/
def keysAtHigher (h : Bytes) (n : Nat) : Bytes × Bytes :=
  let pay := hs2Payload h n
  let prk := pairPrk ((h.drop 3336).take 32) (hsNonce n) (Config.ecdh (beNat (hsSecrets n).1) ((h.drop 2052).take 97))
    (Config.kemShared ((h.drop 2152).take 1184) (hsEncaps n))
  (pairCak prk h pay, pairCkn prk h pay)

/-- The pair keys of the end whose HS1 `h`, with its secrets, the HS2 payload answers (R409). -/
def keysAtLower (h : Bytes) (eph : Bytes × Bytes) (pay : Bytes) : Bytes × Bytes :=
  let prk := pairPrk ((h.drop 3336).take 32) ((pay.drop 3240).take 32) (Config.ecdh (beNat eph.1) ((pay.drop 2052).take 97))
    (Config.kemOpen eph.2 ((pay.drop 2152).take 1088))
  (pairCak prk h pay, pairCkn prk h pay)

/-- The payload of a handshake frame that reaches the security processor (R249, R408, R412): its VER is 1, and the payload length that it
states is what is taken. A frame with another VER is dropped (DESIGN CHOICE, log entry 110). -/
def hsTakes (s : State) (p typ : Nat) (x : SecBody) : Option Bytes × State :=
  if !hsUp s p || x.ver != 1 then (none, s)
  else match lineTakes s p (typedHead 0x88B6 [b8 typ, 1]) x.varRx ⟨false, 0, 0, 0⟩ with
  | (false, s1) => (none, s1)
  | (true, s1) => (some (x.payload.take x.len.toNat), s1)

/-- HS1 (R407): a valid HS1 of a lower peer is answered with HS2. -/
def execHs1 (p : Port) (x : SecBody) (s0 : State) : Out :=
  let p := p.val
  match hsTakes s0 p 2 x with
  | (none, s) => .next s
  | (some pay, s) =>
    match trustOf s p (hsIdh pay) with
    | none => .next (hsFail s p)
    | some e =>
      if !hs1Valid pay then .next (hsFail s p)
      else if beNat ownIdh < beNat (hsIdh pay) then .next s
      else
        let (n, s1) := s.draw
        let (cak, ckn) := keysAtHigher pay n
        let s2 := cakComes s1 p e cak ckn
        .next (sendOwn s2 p (secFrame s2 hsDa 3 (hs2Payload pay n)))

/-- HS2 (R407, R409, R427): at the lower end the valid answer to the port's latest HS1 yields the CAK; any other valid one, an answer to
an HS1 before it or one that comes to the higher end, is discarded. What answers no HS1 of the port fails. -/
def execHs2 (p : Port) (x : SecBody) (s0 : State) : Out :=
  let p := p.val
  match hsTakes s0 p 3 x with
  | (none, s) => .next s
  | (some pay, s) =>
    let k := s.key p
    match trustOf s p (hsIdh pay) with
    | none => .next (hsFail s p)
    | some e =>
      match k.hs1.filter (hs2Answers pay) with
      | some h =>
        if beNat (hsIdh pay) < beNat ownIdh then .next s
        else
          let (cak, ckn) := keysAtLower h k.eph pay
          .next (cakComes s p e cak ckn)
      | none => if k.hs1Old.any (hs2Answers pay) then .next s else .next (hsFail s p)

/-- HS1_RESEND (R407): every 1 s while unpaired. -/
def execHs1Resend (p : Port) (s : State) : Out :=
  let p := p.val
  if !hsUp s p || s.get (PRT_SEC_STAT_PAIR p) == 2 || decide (s.now < (s.key p).hs1At + 1000000000) then .next s
  else .next (sendHs1 s p)

/-- REHANDSHAKE (R409): the lower end repeats the handshake every 24 h. -/
def execRehandshake (p : Port) (s : State) : Out :=
  let p := p.val
  let k := s.key p
  let peer := (tget [] s.sec.trust (s.get (PRT_SEC_STAT_PEER p))).take 48
  if !hsUp s p || s.get (PRT_SEC_STAT_PAIR p) != 2 || decide (beNat peer < beNat ownIdh) ||
      decide (s.now < max k.cakAt k.hs1At + 86400000000000) then .next s
  else .next (sendHs1 s p)

/-! ### Key agreement (R411) -/

/-- Whether the port is the key server: lower KS_PRIO, or the lower SCI on a tie, than every live peer. -/
def isServer (s : State) (p : Nat) : Bool :=
  let pr := s.get (PRT_SEC_CFG_KS_PRIO p)
  (s.key p).peers.all (fun x => decide (pr < x.prio) || (pr == x.prio && decide (ownSci s p < x.sci)))

/-- Install a SAK (R411): receive associations first, then the transmit side; the SAK before it stays for receipt. -/
def installSak (s : State) (p an : Nat) (key : Bytes) : State :=
  let k := s.key p
  let fresh := k.peers.map (fun x => (⟨x.sc, an, 1⟩ : SaSt))
  let old := (s.sas p).filter (fun a => a.an == s.get (PRT_SEC_STAT_TXAN p) && a.an != an && s.flag (PRT_SEC_STAT_TXSA p))
  let s1 := { s.setKey p { k with an := an, sak := key } with
    rxSas := tset [] s.rxSas p (old ++ fresh)
    txPn := tset 0 s.txPn p 1 }
  (((s1.set (PRT_SEC_STAT_RXSA p) (old ++ fresh).length).set (PRT_SEC_STAT_TXSA p) 1).set (PRT_SEC_STAT_TXAN p) an).inc
    (PRT_SEC_KEYS_REKEYS p)

/-- Send an MKPDU (R411); its length, which the spec leaves to IEEE 802.1X, is a free value. -/
def sendMka (s : State) (p : Nat) (sak : Option Nat) : State :=
  if !canSend s p then s
  else
    let (n, s1) := s.draw
    sendJob (s1.setKey p { s1.key p with helloAt := s1.now }) p (.own (64 + n % 1454) (.mka p sak)) s1.now 0

/-- Bytes of a SAK (R411): those of the cipher suite's key. -/
def sakBytes (s : State) (p : Nat) : Nat := if s.get (PRT_SEC_CFG_CS p) % 2 = 0 then 16 else 32

/-- The key server distributes a new SAK of its random generator (R395, R411). -/
def newSak (s : State) (p : Nat) : State :=
  if s.flag (PRT_SEC_CFG_EN p) && isServer s p && !(s.key p).peers.isEmpty then
    let an := if s.flag (PRT_SEC_STAT_TXSA p) then ((s.key p).an + 1) % 4 else (s.key p).an
    let (n, s1) := s.draw
    sendMka (installSak s1 p an (fit (sakBytes s p) (Config.secretBytes 11 n))) p (some an)
  else s

/-- The live peers of a port once `x` has been heard (R411): a new one is installed where its receive channel is free, so that none
beyond 16 is. -/
def hearPeer (ps : List PeerSt) (x : PeerSt) : List PeerSt :=
  if ps.any (fun y => y.sci == x.sci) then ps.map (fun y => if y.sci = x.sci then { x with sc := y.sc } else y)
  else if ps.any (fun y => y.sc == x.sc) then ps
  else ps ++ [x]

/-- MKPDU (R410, R411): a verified MKPDU pairs the port, makes its sender a live peer, and may bring the key server's SAK. -/
def execMkpdu (p : Port) (sc : Fin 16) (prio : Byte) (sci : Nat) (sak : Option SakIn) (x : MkaEnd) (s : State) : Out :=
  let p := p.val
  if !macUp s p then .next s
  else match lineTakes s p (typedHead 0x888E []) x.varRx ⟨false, 0, 0, 0⟩ with
  | (false, s0) => .next s0
  | (true, s0) =>
    let k := s0.key p
    if !x.icvOk || k.cak.isNone then .next s0
    else
      let peers := hearPeer k.peers ⟨sc.val, prio.toNat, sci, s.now⟩
      let s1 := if s.get (PRT_SEC_STAT_PAIR p) = 2 then s0 else digestSend s0 p
      let s2 := (s1.setKey p { k with peers := peers }).set (PRT_SEC_STAT_PAIR p) 2
      if isServer s2 p then .next (if peers.length = k.peers.length then s2 else newSak s2 p)
      else match sak with
        | some y => .next (if s.flag (PRT_SEC_CFG_EN p) then installSak s2 p y.an.val y.key else s2)
        | none => .next s2

/-- MKA_HELLO (R411): every 2 s. -/
def execMkaHello (p : Port) (s : State) : Out :=
  let k := s.key p.val
  if !macUp s p.val || k.cak.isNone || decide (s.now < k.helloAt + 2000000000) then .next s
  else .next (sendMka s p.val none)

/-- MKA_LIFE_TIME (R411): a peer silent for 6 s; the association's SAs are removed and the handshake restarts. -/
def execMkaLifeTime (p : Port) (sc : Fin 16) (s : State) : Out :=
  let p := p.val
  match (s.key p).peers.find? (fun x => x.sc == sc.val) with
  | none => .next s
  | some x =>
    if s.fatal || decide (s.now < x.heard + 6000000000) then .next s
    else
      let s1 := secClear s p
      .next (if s1.flag (PRT_STAT_LINK p) then pairBegin s1 p else s1)

/-- The packet number at which a new SAK is due (R411). -/
def rekeyPn (s : State) (p : Nat) : Nat := if s.get (PRT_SEC_CFG_CS p) < 2 then 0xC0000000 else 0xC000000000000000

/-- REKEY (R411). -/
def execRekey (p : Port) (s : State) : Out :=
  if !macUp s p.val || !s.flag (PRT_SEC_STAT_TXSA p.val) || decide (tget 0 s.txPn p.val < rekeyPn s p.val) then .next s
  else .next (newSak s p.val)

/-- PTP_KEY_EXPIRY (R415): 10 s after a new CAK the old PTP key is no longer accepted. -/
def execPtpKeyExpiry (p : Port) (s : State) : Out :=
  match (s.key p.val).oldPtp with
  | none => .next s
  | some (t, _, _) =>
    if s.fatal || decide (s.now < t + 10000000000) then .next s else .next (s.setKey p.val { s.key p.val with oldPtp := none })

end Sys2Proof.Machine
end

