-- ==== Sys2Proof/Machine/Power.lean ====
section
/-! DEFINITION. The power controller: next events (R461), the choice of a state (R460, R462, R464), wakes and transitions (R463,
R464), the power estimate (R459, R468). -/

namespace Sys2Proof.Machine

/-- Entry time of a state in ns (R462). -/
def entryNs : Nat → Nat
  | 0 => 0
  | 1 => 10
  | 2 => 1000
  | 3 => 100000
  | _ => 1000000

/-- Wake bound of a state in ns (R458). -/
def wakeNs : Nat → Nat
  | 0 => 0
  | 1 => 40
  | 2 => 3000
  | 3 => 2000000
  | _ => 400000000

/-- The shallowest state a unit is in or on its way to. -/
def shallow (s : State) (k : Nat) : Nat := min (curPs s k) ((s.toPs k).getD (curPs s k))

/-! ### Next events (R461) -/

/-- E(p) and its cause as PWR_PORT_WHY codes it: 0 none, 1 now, 2 timed entry, 3 NEXTEV, 4 Sync. -/
structure PortEv where
  why : Nat
  time : Nat
  deriving DecidableEq, Repr

/-- What makes the next event now; a frame of the device itself may be ready for the port. -/
def evNow (s : State) (p : Nat) : Bool :=
  !(s.port p).jobs.isEmpty ||
  (List.range 8).any (fun tc => s.get (PRT_GATE_OPEN p) / 2 ^ tc % 2 == 1 && (s.queue p tc).any (fun f => !f.held)) ||
  (s.queue p 8).any (fun f => f.due && !f.cue) || s.flag (PRT_MM_HOLD p) ||
  (s.flag (SP_CTL_EN (p / 8)) && (tget none s.nextev p).isNone)

/-- Whether a Sync of a time base will leave on a port (R321, R461): a master port that may send, in a domain with a live slave port. -/
def syncDue (s : State) (n p : Nat) : Bool :=
  ptpMode s n && masterPort s n p && ptpMaySend s n p && (s.flag (PTP_STAT_A_LIVE n) || s.flag (PTP_STAT_B_LIVE n))

/-- The timed events of a port: cause and time. -/
def evTimes (s : State) (p : Nat) : List (Nat × Nat) :=
  ((s.queue p 8).filterMap (fun f => if !f.cue && !f.due && !f.arriving then some (2, f.t) else none)) ++
  (if s.flag (SP_CTL_EN (p / 8)) then ((tget none s.nextev p).map (fun t => (3, t))).toList else []) ++
  ((List.range 8).filterMap (fun n =>
    if syncDue s n p then some (4, (s.tickNs + ((tget none s.syncNext (n * 128 + p)).getD 0 - s.now)) % 2 ^ 32) else none))

/-- The earlier of two events; the first on a tie. -/
def evEarlier (now : Nat) (a b : Nat × Nat) : Nat × Nat := if diff32 b.2 now < diff32 a.2 now then b else a

/-- E(p). -/
def portEv (s : State) (p : Nat) : PortEv :=
  if evNow s p then ⟨1, 0⟩
  else match evTimes s p with
  | [] => ⟨0, 0⟩
  | e :: r =>
    let x := r.foldl (evEarlier s.tickNs) e
    if isPast x.2 s.tickNs then ⟨1, 0⟩ else ⟨x.1, x.2⟩

/-- Nanoseconds to the next event of a port; none without an event. -/
def evDist (s : State) (p : Nat) : Option Nat :=
  let e := portEv s p
  if e.why = 0 then none else if e.why = 1 then some 0 else some (diff32 e.time s.tickNs).toNat

/-- The ports whose events bound a unit. -/
def evPorts (k : Nat) : List Nat :=
  match levelOf k with
  | 2 => [k - 21]
  | 3 => (List.range 8).map (8 * (k - 5) + ·)
  | 4 => (List.range 32).map (32 * (k - 1) + ·)
  | _ => []

/-- The earliest event among a unit's ports. -/
def unitDist (s : State) (k : Nat) : Option Nat :=
  (evPorts k).foldl (fun m p =>
    match m, evDist s p with
    | some a, some b => some (min a b)
    | none, d => d
    | m, none => m) none

/-! ### Choosing a state (R460, R462, R464) -/

/-- No signal on any active lane for 10 ms in STATE 1. -/
def silent (s : State) (p : Nat) : Bool :=
  s.get (PRT_STAT_STATE p) == stAn && decide (tget 0 s.quiet p + 10000000 ≤ s.now) &&
  (List.range 4).all (fun i => !s.flag (LN_STAT_ACTIVE (4 * p + i)) || !s.flag (LN_STAT_SIG_DET (4 * p + i)))

/-- Ring ports of enabled carafe entries (R211), and linked Ulicon ports (R509). -/
def ringPort (s : State) (p : Nat) : Bool :=
  (isUlc s p && linked s p) || (List.range 64).any (fun c => s.flag (CRF_CAR_CFG_EN c) &&
    (s.get (CRF_CAR_RING_A_IN c) == p || s.get (CRF_CAR_RING_A_OUT c) == p || s.get (CRF_CAR_RING_B_IN c) == p ||
     s.get (CRF_CAR_RING_B_OUT c) == p))

/-- Deepest state the floors of R460 and R464 leave a unit. -/
def floorOf (s : State) (k : Nat) : Nat :=
  match levelOf k with
  | 2 =>
    let p := k - 21
    if ringPort s p then 0
    else if linked s p then (if silent s p then 3 else 2)
    else if s.get (PRT_MODE_MODE p) ≠ 0 ∧ s.get (PRT_STAT_STATE p) ≠ stRetired then 3 else 4
  | 3 => if (evPorts k).any (linked s) then 1 else 4
  | 4 =>
    if (List.range 128).any (linked s) then 1
    else if (storedIn s (k - 1)).isEmpty then 4 else 2
  | 5 =>
    if (List.range 4).any (fun i => shallow s (sliceK i) ≤ 1) || s.dma.any (fun e => e.2.job) || s.flag SEC_MB_STAT_BUSY
    then 0 else 1
  | _ => 4

/-- Whether a state is used for a unit type (R458). -/
def psUsed (k x : Nat) : Bool :=
  match levelOf k with
  | 3 => x != 3
  | 4 => x != 3
  | 5 => x ≤ 1
  | _ => true

/-- REQ and TOL of a unit allow a state (R17, R18, R462). -/
def hostAllows (s : State) (k x : Nat) : Bool :=
  let tol := s.get (SHELL_LATTOL_TOL (shellBase k))
  decide (x ≤ min 4 (s.get (SHELL_PWR_REQ (shellBase k)))) && (tol == 0xFFFFFFFF || decide (wakeNs x ≤ tol))

/-- The children whose states bound a unit (R464): all but the lanes of a port's active set. -/
def boundKids (s : State) (k : Nat) : List Nat :=
  ((List.range (childCount k)).map (childBase k + ·)).filter (fun c =>
    levelOf k != 2 || !s.flag (LN_STAT_ACTIVE (c - 149)))

/-- Whether the controller may choose a state for a unit (R462, R464). -/
def psAllowed (s : State) (k x : Nat) : Bool :=
  psUsed k x && hostAllows s k x && decide (x ≤ floorOf s k) &&
  (match unitDist s k with
   | some d => decide (entryNs x + wakeNs x + s.get PWR_CTL_WAKE_MARGIN ≤ d)
   | none => true) &&
  (boundKids s k).all (fun c => decide (x ≤ shallow s c)) &&
  (levelOf k != 2 || (activeLanes s (k - 21)).all (fun l => hostAllows s (laneK l) x))

/-- The state the controller chooses for a unit. -/
def psChoice (s : State) (k : Nat) : Nat :=
  if levelOf k = 1 then
    let l := k - 149
    let p := laneP l
    if !s.flag (LN_STAT_ACTIVE l) then 4
    else if 3 ≤ min (curPs s (portK p)) ((s.toPs (portK p)).getD 4) then curPs s (portK p)
    else if linked s p then 0
    else ([4, 3, 2, 1].find? (hostAllows s k)).getD 0
  else ([4, 3, 2, 1].find? (psAllowed s k)).getD 0

/-- Whether the controller acts on a unit now (R466). -/
def pwrRuns (s : State) (k : Nat) : Bool := !s.fatal && s.flag PWR_CTL_RUN && !(s.rst k).running

/-- The state for a parent of a unit that wakes to `x` (R464): no deeper, in PS0 to PS2 for a port group or slice; the device in PS0 where
its slices then are in PS0 or PS1. -/
def psParent (a x : Nat) : Nat := if a = 0 then (if x ≤ 1 then 0 else 1) else if x = 3 then 2 else x

/-- The machine with the NEXTEV that an evaluation uses: the old value where one is written in its very clock (R470). -/
def evalView (s : State) : State :=
  { s with nextev := s.nextevWas.foldl (fun t e => if e.2.1 = s.now then tset none t e.1 e.2.2 else t) s.nextev }

/-- EVALUATION (R462 to R464, R470): the unit begins to enter a deeper state, or its wake and that of the units above it. A lane of a port
in PS3 or PS4 moves with it. -/
def execEvaluation (u : Fin 661) (s : State) : Out :=
  let k := u.val
  let x := psChoice (evalView s) k
  if !pwrRuns s k || (s.toPs k).getD (curPs s k) == x then .next s
  else if curPs s k ≤ x then .next (psBegin s k x)
  else
    let ups := (withParents k).filter (fun a => a != k && decide (psParent a x < max (curPs s a) ((s.toPs a).getD 0)))
    .next (psBegin (ups.foldl (fun t a => psBegin t a (psParent a x)) s) k x)

/-- REQ or TOL of a unit is lowered while it is deeper: its wake begins at once (R470). Those of an active lane bound its port, with which
it moves (R464). -/
def lowered (s : State) (k0 : Nat) : State :=
  let k := if levelOf k0 = 1 ∧ s.flag (LN_STAT_ACTIVE (k0 - 149)) then parentOf k0 else k0
  if decide (k < 661) && decide (psChoice s k < curPs s k) then
    (match execEvaluation (Fin.ofNat 661 k) s with | .next t => t | _ => s)
  else s

/-- WAKE (R461, R463): a unit wakes in time for its next event; a unit without events when its choice is PS0. -/
def execWake (u : Fin 661) (s : State) : Out :=
  let k := u.val
  let soon := match unitDist s k with
    | some d => decide (d ≤ s.get PWR_CTL_WAKE_MARGIN + wakeNs (curPs s k))
    | none => false
  if !pwrRuns s k || curPs s k == 0 || levelOf k == 1 || !(soon || psChoice s k == 0) then .next s else .next (demand s k)

/-- The state of an active lane once its port has gone from `was` to `x` (R460, R464): with a linked port PS0, or PS3 in PS3; with another
one it enters and leaves PS3 and PS4 with the port, and is no shallower than the port. -/
def laneWith (s : State) (p was x l : Nat) : Nat :=
  if linked s p then (if x = 3 then 3 else 0)
  else if 3 ≤ max was x then x
  else max x (curPs s (laneK l))

/-- TRANSITION_COMPLETE (R463, R464): CUR takes the state; no child completes its wake before its parent, and no parent its
entry before its children; the lanes of a port's active set move with it, and a port that has left PS3 resumes Clause 73 (R460). -/
def execTransitionComplete (u : Fin 661) (s : State) : Out :=
  let k := u.val
  match s.toPs k with
  | none => .next s
  | some x =>
    let early := if x < curPs s k then k != 0 && decide (x < curPs s (parentOf k))
      else (boundKids s k).any (fun c => decide (curPs s c < x))
    if !pwrRuns s k || early then .next s
    else
      let was := curPs s k
      let s1 := psNow s k x
      if levelOf k ≠ 2 then .next s1
      else
        let p := k - 21
        let s2 := (activeLanes s p).foldl (fun t l => t.set (SHELL_PWR_CUR (shellBase (laneK l))) (laneWith s p was x l)) s1
        .next (if was = 3 ∧ x < 3 ∧ s.get (PRT_STAT_STATE p) = stAn then
            anBegin { s2 with quiet := tset 0 s2.quiet p s2.now } p (s.get (PRT_STAT_CUR_MODE p)) (s.get (PRT_STAT_ACT_LANES p))
          else s2)

/-! ### The estimate (R459, R468) -/

/-- Typical power of a unit in mW: the fatal state has stopped the schedule processors (R448). -/
def unitMw (s : State) (k : Nat) : Nat :=
  let c := curPs s k
  match levelOf k with
  | 1 => if c = 0 then ([150, 220, 350, 500].getD (s.get (LN_STAT_RATE (k - 149))) 500) else [0, 400, 200, 60].getD c 0
  | 2 => [450, 200, 50, 10].getD c 0
  | 3 =>
    let sp := if s.fatal then 0 else match (s.sp (k - 5)).run with | .exec => 375 | .waitTick => 375 | .waitTime => 375 | _ => 0
    sp + [8000, 2000, 500, 500].getD c 0
  | 4 => [15500, 6000, 2250, 2250].getD c 0
  | _ => if c = 0 then 20400 else 11000

/-- PWR_EST.EST in 0.1 W, to the nearest. -/
def powerEst (s : State) : Nat := (((unitsOf 0).map (unitMw s)).sum + 50) / 100

/-- PWR_PORT_WHY of a port: a floor of PS0 shows where no event does (DESIGN CHOICE, log entry 103). -/
def portWhy (s : State) (p : Nat) : Nat :=
  let e := portEv s p
  if e.why = 0 ∧ ringPort s p then 5 else e.why

end Sys2Proof.Machine
end

