-- ==== Sys2Proof/Machine/Ulicon.lean ====
section
/-! DEFINITION. Ulicon links and the members of a compound node (R493 to R515): time words, summaries, power reports, identity
digests, frames that cross, the loss of a pair or a member, unit resets through a mirror. -/

namespace Sys2Proof.Machine

/-- Whether a Ulicon port takes what its link carries: enabled, linked, outside the fatal state. -/
def ulcTakes (s : State) (p : Nat) : Bool := isUlc s p && macUp s p

/-- Whether a Ulicon port carries cells (R495). -/
def ulcCarries (s : State) (p : Nat) : Bool := ulcTakes s p && s.flag (PRT_ULC_STAT_UP p)

/-! ### Time (R502, R504) -/

/-- Whether port `p`'s link leads towards the leader of the outermost depth at which another member leads (R502): its peer leads there, or,
without a link to the leader, reaches it; or, where the device has no link to it at that depth, it is heard of over this inner link. -/
def towardsLeader (s : State) (p : Nat) : Bool :=
  match followDepth s with
  | none => false
  | some d =>
    let c := s.get (PRT_ULC_DEPTH p)
    let l := s.get (ULC_CN_STAT_LEADER d)
    let m := s.get (PRT_ULC_PEER p)
    let far := directMask s d / 2 ^ l % 2 == 0
    if c = d then m == l || (far && (s.member d m).direct / 2 ^ l % 2 == 1)
    else decide (c < d) && far && (s.member d l).reach.isSome && (s.member d l).via.1 == c && (s.member d l).via.2.1 == m

/-- Whether the time words of port `p` are the ones a follower uses: of the links towards the leader that are up, those of the outermost
depth. -/
def timeLink (s : State) (p : Nat) : Bool :=
  towardsLeader s p && (List.range 128).all (fun q =>
    !(ulcCarries s q && towardsLeader s q && decide (s.get (PRT_ULC_DEPTH p) < s.get (PRT_ULC_DEPTH q))))

/-- The offset of one exchange in 1/256 ns (R502); halves round as R316's divisions do. -/
def timeOffset (t1 t2 t3 t4 : Int) : Int := divNear ((t2 - t1) + (t4 - t3)) 2 - (t2 - t1)

/-- The first offset after COMMIT (R504): a step without the jump check, the tick re-phased from the leader's. -/
def memberJoin (s : State) (ofs : Int) (t0 num : Nat) : State :=
  let s1 := stepDue s ⟨s.tickTb, 256 * ofs, none, if s.tick.run then some (65536 * t0, num) else none, none, false⟩
  { s1 with ulc := { s1.ulc with joined := true, ofs := [] } }

/-- TIME_WORD (R497, R502, R504): an exchange with the peer of port `p`; `t0` and `num` are the start and number of the leader's
tick. A device that has not joined also joins a synchronised compound that it does not follow yet. -/
def execTimeWord (p : Port) (t1 t2 t3 t4 : Int) (t0 num : Word) (sync : Bool) (s0 : State) : Out :=
  let p := p.val
  let n := s0.tickTb
  let ofs := timeOffset t1 t2 t3 t4
  if !s0.locked || !ulcCarries s0 p then .next s0
  else
  let s := s0.setPort p { s0.port p with ulcRx := ofInt 48 t2 }
  if timeLink s p then
    let s1 := { s with ulc := { s.ulc with sync := sync } }
    if s1.ulc.joined then .next { s1 with ulc := { s1.ulc with ofs := s1.ulc.ofs ++ [ofs] } }
    else .next (memberJoin s1 ofs t0.toNat num.toNat)
  else if sync && !s.ulc.joined && !s.flag (SYN_STAT_SYNC n) then .next (memberJoin s ofs t0.toNat num.toNat)
  else .next s

/-- A time word as it leaves port `p` (R48, R497): time base, start and number of the tick, SYNC, the word's transmit stamp, and the receive
stamp of the peer's last one, in 1/256 ns; `var` is the variable part of its transmission. -/
def timeWordOf (s : State) (p var : Nat) : List Nat :=
  let n := s.tickTb
  [s.tbStamp n, tickStart s ((s.tick.idx : Int) - 1), s.get GLB_TICK_NUM_NUM, s.get (SYN_STAT_SYNC n), txStamp s p var n 0 / 256,
   (s.port p).ulcRx]

/-- A time word leaves port `p`, kind 1: it is due once per microsecond (R497). The variable part of its transmission, below 1.29 ns (R500),
is a free value. -/
def sendTime (s : State) (p : Nat) : State :=
  let (v, s1) := s.draw
  let var := v % 329
  (noteTx s1 p var).emit (.ulicon p 1 (timeWordOf s1 p var))

/-- What Ulicon port `p` sends (R497, R498): a time word, then the summaries, kind 2, once per microsecond; the summaries alone where they
changed. -/
def sendWords (s : State) (p : Nat) : State :=
  let ms := summariesTo s (s.get (PRT_ULC_DEPTH p)) (s.get (PRT_ULC_PEER p))
  let timed := decide ((s.port p).ulcAt + 1000 ≤ s.now)
  if !ulcCarries s p || (!timed && decide (ms.flatten = (s.port p).ulcSent)) then s
  else
    let s1 := s.setPort p { s.port p with ulcAt := if timed then s.now else (s.port p).ulcAt, ulcSent := ms.flatten }
    ms.foldl (fun t d => t.emit (.ulicon p 2 d)) (if timed then sendTime s1 p else s1)

/-- CUR of the device's own mirror at each depth in use (R507, R508): what power reports tell. -/
def ownCurs (s : State) : List Nat :=
  (List.range 4).map (fun c => if cnOn s c then getField (mirrorWord s c (cnMe s c) 3) 8 3 else 0)

/-- TIME_WORDS_AND_SUMMARIES_SENT (R497, R498): every link that is up sends; a changed CUR, of the device or of an inner compound, goes out as
a power report, kind 10: the CUR of each depth's member. -/
def execTimeWordsAndSummariesSent (s : State) : Out :=
  if s.fatal then .next s
  else
    let s1 := (List.range 128).foldl sendWords s
    .next (if s1.ulc.cur = ownCurs s1 ∨ (List.range 128).all (fun p => !ulcCarries s1 p) then s1
      else { s1 with ulc := { s1.ulc with cur := ownCurs s1 } }.emit (.ulicon 128 10 (ownCurs s1)))

/-! ### Summaries, presence (R497, R498, R507, R508) -/

/-- A member is heard of. -/
def hear (s : State) (c m : Nat) (direct : Bool) : State :=
  let x := s.member c m
  showPresent (s.setMember c m { x with reach := some s.now, at_ := if direct then some s.now else x.at_, lost := false }) c

/-- A pair of other members has gone down (R498, R508): a member reports that it no longer reaches directly one that is present, other than
this device. Every member computes the same bits. -/
def pairFell (s : State) (c : Nat) (old new : Nat) : Bool :=
  (List.range 4).any (fun k =>
    k != cnMe s c && old.testBit k && !new.testBit k && (s.get (ULC_CN_STAT_PRESENT c)).testBit k)

/-- FAULT_SUMMARY (R497, R498, R507, R508): a member's shell for its mirror and the members it reaches, from the peer itself, relayed by it,
or, of an outer depth, passed on by it. -/
def execFaultSummary (p : Port) (x : Heard) (shell : List Word) (present direct : Fin 16) (s : State) : Out :=
  let p := p.val
  let c := s.get (PRT_ULC_DEPTH p)
  let q := s.get (PRT_ULC_PEER p)
  let d := x.depth.val
  let m := x.m.val
  if !ulcCarries s p || decide (d < c) || !cnOn s d || m == cnMe s d then .next s
  else
    let old := s.member d m
    let s1 := hear s d m (d == c && m == q)
    let s2 := s1.setMember d m { s1.member d m with
      shell := shell.take 16, present := present.val, direct := direct.val, via := (c, q, x.hop),
      ps := if 3 < shell.length then getField (shell.getD 3 0) 8 3 else old.ps }
    let s3 := if pairFell s2 d old.direct direct.val then raiseComp s2 d 1 else s2
    let mine := s3.get (ULC_CN_STAT_PRESENT d)
    .next (if present.val ||| mine = mine then s3 else raiseComp s3 d 3)

/-- Requests and tolerances for a member that is itself a compound go on to its own members (R508): kind 8, a depth lower. -/
def reportInward (s : State) (c : Nat) (req : Option (Fin 8)) (tol : Option Word) : State :=
  if c = 0 then s
  else
    let s1 := match req with | some v => s.emit (.ulicon 128 8 [c - 1, 3, v.val]) | none => s
    match tol with | some v => s1.emit (.ulicon 128 8 [c - 1, 4, v.toNat]) | none => s1

/-- POWER_REPORT (R497, R508): a member's power state, and requests and tolerances that software wrote to the compound shell
there. -/
def execPowerReport (c m : Fin 4) (req : Option (Fin 8)) (tol : Option Word) (cur : Option (Fin 8)) (s : State) : Out :=
  if s.fatal || !cnOn s c.val then .next s
  else
    let s1 := match cur with | some v => s.setMember c.val m.val { s.member c.val m.val with ps := v.val } | none => s
    let s2 := match req with | some v => s1.set (SHELL_PWR_REQ (shellBase 0)) v.val | none => s1
    let s3 := match tol with | some v => s2.setW (SHELL_LATTOL (shellBase 0)) v | none => s2
    .next (if req.isSome || tol.isSome then lowered (reportInward s3 c.val req tol) 0 else s3)

/-- PAIR_DOWN (R498, R508): no summary over any link of the group for 2 microseconds. -/
def execPairDown (c m : Fin 4) (s : State) : Out :=
  let x := s.member c.val m.val
  match x.at_ with
  | none => .next s
  | some t =>
    if s.fatal || decide (s.now < t + 2000) then .next s
    else .next (raiseComp (s.setMember c.val m.val { x with at_ := none, direct := 0 }) c.val 1)

/-- MEMBER_LOST (R508, R510, R515): no summary from the member, directly or by relay, for 2 microseconds. Its mirror keeps its words;
CHILD shows it until it is heard again. A member that runs on makes it a partition, which latches in both parts (log entry 114). -/
def execMemberLost (c : Fin 4) (l : LostMember) (s : State) : Out :=
  let m := l.m
  let x := s.member c.val m.val
  match x.reach with
  | none => .next s
  | some t =>
    if s.fatal || decide (s.now < t + 2000) then .next s
    else
      let s1 := showPresent (s.setMember c.val m.val { UlcMem.rst with shell := x.shell, ps := x.ps, lost := true }) c.val
      let s2 := raiseComp s1 c.val 0
      .next (if l.runs then raiseComp s2 c.val 3 else s2)

/-- MIRROR_RESET (R507, R515): RST written to the mirror of member `m`; a lost member's has no effect. -/
def execMirrorReset (c m : Fin 4) (s : State) : Out :=
  let c := c.val
  if s.fatal || !cnOn s c then .next s
  else if m.val = cnMe s c then .next (if c = 0 then softReset s 0 else compReset s (c - 1))
  else if s.get (ULC_CN_STAT_PRESENT c) / 2 ^ m.val % 2 = 0 then .next s
  else .next (s.emit (.ulicon 128 7 [c, m.val]))

/-! ### Identity (R495) -/

/-- IDENTITY_DIGEST (R495, R508, R515): the peer's digest over a paired port. Where it agrees the link carries cells from now on; else
it is held down. -/
def execIdentityDigest (p : Port) (digest : Bytes) (s : State) : Out :=
  let p := p.val
  let c := s.get (PRT_ULC_DEPTH p)
  if !ulcTakes s p || s.get (PRT_SEC_STAT_PAIR p) != 2 then .next s
  else if digest = ownDigest s then
    .next (hear ((s.set (PRT_ULC_STAT_UP p) 1).set (PRT_ULC_STAT_IDM p) 0) c (s.get (PRT_ULC_PEER p)) true)
  else .next (raiseComp ((s.set (PRT_ULC_STAT_UP p) 0).set (PRT_ULC_STAT_IDM p) 1) c 4)

/-! ### Frames across members (R498, R499) -/

/-- A timed-release frame from another member enters the queue of its egress port, with its number there. -/
def crossTimed (s : State) (p : Nat) (f : QFrame) (cue late : Bool) (t : Nat) : State :=
  if s.get (PRT_GRD_STAT_STATE p) = 3 ∨ ¬ admits s p 8 (cellsOf f.len) then dropBuf s p
  else if (s.queue p 8).length ≥ 256 then addCnt s (PRT_CNT_TRQ_FULL p) 1
  else trqPlace s p { f with arriving := false } cue.toNat late.toNat t

/-- ULICON_FRAME (R497 to R499): the cells of a frame that crosses from another member. As the relay of a pair the device sends them
on; else the frame takes stage 6 with its header's decision: no filter; into a redundancy group it takes the number of its binding or
proxy (R236), elsewhere none of its own. -/
def execUliconFrame (p : Port) (cells : Nat) (relay : Option (Fin 4)) (bytes : Bytes) (len : Nat) (head : CellHead)
    (tc : Fin 8) (trq cue lateSkip : Bool) (t : Word) (s : State) : Out :=
  let p := p.val
  if !ulcCarries s p then .next s
  else match relay with
  | some m =>
    let c := s.get (PRT_ULC_DEPTH p)
    let dest := (List.range 128).find? (fun q =>
      isUlc s q && s.flag (PRT_ULC_STAT_UP q) && s.get (PRT_ULC_DEPTH q) == c && s.get (PRT_ULC_PEER q) == m.val)
    match dest with
    | none => .next (dropBuf s (ulcLow s p))
    | some q => .next (sendCells (s.incBy (PRT_ULC_STAT_RELAYED p) cells) q (groupLinks s q) head tc.val
        (if trq then some (t.toNat, cue, lateSkip) else none) bytes)
  | none =>
    let x := parse bytes
    let v := classify s p x
    let o := openFrame s p bytes len [] false []
    let fr := { o.fr with
      inPort := ulcLow s p, handle := head.handle.map (·.toNat), tc := tc.val, vid := v.vid, pcp := v.pcp, dei := v.dei, tagged := v.tagged
      recovered := head.recovered }
    let ll := linkLocal bytes
    let (ps, host) := decide6 s (ulcLow s p) v.vid x.da ll
    let o1 := { o with
      fr := fr, handle := fr.handle, toHost := host,
      learn := bits (s.strW 5 v.vid 8) 30 30 == 1 && x.sa / 2 ^ 40 % 2 == 0 }
    let s0 := { s with ids := s.ids + 1 }
    let inGroup := ps.any (fun q => (groupOf s q).isSome)
    let (all, s1) := numbersFor s0 { o1 with handle := if inGroup then o1.handle else none } none x.sa ps ll
    let ns := all.map (fun e => if (groupOf s e.1).isSome then e else (e.1, none))
    if trq then .next (passEnd (ns.foldl (fun u e => crossTimed u e.1 { fr with seq := e.2 } cue lateSkip t.toNat) s1) o1 false)
    else
      let (o2, s2) := admitAll s1 o1 false ns
      .next (passEnd s2 o2 false)

end Sys2Proof.Machine
end

