-- ==== Sys2Proof/Machine/Views.lean ====
section
/-! DEFINITION. What a BAR0 word reads as (R5, R6, R25, R27): stored fields, and the fields that show the live condition of the block
that owns them. Reading a word here has no side effect; reads that have one are commands of their own. -/

namespace Sys2Proof.Machine

/-! ### Shells (R12 to R17, R507, R508) -/

/-- A word of a shell, by the base of the shell. -/
def shellView (s : State) (b i : Nat) : Word :=
  if b < 0x20000 then devWord s ((b - 0x10000) / 64) i
  else
    let c := (b - 0xC00000) / 0x200
    match (b - 0xC00000) % 0x200 / 0x40 with
    | 0 => compWord s c i
    | m + 1 => mirrorWord s c m i

/-! ### Other live fields -/

/-- PRT_* words with a live field: STATE (R62), cells in use (R111), timed-release entries (R112), the latched counter high words (R113). -/
def portView (s : State) (p o : Nat) (stored : Word) : Word :=
  if o = 0x004 then setField stored 5 3 (shownState s p)
  else if 0x120 ≤ o ∧ o < 0x140 then setField stored 0 16 (min 0xFFFF (queueUse s p ((o - 0x120) / 4)))
  else if o = 0x140 then setField stored 0 9 (s.queue p 8).length
  else if 0x200 ≤ o ∧ o < 0x278 ∧ o % 8 = 4 then w32 (tget 0 s.ctrHi (p * 16 + (o - 0x200) / 8))
  else stored

/-- STATE of a schedule processor (R146). -/
def spState : SpRun → Nat
  | .halted => 0
  | .exec => 1
  | .waitTick => 2
  | .waitTime => 3
  | .mck => 4
  | .reload => 5

/-- SP_* words with a live field (R146, R148); table memory (R116). -/
def spView (s : State) (g o : Nat) (stored : Word) : Word :=
  let x := s.sp g
  if 0x8000 ≤ o then w32 (s.mem.getLE (0x300000 + 0x10000 * g + o) 4)
  else if o = 4 then
    w32 (spState x.run * 2 ^ 29 + bitAt x.inTrap 28 + getField stored 22 6 * 2 ^ 22 + x.stack.length % 16 * 2 ^ 16 + x.pc % 8192)
  else if o = 0x40 then setField stored 31 1 (decide (s.now < x.csEnd)).toNat
  else if o = 0xC then (if s.locked then w32 s.budget else stored)
  else stored

/-- TB_* words with a live field (R299, R301, R303). -/
def tbView (s : State) (n o : Nat) (stored : Word) : Word :=
  let t := s.tb n
  match o with
  | 0x04 => w32 t.ns
  | 0x14 => if n < 8 then w32 (ofInt 48 t.servo) else 0
  | 0x18 => if n < 8 then w32 (t.servoHi % 65536) else 0
  | 0x24 => setField stored 2 1 (n < 8 && t.clamps).toNat
  | _ => stored

/-- FROZEN of a time base (R332): any path of a node or slave port is frozen. -/
def anyFrozen (s : State) (n : Nat) : Bool :=
  (List.range 16).any (fun j => s.flag (NODE_STAT_F0 n j) || s.flag (NODE_STAT_F1 n j)) ||
  s.flag (PTP_STAT_A_FRZ n) || s.flag (PTP_STAT_B_FRZ n)

/-- The ring that DB_RSEL of a function selects (R367): the one created under the local number (R341), or the place the number has in the
function's range, whose counters stay from a ring that is gone. -/
def selRing (s : State) (f : Nat) : Option (Nat × Ring) :=
  let kind := s.get (DB_RSEL_KIND f)
  let loc := s.get (DB_RSEL_RING f)
  if kind < 4 then
    match ringOf s kind f loc with
    | some g => some (kind, s.ring kind g)
    | none =>
      match globalRing s kind f loc with
      | some g => if (s.ring kind g).created then none else some (kind, s.ring kind g)
      | none => none
  else if kind = 4 ∧ loc = 0 then some (4, s.ring 4 f)
  else none

/-- DB_* words with a live field (R367, R368). -/
def dbView (s : State) (f o : Nat) (stored : Word) : Word :=
  if o = 0x60 then w32 (bitAt s.halted 31 + s.get GLB_HIR_COUNT)
  else if o = 0x44 ∨ o = 0x48 ∨ o = 0x4C ∨ o = 0x50 then
    match selRing s f with
    | none => 0
    | some (kind, r) =>
      let ahead := (r.copies.filter (fun e => (e.1 + 65536 - r.tail) % 65536 < 32768)).length
      match o with
      | 0x44 => w32 (r.pub % 65536 * 65536 + (if kind = 3 then r.head else r.tail) % 65536)
      | 0x48 => w32 (bitAt r.created 31 + bitAt r.parked.isSome 30 + r.log2 % 16 * 65536 + min 16 ahead)
      | 0x4C => w32 (min 65535 r.cntA * 65536 + min 65535 r.cntB)
      | _ => w32 (min (2 ^ 32 - 1) r.cntC)
  else stored

/-- STATE of a DMA channel (R390). -/
def dmaState (s : State) (x : DmaCh) : Nat :=
  if s.halted then 5
  else if x.parked then 4
  else if x.withdrawn then 3
  else if x.waiting then 2
  else if x.job then 1 else 0

/-- DMA_* words with a live field (R390, R392). -/
def dmaView (s : State) (o : Nat) (stored : Word) : Word :=
  if o < 0x1000 ∧ o % 0x40 = 8 then setField stored 29 3 (dmaState s (s.ch (o / 0x40)))
  else if o = 0x2004 then w32 (staging s / 1024 % 8192 * 65536 + inFlightJobs s % 64)
  else stored

/-- Word `i` of a byte string. -/
def wordAt (b : Bytes) (i : Nat) : Word := w32 (leNat ((b.drop (4 * i)).take 4))

/-- SEC_* words (R420 to R423) and the mailbox buffer (R418). -/
def secView (s : State) (o : Nat) (stored : Word) : Word :=
  if o = 0 then setField (setField stored 31 1 (unowned s).toNat) 0 8 (logN s)
  else if o = 4 then w32 (((List.range 4).map (fun i => (s.slot_ i).state * 4 ^ i)).sum)
  else if 0x100 ≤ o ∧ o < 0x200 then
    (if (o - 0x100) % 0x40 < 48 then wordAt (beBytes 48 (s.slot_ ((o - 0x100) / 0x40)).hash) ((o - 0x100) % 0x40 / 4) else 0)
  else if 0x200 ≤ o ∧ o < 0x230 then wordAt ownIdh ((o - 0x200) / 4)
  else if 0x300 ≤ o ∧ o < 0x330 then wordAt (logDigest s) ((o - 0x300) / 4)
  else if 0x1000 ≤ o ∧ o < 0x4BC0 then wordAt ((logAll s).getD ((o - 0x1000) / 0x40) []) ((o - 0x1000) % 0x40 / 4)
  else if 0x8000 ≤ o ∧ o < 0xC000 then wordAt (tget [] s.sec.trust ((o - 0x8000) / 0x40)) ((o - 0x8000) % 0x40 / 4)
  else if 0x10000 ≤ o ∧ o < 0x20000 then w32 (s.mem.getLE (0x900000 + o) 4)
  else stored

/-- FLT_* words with a live field (R451, R456). -/
def fltView (s : State) (o : Nat) (stored : Word) : Word :=
  if o = 4 then setField stored 31 1 (decide (faultPins s = (false, true))).toNat
  else if 0x100 ≤ o ∧ o < 0x154 then
    w32 (((List.range 32).map (fun i =>
      bitAt (s.srcs.any (fun e => e.1 / 16 == 32 * ((o - 0x100) / 4) + i && e.1 / 16 < 661)) i)).sum)
  else stored

/-- PWR_* words with a live field (R468, R469). -/
def pwrView (s : State) (o : Nat) (stored : Word) : Word :=
  if o = 8 then w32 (powerEst s % 65536)
  else if 0x1000 ≤ o ∧ o < 0x1400 then
    (if o % 8 = 0 then w32 (portEv s ((o - 0x1000) / 8)).time else w32 (portWhy s ((o - 0x1000) / 8)))
  else stored

/-! ### The whole of BAR0 -/

/-- What the word at a BAR0 offset (a multiple of 4) reads as. -/
def barRead (s : State) (off : Nat) : Word :=
  let stored := rword s.regs off
  match shellBaseOf off with
  | some b => if off - b < 0x1C then shellView s b ((off - b) / 4) else 0
  | none =>
    if off < 0x20000 then stored
    else if off < 0x40000 then fltView s (off - 0x20000) stored
    else if off < 0x40900 then tbView s ((off - 0x40000) / 0x100) (off % 0x100) stored
    else if off < 0x50000 then stored
    else if off < 0x58000 then
      (if off % 0x1000 = 0x20 then setField stored 27 1 (anyFrozen s ((off - 0x50000) / 0x1000)).toNat else stored)
    else if off < 0x100000 then stored
    else if off < 0x200000 then portView s ((off - 0x100000) / 0x2000) (off % 0x2000) stored
    else if off < 0x300000 then stored
    else if off < 0x400000 then spView s ((off - 0x300000) / 0x10000) (off % 0x10000) stored
    else if 0x401000 ≤ off ∧ off < 0x401040 ∧ off % 0x10 = 0 then setField stored 0 18 (sliceFree s ((off - 0x401000) / 0x10))
    else if off < 0x510000 then stored
    else if off < 0x600000 then w32 (s.mem.getLE off 4)
    else if off < 0x700000 then stored
    else if off < 0x740000 then dbView s ((off - 0x700000) / 0x1000) (off % 0x1000) stored
    else if off < 0x800000 then stored
    else if off < 0x900000 then dmaView s (off - 0x800000) stored
    else if off < 0xA00000 then secView s (off - 0x900000) stored
    else if off < 0xB00000 then pwrView s (off - 0xA00000) stored
    else if 0xC10004 ≤ off ∧ off < 0xC10044 ∧ off % 0x10 = 4 then
      setField stored 24 4 (directMask s ((off - 0xC10004) / 0x10))
    else stored

end Sys2Proof.Machine
end

