-- ==== Sys2Proof/Machine/Writes.lean ====
section
/-! DEFINITION. What a write of a BAR0 word does (R5, R6, R27): the access codes, and, where a field starts something, the meaning
of the command of that name. The writer is the host or the boot engine (R475, R476). -/

namespace Sys2Proof.Machine

/-- The state a meaning answers with; the state before it where the meaning stops. -/
def stateOf (s : State) : Out → State
  | .next t => t
  | _ => s

/-- The word a write leaves in a register (R5): RW fields take the value, RW/L fields while they are not locked, W1C bits written 1
clear, every other bit stays. -/
def writtenWord (r : RegDesc) (open_ : Bool) (old v : Word) : Word :=
  let take := w32 (if open_ then r.rw ||| r.lk else r.rw)
  ((old &&& ~~~take) &&& ~~~(v &&& w32 r.w1c)) ||| (v &&& take)

/-- Whether a writer may write RW/L fields: until COMMIT, and from a GO or RESTART on the boot engine alone (R476). -/
def fieldsOpen (s : State) (engine : Bool) : Bool := !s.locked && (engine || !s.hostLocked)

/-- A write without side effects. -/
def plainWrite (s : State) (engine : Bool) (off : Nat) (v : Word) : State :=
  match regDesc off with
  | none => s
  | some r => s.setW off (writtenWord r (fieldsOpen s engine) (rword s.regs off) v)

/-- An access that R27 refuses: only the first is recorded (R29). -/
def refuseAccess (s : State) (write : Bool) (off : Nat) : State :=
  if (write && s.fatal) || s.flag GLB_ACC_ERR_VALID then s
  else ((s.set GLB_ACC_ERR_VALID 1).setB GLB_ACC_ERR_WRITE write).set GLB_ACC_ERR_OFFSET off

/-- A read of TB_SERVO_LO latches SERVO[47:32] for TB_SERVO_HI (R301). -/
def latchServo (s : State) (n : Nat) : State :=
  let t := s.tb n
  s.setTb n { t with servoHi := ofInt 48 t.servo / 2 ^ 32 }

/-- What a 4-byte read of the BAR0 word at `off` does besides returning it (R113, R288, R292, R301). -/
def readEffect (s : State) (off : Nat) : State :=
  let o := off - 0x40000
  if off < 0x40000 then s
  else if o < 0x900 then
    (if o % 0x100 = 0x04 then stateOf s (execTbNsRead (Fin.ofNat 9 (o / 0x100)) false s)
     else if o % 0x100 = 0x14 ∧ o < 0x800 then latchServo s (o / 0x100) else s)
  else if 0x1000 ≤ o ∧ o < 0x10C0 then
    (if o % 0x10 = 8 then stateOf s (execEvinStamp1Read (Fin.ofNat 12 ((o - 0x1000) / 0x10)) s) else s)
  else if 0x100000 ≤ off ∧ off < 0x200000 then
    let r := off % 0x2000
    if 0x200 ≤ r ∧ r < 0x278 ∧ r % 8 = 0 then
      stateOf s (execPortCounterLowRead (Fin.ofNat 128 ((off - 0x100000) / 0x2000)) (Fin.ofNat 15 ((r - 0x200) / 8)) s)
    else s
  else s

/-! ### Shells -/

/-- A write of a compound shell's REQ or TOL goes on to every member's device shell (R508): kind 8. -/
def compPower (s : State) (c i : Nat) (v : Word) : State :=
  let s1 := s.emit (.ulicon 128 8 [c, i, v.toNat])
  if !cnOn s c then s
  else lowered (if i = 3 then s1.set (SHELL_PWR_REQ (shellBase 0)) (v.toNat % 8) else s1.setW (SHELL_LATTOL (shellBase 0)) v) 0

/-- A write of word `i` of the shell whose registers begin at `b` (R13 to R21, R507). -/
def shellWrite (s : State) (engine : Bool) (b i : Nat) (v : Word) : State :=
  match shellKeyOf b with
  | none =>
    if i = 5 ∧ v.toNat % 2 = 1 then
      stateOf s (execMirrorReset (Fin.ofNat 4 ((b - 0xC00000) / 0x200)) (Fin.ofNat 4 ((b - 0xC00000) % 0x200 / 0x40 - 1)) s)
    else s
  | some k =>
    let u : ShellId := if k < 661 then .dev (Fin.ofNat 661 k) else .comp (Fin.ofNat 4 (k - 700))
    if i = 1 then stateOf s (execShellStatW1c u v s)
    else
      let s1 := plainWrite s engine (b + 4 * i) v
      if i = 5 ∧ v.toNat % 2 = 1 then stateOf s1 (execUnitReset u s1)
      else if 700 ≤ k ∧ (i = 3 ∨ i = 4) then compPower s1 (k - 700) i v
      else if i = 3 ∨ i = 4 then lowered s1 k
      else s1

/-! ### Global, process images, time bases -/

/-- A write of CRF_PI_SLOTn (R41): PUBLISH, TAKE. -/
def slotWrite (s : State) (engine : Bool) (n : Nat) (v : Word) : State :=
  let s1 := plainWrite s engine (CRF_PI_SLOT n) v
  let s2 := if getField v 4 1 = 1 then stateOf s1 (execPublish (Fin.ofNat 256 n) s1) else s1
  if getField v 5 1 = 1 then stateOf s2 (execTake (Fin.ofNat 256 n) s2) else s2

/-- EN of a generator or comparator is set: whether its target is already past (R295). Key 16 + j for generator j. -/
def enSet (s : State) (key tb target : Nat) (v : Word) : State :=
  { s with targetLate := tset false s.targetLate key (getField v 31 1 == 1 && isPast target (s.tbNs tb)) }

/-- A target written before its generator or comparator has fired is judged anew: LATE is for a target that was past when EN was
set, and stays past (R295). -/
def targetWritten (s : State) (key tb target : Nat) : State :=
  { s with targetLate := tset false s.targetLate key (tget false s.targetLate key && isPast target (s.tbNs tb)) }

/-- A comparator rewritten in the clock its target is reached (R311): the write wins, and CNT is as it was. The record and the request that
have gone out stay (log entry 11). -/
def unfire (s : State) (k : Nat) : State :=
  match (if s.fired.1 = s.now then s.fired.2.find? (fun e => e.1 == k) else none) with
  | some (_, v) => s.setW (TB_CMP_CNT k) v
  | none => s

/-- A generator rewritten in the clock its target is reached (R311): the pulse of this clock ends at once. -/
def unpulse (s : State) (j : Nat) : State :=
  if tget 0 s.ppsHigh j = s.now + 1 then { s with ppsHigh := tset 0 s.ppsHigh j 0 }.emit (.pps j false) else s

/-- A write of TB_PPSO_CTLj (R293, R295, R308): a generator that is disabled drives its pin low. -/
def ppsWrite (s : State) (engine : Bool) (j : Nat) (v : Word) : State :=
  let was := s.flag (TB_PPSO_CTL_EN j)
  let s1 := plainWrite s engine (TB_PPSO_CTL j) v
  let s2 := if was then s1 else enSet s1 (16 + j) (s1.get (TB_PPSO_CTL_TB j)) (s1.get (TB_PPSO_NEXT_NEXT j)) v
  if getField v 31 1 = 0 ∧ tget 0 s2.ppsHigh j ≠ 0 then
    { s2 with ppsHigh := tset 0 s2.ppsHigh j 0 }.emit (.pps j false)
  else s2

/-- A write of TB_CMP_CTLk (R295, R309). -/
def cmpWrite (s : State) (engine : Bool) (k : Nat) (v : Word) : State :=
  let was := s.flag (TB_CMP_CTL_EN k)
  let s1 := plainWrite s engine (TB_CMP_CTL k) v
  if was then s1 else enSet s1 k (s1.get (TB_CMP_CTL_TB k)) (s1.get (TB_CMP_TARGET_TARGET k)) v

/-- A write of a TB_* word. -/
def tbWrite (s : State) (engine : Bool) (off : Nat) (v : Word) : State :=
  let o := off - 0x40000
  let p := plainWrite s engine off v
  if o < 0x800 then
    (match o % 0x100 with
     | 0x10 => stateOf s (execTbIncHi (Fin.ofNat 8 (o / 0x100)) v s)
     | 0x20 => stateOf s (execStep (Fin.ofNat 8 (o / 0x100)) v s)
     | _ => p)
  else if o = 0x904 then (if getField v 31 1 = 1 then stateOf s (execSnapshot s) else s)
  else if 0x1000 ≤ o ∧ o < 0x10C0 ∧ o % 0x10 = 0 then
    (if getField v 31 1 = 1 then p.set (TB_EVIN_CTL_MISSED ((o - 0x1000) / 0x10)) 0 else p)
  else if 0x1200 ≤ o ∧ o < 0x1240 ∧ o % 0x10 = 0 then ppsWrite (unpulse s ((o - 0x1200) / 0x10)) engine ((o - 0x1200) / 0x10) v
  else if 0x1200 ≤ o ∧ o < 0x1240 ∧ o % 0x10 = 8 then unpulse p ((o - 0x1200) / 0x10)
  else if 0x1200 ≤ o ∧ o < 0x1240 ∧ o % 0x10 = 4 then
    let j := (o - 0x1200) / 0x10
    let p := unpulse p j
    targetWritten p (16 + j) (p.get (TB_PPSO_CTL_TB j)) (p.get (TB_PPSO_NEXT_NEXT j))
  else if 0x1400 ≤ o ∧ o < 0x1500 ∧ o % 0x10 = 4 then
    let k := (o - 0x1400) / 0x10
    let p := unfire p k
    targetWritten p k (p.get (TB_CMP_CTL_TB k)) (p.get (TB_CMP_TARGET_TARGET k))
  else if 0x1400 ≤ o ∧ o < 0x1500 ∧ o % 0x10 = 8 then unfire p ((o - 0x1400) / 0x10)
  else if 0x1400 ≤ o ∧ o < 0x1500 ∧ o % 0x10 = 0 then cmpWrite (unfire s ((o - 0x1400) / 0x10)) engine ((o - 0x1400) / 0x10) v
  else p

/-! ### Synchronisation -/

/-- A write of PTP_ROLE (R320, R328, R336): a slave port that changes starts without history, with its port's meanLinkDelay; where no live port
remains, the time base holds over and a record is posted. -/
def roleWrite (s : State) (engine : Bool) (n : Nat) (v : Word) : State :=
  let live : State → Bool := fun t => t.flag (liveBit n 0) || t.flag (liveBit n 1)
  let s1 := plainWrite s engine (PTP_ROLE n) v
  let s2 := [0, 1].foldl (fun t b =>
    if slavePort s n b = slavePort t n b then t
    else
      let mld := match slavePort t n b with
        | some p => (tget none t.mlds p).getD 0
        | none => 0
      (((t.setPtp n b PtpSt.rst).set (liveBit n b) 0).set (frzBit n b) 0).set (PTP_MLD_MLD n b) (ofInt 32 mld)) s1
  if !ptpMode s n then s2 else if live s2 then holdIfNone s2 n else if live s then noneLive s2 n else s2

/-- A write of ASW_CTLw (R327, R335): EN = 1 takes BASE, ACCEPT accepts. -/
def aswWrite (s : State) (engine : Bool) (n w : Nat) (v : Word) : State :=
  let s1 := plainWrite s engine (ASW_CTL n w) v
  let s2 := if getField v 31 1 = 1 then takeBase s1 n w else s1
  if getField v 30 1 = 1 then stateOf s2 (execAswAccept (Fin.ofNat 8 n) (Fin.ofNat 4 w) s2) else s2

/-- A write of a node register (R334). -/
def nodeRegWrite (s : State) (engine : Bool) (n j o : Nat) (v : Word) : State :=
  let m : TbIx := Fin.ofNat 8 n
  let i : Fin 16 := Fin.ofNat 16 j
  match o with
  | 0x00 => stateOf s (execNodeCtl m i v s)
  | 0x08 => stateOf s (execNodeSofs m i v s)
  | 0x10 => stateOf s (execNodeDly m i 0 v s)
  | 0x14 => stateOf s (execNodeDly m i 1 v s)
  | 0x28 => stateOf s (execNodeAcc m i v s)
  | _ => plainWrite s engine (0x50100 + 0x1000 * n + 0x40 * j + o) v

/-- A write of a SYN_*, NODE_*, ASW_* or PTP_* word. -/
def synWrite (s : State) (engine : Bool) (off : Nat) (v : Word) : State :=
  let o := off - 0x50000
  let n := o / 0x1000
  let r := o % 0x1000
  if o = 0xF000 then stateOf s (execStepGrant v s)
  else if 0x8000 ≤ o then
    let p := plainWrite s engine off v
    let m := (o - 0x8000) / 0x40
    if o < 0x8200 ∧ o % 0x40 = 0 ∧ getField v 30 1 = 1 then stateOf p (execSynCsRestart (Fin.ofNat 8 m) p) else p
  else if 0x100 ≤ r ∧ r < 0x500 then nodeRegWrite s engine n ((r - 0x100) / 0x40) (r % 0x40) v
  else if 0x600 ≤ r ∧ r < 0x640 ∧ r % 0x10 = 0 then aswWrite s engine n ((r - 0x600) / 0x10) v
  else if r = 0x804 then roleWrite s engine n v
  else if r = 0x04 ∨ r = 0x0C then
    let was := (s.syn n).was.getD ((rword s.regs (SYN_GAIN n)).toNat, (rword s.regs (SYN_PATH n)).toNat)
    plainWrite (if s.locked then s.setSyn n { s.syn n with was := some was } else s) engine off v
  else if r = 0x830 then
    let s1 := if getField v 0 1 = 1 then stateOf s (execPtpAcc (Fin.ofNat 8 n) 0 s) else s
    if getField v 1 1 = 1 then stateOf s1 (execPtpAcc (Fin.ofNat 8 n) 1 s1) else s1
  else plainWrite s engine off v

/-! ### Tables, processors -/

/-- A write of STR_ACC (R103): OP 1 reads, 2 writes. -/
def strAcc (s : State) (v : Word) : State :=
  let t : Fin 16 := Fin.ofNat 16 (getField v 24 4)
  let i : Fin 262144 := Fin.ofNat 262144 (getField v 0 18)
  match getField v 28 2 with
  | 1 => stateOf s (execStrTableRead t i s)
  | 2 => stateOf s (execStrTableWrite t i s)
  | _ => (s.set STR_ACC_TABLE t.val).set STR_ACC_INDEX i.val

/-- A write of FRER_ACC (R240). -/
def frerAcc (s : State) (v : Word) : State :=
  let t : Fin 16 := Fin.ofNat 16 (getField v 24 4)
  let i : Fin 65536 := Fin.ofNat 65536 (getField v 0 16)
  match getField v 28 2 with
  | 1 => stateOf s (execFrerTableRead t i s)
  | 2 => stateOf s (execFrerTableWrite t i s)
  | _ => (s.set FRER_ACC_TABLE t.val).set FRER_ACC_INDEX i.val

/-- A write of an SP_* word (R145 to R154) or of table memory (R116). -/
def spWrite (s : State) (engine : Bool) (off : Nat) (v : Word) : State :=
  let g := (off - 0x300000) / 0x10000
  let o := off % 0x10000
  if 0x8000 ≤ o then
    (noteTable s g ((o - 0x8000) / 4 * 4)).putBytes off (leBytes 4 v.toNat)
  else if csBusy s g ∧ 0x44 ≤ o ∧ o < 0x54 then s
  else match o with
  | 0x18 => stateOf s (execSpHostreq (Fin.ofNat 16 g) v s)
  | 0x40 => stateOf s (if getField v 26 2 = 2 then execCsWrite (Fin.ofNat 16 g) v s else execCsRead (Fin.ofNat 16 g) v s)
  | _ => plainWrite s engine off v

/-! ### Host interface, DMA, security -/

/-- A write of a doorbell-page word (R365 to R367). -/
def dbWrite (s : State) (engine : Bool) (off : Nat) (v : Word) : State :=
  let f : Fn := Fin.ofNat 64 ((off - 0x700000) / 0x1000)
  match off % 0x1000 with
  | 0x00 => stateOf s (execDbTx f v ⟨[], none⟩ s)
  | 0x04 => stateOf s (execDbRx f v ⟨[], none⟩ s)
  | 0x08 => stateOf s (execDbJob f v ⟨[], none⟩ s)
  | 0x0C => stateOf s (execDbEvt f v s)
  | 0x10 => stateOf s (execDbCmd f v ⟨[], none⟩ s)
  | 0x30 => stateOf s (execDbCmdCfg f v s)
  | o =>
    if 0x20 ≤ o ∧ o < 0x30 ∧ s.flag (DB_CMD_CFG_EN f.val) then s else plainWrite s engine off v

/-- A write of a DMA_* or GRD_* word (R388 to R393). -/
def dmaWrite (s : State) (engine : Bool) (off : Nat) (v : Word) : State :=
  let o := off - 0x800000
  let p := plainWrite s engine off v
  if o < 0x1000 ∧ o % 0x40 = 4 then
    (if getField v 31 1 = 1 then stateOf p (execAbort (Fin.ofNat 64 (o / 0x40)) p) else p)
  else if o = 0x2000 then stateOf s (execDmaKick (Fin.ofNat 64 v.toNat) ⟨[], none⟩ s)
  else p

/-- A write of a SEC_* word or of the mailbox buffer (R418, R422). While a command runs, the buffer and the control register keep
what it was given. -/
def secWrite (s : State) (engine : Bool) (off : Nat) (v : Word) : State :=
  if s.flag SEC_MB_STAT_BUSY then s
  else if off = 0x900010 then
    let p := plainWrite s engine off v
    if getField v 31 1 = 1 then mboxGo p else p
  else if 0x910000 ≤ off ∧ off < 0x920000 then s.putBytes off (leBytes 4 v.toNat)
  else plainWrite s engine off v

/-- A write of a BOOT_* word but BOOT_CTL: BOOT_ARG is the host's except in STATE 1 to 4 (R491). -/
def bootWrite (s : State) (engine : Bool) (off : Nat) (v : Word) : State :=
  let st := s.get BOOT_STATE_STATE
  if 1 ≤ st ∧ st ≤ 4 then s else plainWrite s engine off v

/-- A write of FLT_NEW (R444): bits written 1 clear, but a latch in the clock of the write wins (R457). -/
def newWrite (s : State) (v : Word) : State :=
  (List.range 6).foldl (fun t k =>
    let old := t.get FLT_NEW_NEW
    if getField v k 1 = 0 ∨ old / 2 ^ k % 2 = 0 ∨ t.evNow (newK k) then t
    else (t.set FLT_NEW_NEW (old - 2 ^ k)).stampEv (newGoneK k)) s

/-! ### The whole of BAR0 -/

/-- A 4-byte write at a multiple of 4 (R27), but GLB_HIR and BOOT_CTL, which start resets. In the fatal state BAR0 writes are
ignored (R448). -/
def barWrite (s : State) (engine : Bool) (off : Nat) (v : Word) : State :=
  if s.fatal then s
  else match shellBaseOf off with
  | some b => if off - b < 0x1C then shellWrite s engine b ((off - b) / 4) v else s
  | none =>
    if 0x20040 ≤ off ∧ off < 0x20058 then stateOf s (execFltWatch (Fin.ofNat 6 ((off - 0x20040) / 4)) v s)
    else if off = 0x20008 then newWrite s v
    else if off < 0x40000 then plainWrite s engine off v
    else if off < 0x50000 then tbWrite s engine off v
    else if off < 0x60000 then synWrite s engine off v
    else if off < 0x300000 then plainWrite s engine off v
    else if off < 0x400000 then spWrite s engine off v
    else if off = 0x400000 then strAcc s v
    else if 0x508000 ≤ off ∧ off < 0x508400 then slotWrite s engine ((off - 0x508000) / 4) v
    else if 0x540000 ≤ off ∧ off < 0x600000 then s.putBytes off (leBytes 4 v.toNat)
    else if off = 0x600000 then frerAcc s v
    else if off < 0x700000 then plainWrite s engine off v
    else if off < 0x740000 then dbWrite s engine off v
    else if off < 0x800000 then s
    else if off < 0x900000 then dmaWrite s engine off v
    else if off < 0xA00000 then secWrite s engine off v
    else if off < 0xB00000 then plainWrite s engine off v
    else if off < 0xC00000 then bootWrite s engine off v
    else plainWrite s engine off v

end Sys2Proof.Machine
end

