-- ==== Sys2Proof/Machine/Checks.lean ====
section
/-! DEFINITION. The checks of COMMIT (R479): each answers the number that BOOT_ERR_ARG names, or none where it passes. -/

namespace Sys2Proof.Machine

/-- The first number that fails a test. -/
def firstBad (ns : List Nat) (ok : Nat → Bool) : Option Nat := ns.find? (fun n => !ok n)

/-- The first failure of several. -/
def firstOf (xs : List (Option Nat)) : Option Nat := (xs.find? Option.isSome).join

/-- Whether intervals (start, length) of a list do not overlap. -/
def disjoint : List (Nat × Nat) → Bool
  | [] => true
  | x :: r => r.all (fun y => decide (x.1 + x.2 ≤ y.1) || decide (y.1 + y.2 ≤ x.1)) && disjoint r

/-- Whether a list holds no number twice. -/
def noTwice : List Nat → Bool
  | [] => true
  | x :: r => !r.contains x && noTwice r

/-- Modes 1 to 11. -/
def plainMode (m : Nat) : Bool := decide (1 ≤ m) && decide (m ≤ 11)

/-- Mode of a port. -/
def modeOf (s : State) (p : Nat) : Nat := s.get (PRT_MODE_MODE p)

/-! ### Tick, ports, buffers (R31, R43, R44, R55, R81, R496) -/

/-- R31; the argument, which names no object, is 0. -/
def checkTick (s : State) : Option Nat :=
  let ns := s.get GLB_TICK_PER_NS
  let c := s.get GLB_TICK_CTL_CYCLE
  let l := s.get GLB_TICK_CYCNS_CYCNS
  let exact : Int := (65536 * l : Nat) - (c * tickPer s : Nat)
  if 1000 ≤ ns ∧ ns ≤ 1048576 ∧ (ns = 1048576 → s.get GLB_TICK_FRAC_FRAC = 0) ∧
      (1 ≤ c → exact.natAbs < 65536 ∧ l < 2 ^ 31) then none else some 0

/-- R43, R44, R496 for one port. -/
def portModeOk (s : State) (p : Nat) : Bool :=
  let m := modeOf s p
  let c := s.get (PRT_ULC_DEPTH p)
  let peer := s.get (PRT_ULC_PEER p)
  decide (m ≤ 12) && (m != 8 || s.get (PRT_MODE_LSEL p) % 2 == 0) &&
  (m == 12) == isUlc s p &&
  (!isUlc s p || (cnOn s c && peer != cnMe s c && decide (peer ≤ s.get (ULC_CN_CTL_NM1 c))))

/-- R43, R44, R496: ports first, then depths above one that is not enabled. -/
def checkModes (s : State) : Option Nat :=
  firstOf [firstBad (List.range 128) (portModeOk s), firstBad [1, 2, 3] (fun c => !cnOn s c || cnOn s (c - 1))]

/-- R55. -/
def checkRetreat (s : State) : Option Nat :=
  firstBad (List.range 128) (fun p => !s.flag (PRT_MODE_RTR_EN p) ||
    (List.range 4).all (fun i => !s.flag (PRT_RTR_VALID p i) || rtrValid s p i))

/-- R81; the argument is the slice. -/
def checkBuffers (s : State) : Option Nat :=
  firstBad (List.range 4) (fun i => decide
    (((List.range 32).map (fun k => ((List.range 8).map (fun tc => s.get (PRT_QMIN_MIN (32 * i + k) tc))).sum)).sum ≤ 131072))

/-! ### Carafes (R206) -/

/-- Enabled carafe entries. -/
def carsOn (s : State) : List Nat := (List.range 64).filter (fun c => s.flag (CRF_CAR_CFG_EN c))

/-- The ring ports of an entry: A_IN, A_OUT, B_IN, B_OUT. -/
def ringPorts (s : State) (c : Nat) : List Nat :=
  [s.get (CRF_CAR_RING_A_IN c), s.get (CRF_CAR_RING_A_OUT c), s.get (CRF_CAR_RING_B_IN c), s.get (CRF_CAR_RING_B_OUT c)]

/-- A pair of ports that runs one mode from 1 to 11. -/
def pairMode (s : State) (a b : Nat) : Bool := plainMode (modeOf s a) && modeOf s a == modeOf s b

/-- An enabled entry, but for its stations. -/
def carOk (s : State) (c : Nat) : Bool :=
  let nst := s.get (CRF_CAR_POS_NST c)
  let ns := s.get GLB_TICK_PER_NS
  let lofs := s.get (CRF_CAR_LOFS_LOFS c)
  let rdl := s.get (CRF_CAR_RDL_RDL c)
  let head := s.flag (CRF_CAR_CFG_HEAD c)
  match ringPorts s c with
  | [ai, ao, bi, bo] =>
    (carsOn s).all (fun d => d == c || s.get (CRF_CAR_CFG_CID d) != s.get (CRF_CAR_CFG_CID c)) &&
    decide (1 ≤ nst ∧ s.get (CRF_CAR_POS_HLAST c) < nst) &&
    decide (64 ≤ carLen s c ∧ carLen s c ≤ 9216) &&
    (decide (carLen s c ≤ 9184) || (ringPorts s c).all (fun p => !s.flag (PRT_SEC_CFG_EN p))) &&
    ai != ao && bi != bo && pairMode s ai ao && pairMode s bi bo &&
    (!head || decide (100 ≤ lofs ∧ lofs < rdl ∧ rdl + 100 ≤ ns)) &&
    (!head || (List.range 256).all (fun i => decide (i < nst) || s.get (CRF_HD_EXP_EXP c (i / 32)) / 2 ^ (i % 32) % 2 == 0))
  | _ => false

/-- The positions the device's stations of an enabled entry hold. -/
def blockOk (s : State) (c : Nat) : Bool :=
  let ps := (stationsOf s c).map (fun st => s.get (CRF_ST_CFG_POS st))
  let (a, b) := blockEnds s c
  let hl := s.get (CRF_CAR_POS_HLAST c)
  noTwice ps && (ps.isEmpty || b + 1 == a + ps.length) &&
  (if s.flag (CRF_CAR_CFG_HEAD c) then !ps.isEmpty && a == 0 && b == hl else ps.all (fun x => decide (hl < x))) &&
  disjoint (((stationsOf s c).filter (fun st => s.get (CRF_ST_POUR_LEN st) != 0)).map
    (fun st => (s.get (CRF_ST_POUR_OFS st), s.get (CRF_ST_POUR_LEN st))))

/-- A station whose binding is used on this device: not the ring member's part of a split station (R505). -/
def bindsHere (s : State) (st : Nat) : Bool := !s.flag (CRF_ST_REMOTE_EN st) || servesRemote s st

/-- Position, pour region, sip ranges and GIVEUP of a station of a ring of this device. A ring member ignores HOSTB of a split station (R505),
so its sip ranges have the whole buffer. -/
def ringStationOk (s : State) (st : Nat) : Bool :=
  let c := s.get (CRF_ST_CFG_CAR st)
  let dlen := s.get (CRF_CAR_CFG_DLEN c)
  let nst := s.get (CRF_CAR_POS_NST c)
  let lim := if s.flag (CRF_ST_CFG_HOSTB st) && !s.flag (CRF_ST_REMOTE_EN st) then 1016 else 2040
  let g := s.get (CRF_ST_GIVEUP_GIVEUP st)
  s.flag (CRF_CAR_CFG_EN c) && decide (s.get (CRF_ST_CFG_POS st) < nst) &&
  decide (s.get (CRF_ST_POUR_LEN st) ≤ 1024 ∧ s.get (CRF_ST_POUR_OFS st) + s.get (CRF_ST_POUR_LEN st) ≤ dlen) &&
  (rangesOf s st).all (fun k =>
    let len := s.get (CRF_ST_SIPB_LEN st k)
    decide (1 ≤ len ∧ s.get (CRF_ST_SIPA_OFS st k) + len ≤ dlen ∧ s.get (CRF_ST_SIPA_OWNER st k) < nst ∧
      s.get (CRF_ST_SIPB_BOFS st k) + len ≤ lim)) &&
  disjoint ((rangesOf s st).map (fun k => (s.get (CRF_ST_SIPB_BOFS st k), s.get (CRF_ST_SIPB_LEN st k)))) &&
  (g == 0 || decide (g + 100 ≤ s.get GLB_TICK_PER_NS))

/-- The slots a host-bound station uses: OUT, then IN. -/
def slotsOf (s : State) (st : Nat) : List Nat := [s.get (CRF_ST_SLOTS_OUT st), s.get (CRF_ST_SLOTS_IN st)]

/-- The binding of a station. -/
def bindingOk (s : State) (st : Nat) : Bool :=
  if !s.flag (CRF_ST_CFG_HOSTB st) then s.flag (SP_CTL_EN (s.get (CRF_ST_CFG_SP st)))
  else
    let o := s.get (CRF_ST_SLOTS_OUT st)
    let i := s.get (CRF_ST_SLOTS_IN st)
    s.flag (CRF_PI_SLOT_EN o) && !s.flag (CRF_PI_SLOT_DIR o) && s.flag (CRF_PI_SLOT_EN i) && s.flag (CRF_PI_SLOT_DIR i) &&
    (List.range 64).all (fun x => x == st || !s.flag (CRF_ST_CFG_EN x) || !bindsHere s x || !s.flag (CRF_ST_CFG_HOSTB x) ||
      (slotsOf s x).all (fun n => !(slotsOf s st).contains n))

/-- An enabled station. -/
def stationOk (s : State) (st : Nat) : Bool :=
  (servesRemote s st || ringStationOk s st) && (!bindsHere s st || bindingOk s st)

/-- R206: entries first, then stations. -/
def checkCarafes (s : State) : Option Nat :=
  firstOf [firstBad (carsOn s) (fun c => carOk s c && blockOk s c),
    firstBad ((List.range 64).filter (fun st => s.flag (CRF_ST_CFG_EN st))) (stationOk s)]

/-! ### Redundancy, guardians, cold start (R247, R272) -/

/-- Enabled redundancy groups. -/
def groupsOn (s : State) : List Nat := (List.range 16).filter (fun r => s.flag (DUP_RG_CFG_EN r))

/-- The ports of a redundancy group. -/
def rgPorts (s : State) (r : Nat) : List Nat := [s.get (DUP_RG_CFG_PORT_A r), s.get (DUP_RG_CFG_PORT_B r)]

/-- R247 for one group. -/
def groupOk (s : State) (r : Nat) : Bool :=
  let a := s.get (DUP_RG_CFG_PORT_A r)
  let b := s.get (DUP_RG_CFG_PORT_B r)
  let base := s.get (DUP_RG_POOL_BASE r)
  let n := s.get (DUP_RG_POOL_N r)
  a != b && pairMode s a b &&
  (groupsOn s).all (fun q => q == r || (rgPorts s q).all (fun p => p != a && p != b)) &&
  (carsOn s).all (fun c => (ringPorts s c).all (fun p => p != a && p != b)) &&
  decide (1 ≤ s.get (DUP_RG_CFG_HIST r) ∧ s.get (DUP_RG_CFG_HIST r) ≤ 128) && decide (base + n ≤ 16384) &&
  (groupsOn s).all (fun q => q == r || disjoint [(base, n), (s.get (DUP_RG_POOL_BASE q), s.get (DUP_RG_POOL_N q))])

/-- R247. -/
def checkGroups (s : State) : Option Nat := firstBad (groupsOn s) (groupOk s)

/-- R272 for a guardian port. -/
def guardOk (s : State) (p : Nat) : Bool :=
  let n := s.get (PRT_GRD_CTL_NSLOT p)
  let t := s.get (PRT_GRD_CTL_TICKS p)
  let g := s.get (PRT_GRD_GUARD_GUARD p)
  let ofs : Nat → Nat := fun i => s.get (PRT_GRD_OFS_OFS p i)
  let len : Nat → Nat := fun i => s.get (PRT_GRD_LEN_LEN p i)
  plainMode (modeOf s p) && (carsOn s).all (fun c => !(ringPorts s c).contains p) &&
  decide (1 ≤ n ∧ n ≤ 64) && (List.range 16).any (fun k => t == 2 ^ k) && decide (g ≤ ofs 0) &&
  (List.range n).all (fun i => decide (g < len i) &&
    (i + 1 == n || decide (ofs i + len i + 2 * g ≤ ofs (i + 1)))) &&
  decide (ofs (n - 1) + len (n - 1) ≤ t * s.get GLB_TICK_PER_NS)

/-- Ensemble mode (R298). -/
def ensembleMode (s : State) (n : Nat) : Bool := s.get (TB_CTL_MODE n) == 1

/-- R272 for a time base with cold start enabled. -/
def coldOk (s : State) (n : Nat) : Bool :=
  let slot := s.get (SYN_CS_SLOT_SLOT n)
  ensembleMode s n && decide (1 ≤ s.get (SYN_CS_CTL_ID n)) && decide (1 ≤ slot) && decide (4 * slot ≤ s.get (SYN_CS_PER_PERIOD n)) &&
  decide (1 ≤ s.get (SYN_CS_CTL_HOPS n))

/-- R272: guardian ports first, then time bases. -/
def checkGuards (s : State) : Option Nat :=
  firstOf [firstBad ((List.range 128).filter (fun p => s.flag (PRT_GRD_CTL_EN p))) (guardOk s),
    firstBad ((List.range 8).filter (fun n => s.flag (SYN_CS_CTL_EN n))) (coldOk s)]

/-! ### Synchronisation, trust, MACsec (R337, R406, R414, R495) -/

/-- R337 for one node of a time base. -/
def nodeOk (s : State) (n j : Nat) : Bool :=
  !s.flag (NODE_CTL_VALID n j) ||
  ((!ensembleMode s n || (if s.flag (NODE_CTL_REL n j) then n == s.tickTb else sperOk s n j)) &&
   plainMode (modeOf s (s.get (NODE_PORTS_PORT0 n j))) &&
   (!s.flag (NODE_CTL_P1_EN n j) || plainMode (modeOf s (s.get (NODE_PORTS_PORT1 n j)))))

/-- R337 for one time base. -/
def syncOk (s : State) (n : Nat) : Bool :=
  (!ptpMode s n || (List.range 8).all (fun m => m == n || !ptpMode s m || s.get (PTP_CTL_DOMAIN m) != s.get (PTP_CTL_DOMAIN n))) &&
  (List.range 16).all (nodeOk s n) &&
  [0, 1].all (fun b => match slavePort s n b with | some p => plainMode (modeOf s p) | none => true) &&
  (List.range 4).all (fun w => !s.flag (ASW_CTL_EN n w) ||
    (s.flag (CRF_CAR_CFG_EN (s.get (ASW_CTL_CAR n w))) && s.flag (CRF_CAR_CFG_HEAD (s.get (ASW_CTL_CAR n w)))))

/-- R337. -/
def checkSync (s : State) : Option Nat := firstBad (List.range 8) (syncOk s)

/-- R406: no two valid entries with one identity hash; the later entry is named. -/
def checkTrust (s : State) : Option Nat :=
  let valid := s.sec.trust.filter (fun e => beField e.2 48 1 % 2 == 1)
  (valid.find? (fun e => valid.any (fun d => decide (d.1 < e.1) && d.2.take 48 == e.2.take 48))).map (·.1)

/-- R414 and R495 for one port. The choice of a cipher suite matters where MACsec is enabled. -/
def macsecPortOk (s : State) (p : Nat) : Bool :=
  let en := s.flag (PRT_SEC_CFG_EN p)
  let pair := s.flag (PRT_SEC_CFG_PAIR_EN p)
  let cs := s.get (PRT_SEC_CFG_CS p)
  let m := modeOf s p
  (!en || pair) && (!(en || pair) || m != 0) && (!en || decide (2 ≤ cs) || (decide (1 ≤ m) && decide (m ≤ 4))) &&
  (List.range 8).all (fun n => !s.flag (PTP_CTL_AUTH_EN n) || pair || !(masterPort s n p || (slaveOf s n p).isSome)) &&
  (m != 12 || (en && pair && cs == 3))

/-- R414, R495. -/
def checkMacsec (s : State) : Option Nat := firstBad (List.range 128) (macsecPortOk s)

/-- Processors with host writes to their control store. -/
def hostCs (s : State) : List Nat := (List.range 16).filter (fun g => s.csHost.any (fun e => e.1 / 8192 == g))

/-- Enabled processors. -/
def spsOn (s : State) : List Nat := (List.range 16).filter (fun g => s.flag (SP_CTL_EN g))

/-- R404: room for TRUST, HOST_CS, CS_FINAL and CONFIG. -/
def checkLog (s : State) : Option Nat := if logN s + 2 + (hostCs s).length + (spsOn s).length ≤ 239 then none else some 0

/-- The checks of R479 in order, each with its START code. -/
def commitChecks (s : State) : List (Nat × Option Nat) :=
  [(0x0801, checkTick s), (0x0802, checkModes s), (0x0803, checkRetreat s), (0x0804, checkBuffers s), (0x0805, checkCarafes s),
   (0x0806, checkGroups s), (0x0807, checkGuards s), (0x0808, checkSync s), (0x0809, checkTrust s), (0x080A, checkMacsec s),
   (0x0705, checkLog s)]

/-- START code and argument of the first check that fails. -/
def commitFault (s : State) : Option (Nat × Nat) := (commitChecks s).findSome? (fun e => e.2.map (fun a => (e.1, a)))

end Sys2Proof.Machine
end

