-- ==== Sys2Proof/Machine/Boot.lean ====
section
/-! DEFINITION. The boot engine: verification of a start image (R402, R471 to R477), its instructions (R475, R476, R478), COMMIT
(R479, R482) and the retained restart (R487). -/

namespace Sys2Proof.Machine

/-! ### The image -/

/-- Where the retained image lies in `State.mem`. -/
def retainedA : Nat := 0x8000000
/-- Offset of the instruction stream (R471). -/
def streamOfs : Nat := 5528

/-- The image word at byte `o` of the image that begins at `base`. -/
def imgWord (s : State) (base o : Nat) : Nat := s.mem.getLE (base + o) 4

/-- LENGTH of the image (R472). -/
def imgLen (s : State) (base : Nat) : Nat := imgWord s base 8

/-- Length of an instruction in words, by its first two words (R475); 0 for an OP that is not listed. -/
def insWords (w0 w1 : Nat) : Nat :=
  match bits w0 31 24 with
  | 1 => 3 + w0 % 2
  | 2 => 2 + w0 % 65536
  | 3 => 2 + 4 * bits w1 31 16
  | 4 => if bits w0 23 20 = 1 then 2 else 1
  | 5 => 17
  | 6 => 13
  | 7 => if bits w0 4 4 = 1 then 2 else 3
  | 8 => if bits w0 23 20 = 0 then 3 else 5
  | 9 => 2
  | 10 => 1
  | _ => 0

/-- Whether every field of an instruction lies in the range R475 gives and no reserved bit is set (R406, R474). -/
def insOk (w : Nat → Nat) : Bool :=
  let w0 := w 0
  match bits w0 31 24 with
  | 1 => bits w0 23 2 == 0 && (bits w0 1 1 == 0 || decide (w 2 < 16))
  | 2 => bits w0 23 16 == 0 && w0 % 65536 != 0
  | 3 => bits w0 23 16 == 0 && w0 % 65536 != 0 && bits (w 1) 15 13 == 0 &&
    decide (1 ≤ bits (w 1) 31 16 ∧ bits (w 1) 31 16 ≤ 6144)
  | 4 =>
    (match bits w0 23 20 with
     | 0 => bits w0 19 3 == 0
     | 1 => bits w0 13 0 == 0 && decide (w 1 < 65536)
     | 2 => bits w0 13 4 == 0
     | _ => false)
  | 5 => bits w0 23 8 == 0 && bits (w 13) 15 3 == 0 && w 14 == 0 && w 15 == 0 && w 16 == 0
  | 6 => bits w0 23 2 == 0
  | 7 => bits w0 23 5 == 0 && bits w0 3 3 == 0 &&
    (if bits w0 4 4 = 1 then decide (w 1 ≤ 14) else w 2 % 65536 == 0)
  | 8 =>
    (match bits w0 23 20 with
     | 0 => bits w0 19 5 == 0 && decide (bits w0 3 0 ≤ 8) && (bits w0 4 4 == 0 || decide (w 1 < 16)) && w 2 != 0
     | 1 => bits w0 19 0 == 0 && w 4 != 0
     | _ => false)
  | 9 => decide (bits w0 23 16 ≤ 5) && bits w0 6 0 == 0 && decide (w 1 < 65536)
  | 10 => bits w0 23 0 == 0
  | _ => false

/-- Decode the stream from byte `pos` to `len`: the offsets of its instructions, and the offset of the first that does not
decode. The fuel bounds their number. -/
def decodeStream : Nat → (Nat → Nat) → Nat → Nat → List Nat × Option Nat
  | 0, _, _, _ => ([], none)
  | n + 1, w, len, pos =>
    if pos = len then ([], none)
    else
      let k := insWords (w pos) (w (pos + 4))
      if k = 0 ∨ len < pos + 4 * k ∨ insOk (fun i => w (pos + 4 * i)) = false then ([], some pos)
      else
        let (r, bad) := decodeStream n w len (pos + 4 * k)
        (pos :: r, bad)

/-- An offset that WRITE and WRITE_BLOCK may name (R477). -/
def writeOfsOk (o : Nat) : Bool :=
  o % 4 == 0 && decide (o < 0x4000000) && o != 0x20 &&
  !(decide (0x300000 ≤ o) && decide (o < 0x400000) && decide (0x40 ≤ o % 0x10000) && decide (o % 0x10000 < 0x58)) &&
  !(decide (0x900000 ≤ o) && decide (o < 0xA00000)) && !(decide (0xB00000 ≤ o) && decide (o < 0xC00000))

/-- The offsets and the load range of an instruction (R477). -/
def rangeOk (w : Nat → Nat) : Bool :=
  let w0 := w 0
  match bits w0 31 24 with
  | 1 => writeOfsOk (w 1)
  | 2 => (List.range (w0 % 65536)).all (fun i => writeOfsOk (w 1 + 4 * i))
  | 3 => decide (0x800 ≤ w 1 % 0x2000) && decide (w 1 % 0x2000 + bits (w 1) 31 16 ≤ 0x2000)
  | _ => true

/-- Step 1 of R402 on the image at `base`: START code and error offset of the first check of R477 that fails. -/
def step1 (s : State) (base : Nat) : Option (Nat × Nat) :=
  let b : Nat → Nat → Nat := fun o n => s.mem.getLE (base + o) n
  let len := imgLen s base
  if b 0 4 ≠ 0x4953425A then some (0x0101, 0)
  else if b 4 2 ≠ 1 then some (0x0101, 4)
  else if b 6 1 > 3 then some (0x0101, 6)
  else if b 7 1 > 1 then some (0x0101, 7)
  else if (List.range 48).any (fun i => b (16 + i) 1 != 0) then some (0x0101, 16)
  else if len % 4 ≠ 0 ∨ len < 5532 ∨ 16777216 < len then some (0x0102, 8)
  else
    let w : Nat → Nat := imgWord s base
    let ins : Nat → Nat → Nat := fun p i => w (p + 4 * i)
    let op : Nat → Nat := fun p => bits (w p) 31 24
    match decodeStream (len / 4) w len streamOfs with
    | (_, some p) => some (0x0103, p)
    | (ps, none) =>
      let n := ps.length
      match ps.find? (fun p => !rangeOk (ins p)) with
      | some p => some (0x0104, p)
      | none =>
        match (ps.take (n - 1)).find? (fun p => op p == 10), ps.getLast? with
        | some p, _ => some (0x0105, p)
        | none, last =>
          if last.map op ≠ some 10 then some (0x0105, 0xFFFFFFFF)
          else
            match (ps.drop 1).find? (fun p => op p == 6) with
            | some p => some (0x0106, p)
            | none =>
              (((List.range n).find? (fun i =>
                op (ps.getD i 0) == 9 && decide (n < i + w (ps.getD i 0 + 4) + 2))).map (fun i => (0x0106, ps.getD i 0)))

/-- H of a CLAIM_OWNER (R399, R475). -/
def claimHash (s : State) (base pos : Nat) : Bytes := s.bytes (base + pos + 4) 48

/-- Steps 2 to 6 of R402 on the image in the staging window. -/
def steps2to6 (s : State) : Option (Nat × Nat) :=
  let base := bar2A 0
  let len := imgLen s base
  let slot := s.mem.getLE (base + 6) 1
  let owned := !unowned s
  let ec := s.bytes (base + 64) 97
  let ml := s.bytes (base + 164) 1952
  let m := s.bytes base 64 ++ s.bytes (base + streamOfs) (len - streamOfs)
  let h := beNat (idHash ec ml)
  let w0 := imgWord s base streamOfs
  let claims := bits w0 31 24 == 6
  let t := w0 % 4
  if owned && !slotValid s slot then some (0x0201, 6)
  else if (if owned then h != (s.slot_ slot).hash else !claims || beNat (claimHash s base streamOfs) != h) then
    some (0x0301, 0xFFFFFFFF)
  else if !ecdsaHolds ec m (s.bytes (base + 2116) 96) then some (0x0401, 0xFFFFFFFF)
  else if !Config.mldsaOk ml (ascii "ZBSI") m (s.bytes (base + 2212) 3309) then some (0x0501, 0xFFFFFFFF)
  else if claims && ((s.slot_ t).state != 0 || (if owned then t == slot else t != slot)) then some (0x0601, streamOfs)
  else none

/-! ### Runs -/

/-- A run ends in failure (R478): START, STATE 6, and the place of the fault. -/
def bootFail (s : State) (code ofs : Nat) (arg : Option Nat) : State :=
  let s1 := (((s.set BOOT_STATUS_START code).set BOOT_STATE_STATE 6).set BOOT_ERR_OFS_OFS ofs).set SEC_STAT_RUNNING 0
  match arg with
  | some a => s1.set BOOT_ERR_ARG_ARG a
  | none => s1

/-- Step 7 of R402: the IMAGE entry, and execution starts at the first instruction (R403, R478). -/
def bootBegin (s : State) (base : Nat) : State :=
  let slot := s.mem.getLE (base + 6) 1
  if logN s ≥ 239 then bootFail s 0x0705 0xFFFFFFFF none
  else
    let s1 := logAdd s 3 slot (s.bytes base (imgLen s base))
    { ((s1.set BOOT_STATE_STATE 2).set SEC_STAT_RUNNING 1).set SEC_STAT_SLOT slot with
      boot := { s1.boot with base := base, pos := streamOfs, waitEnd := 0 } }

/-- An accepted GO or restart (R476, R488, R489): STATE 1. -/
def bootAccept (s : State) (restarted : Bool) : State :=
  { ((((s.set BOOT_CTL_REFUSED 0).set BOOT_STATUS_START 1).setB BOOT_STATE_RESTARTED restarted).set BOOT_STATE_STATE 1) with
    hostLocked := true }

/-- BAR2 writes of the clock of an accepted GO are ignored (R492). -/
def unwriteBar2 (s : State) : State :=
  if s.boot.wrote.1 = s.now then s.boot.wrote.2.foldr (fun e t => t.putBytes (bar2A e.1) e.2) s else s

/-- GO (R402, R477, R488): accepted in STATE 0, and verification begins. A warm device reset of the same clock wins (R492). -/
def goOp (s : State) : State :=
  if s.fatal || s.evNow warmK then s
  else if s.get BOOT_STATE_STATE ≠ 0 then s.set BOOT_CTL_REFUSED 1
  else unwriteBar2 (bootAccept s false)

/-- The steps of R402, the first failure of which refuses the image; a retained restart takes step 7 alone (R487). -/
def verify (s : State) : State :=
  if s.flag BOOT_STATE_RESTARTED then bootBegin s retainedA
  else match step1 s (bar2A 0) with
  | some (code, ofs) => bootFail s code ofs none
  | none =>
    match steps2to6 s with
    | some (code, ofs) => bootFail s code ofs none
    | none => bootBegin s (bar2A 0)

/-- GO (R477). -/
def execGo (s : State) : Out := .next (goOp s)

/-- Why a retained restart is refused (R480, R487); `ramOk`: the retention RAM check passes. -/
def restartFault (s : State) (ramOk : Bool) : Option Nat :=
  if !s.flag BOOT_STATE_RETAINED then some 0x0901
  else if !slotValid s (s.get BOOT_STATE_RSLOT) then some 0x0902
  else if !ramOk then some 0x0903 else none

/-- A retained restart in STATE 0 (R481, R487): a refusal leaves STATE at 0. -/
def restartRun (s : State) (ramOk host : Bool) : State :=
  match restartFault s ramOk with
  | some code => (if host then s.set BOOT_CTL_REFUSED 1 else s).set BOOT_STATUS_START code
  | none => bootAccept s true

/-- A write of BOOT_CTL.RESTART (R487, R488). -/
def restartOp (s : State) (ramOk : Bool) : State :=
  if s.fatal || s.evNow warmK then s
  else if s.get BOOT_STATE_STATE ≠ 0 then s.set BOOT_CTL_REFUSED 1
  else restartRun s ramOk true

/-- RETAINED_RESTART (R487). -/
def execRetainedRestart (ramOk : Bool) (s : State) : Out := .next (restartOp s ramOk)

/-! ### Instructions (R475) -/

/-- Word `i` of the instruction that comes next. -/
def bootW (s : State) (i : Nat) : Nat := imgWord s s.boot.base (s.boot.pos + 4 * i)

/-- OP of the instruction that comes next. -/
def bootOp (s : State) : Nat := bits (bootW s 0) 31 24

/-- Whether the engine executes, no claim is in progress, and the instruction that comes next has this OP. -/
def bootAt (s : State) (op : Nat) : Bool := !s.fatal && s.get BOOT_STATE_STATE == 2 && s.boot.claim.isNone && bootOp s == op

/-- Whether it waits in a WAIT_UNTIL. -/
def bootWaits (s : State) : Bool := !s.fatal && s.get BOOT_STATE_STATE == 3

/-- The next instruction is `k` words on. -/
def bootSkip (s : State) (k : Nat) : State := { s with boot := { s.boot with pos := s.boot.pos + 4 * k } }

/-- The instruction is complete. -/
def bootNext (s : State) : State := bootSkip s (insWords (bootW s 0) (bootW s 1))

/-- The instruction fails (R478). -/
def bootAbort (s : State) (code arg : Nat) : State := bootFail s code s.boot.pos (some arg)

/-- BOOT_ARGk. -/
def bootArg (s : State) (k : Nat) : Nat := s.get (BOOT_ARG_ARG k)

/-- Whether a write has started a table access that ended with ERR = 1 (R476). -/
def accRefused (s : State) (off : Nat) (v : Word) : Bool :=
  (getField v 28 2 == 1 || getField v 28 2 == 2) &&
  ((off == 0x400000 && s.flag STR_ACC_ERR) || (off == 0x600000 && s.flag FRER_ACC_ERR))

/-- Writes of the engine, in order, and the offset of the last that started a table access, where it ended with ERR = 1: ERR is tested
before the next instruction alone (R476). -/
def bootWrites : List (Nat × Word) → State → State × Option Nat
  | [], s => (s, none)
  | (o, v) :: r, s =>
    let t := barWrite s true o v
    let (u, bad) := bootWrites r t
    (u, if bad.isSome || (r.any (fun e => starts e.1 e.2 && e.1 == o)) then bad else if accRefused t o v then some o else none)
where
  /-- A write that starts a table access. -/
  starts (o : Nat) (v : Word) : Bool := (o == 0x400000 || o == 0x600000) && (getField v 28 2 == 1 || getField v 28 2 == 2)

/-- Make the writes of an instruction; it ends, or fails with 0x0702. -/
def bootWriteAll (s : State) (ws : List (Nat × Word)) : State :=
  match bootWrites ws s with
  | (t, none) => bootNext t
  | (t, some o) => bootAbort t 0x0702 o

/-- The word a WRITE with M = 1 writes: bits outside MASK keep what they read as, and clear nothing. -/
def maskedWord (s : State) (off mask : Nat) (v : Word) : Word :=
  let w1c := match regDesc off with | some r => w32 r.w1c | none => 0
  (barRead s off &&& ~~~(w32 mask) &&& ~~~w1c) ||| (v &&& w32 mask)

/-- WRITE (R475, R476). -/
def execWrite (s : State) : Out :=
  if !bootAt s 1 then .next s
  else
    let w0 := bootW s 0
    let off := bootW s 1
    let v := w32 (if bits w0 1 1 = 1 then bootArg s (bootW s 2 % 16) else bootW s 2)
    .next (bootWriteAll s [(off, if w0 % 2 = 1 then maskedWord s off (bootW s 3) v else v)])

/-- WRITE_BLOCK (R475, R476). -/
def execWriteBlock (s : State) : Out :=
  if !bootAt s 2 then .next s
  else .next (bootWriteAll s ((List.range (bootW s 0 % 65536)).map (fun i => (bootW s 1 + 4 * i, w32 (bootW s (2 + i))))))

/-- Processors a LOAD_STORE names. -/
def loadMask (m : Nat) : List Nat := (List.range 16).filter (fun g => m / 2 ^ g % 2 == 1)

/-- Microword `i` of a LOAD_STORE. -/
def loadWord (s : State) (i : Nat) : Nat := s.mem.getLE (s.boot.base + s.boot.pos + 8 + 16 * i) 16

/-- LOAD_STORE (R118, R143, R403): microwords with the parity the device computes; the load is measured. -/
def execLoadStore (s : State) : Out :=
  if !bootAt s 3 then .next s
  else if logN s ≥ 239 then .next (bootFail s 0x0705 s.boot.pos none)
  else
    let mask := bootW s 0 % 65536
    let n := bits (bootW s 1) 31 16
    let a := bootW s 1 % 0x2000
    let cs := (loadMask mask).foldl (fun t g =>
      (List.range n).foldl (fun u i => tset (0 : BitVec 136) u (csK g (a + i)) (withParity (loadWord s i))) t) s.cs
    .next (bootNext (logAdd { s with cs := cs } 4 (mask * 65536 + a) (s.bytes (s.boot.base + s.boot.pos + 8) (16 * n))))

/-- Whether a BIND of one KIND comes next. -/
def bindAt (s : State) (kind : Nat) : Bool := bootAt s 4 && bits (bootW s 0) 23 20 == kind

/-- BIND_TICK (R32, R475). -/
def execBindTick (s : State) : Out :=
  if !bindAt s 0 then .next s else .next (bootNext (s.set GLB_TICK_CTL_TB (bootW s 0 % 8)))

/-- BIND_HOST (R214, R215, R475). -/
def execBindHost (s : State) : Out :=
  if !bindAt s 1 then .next s
  else
    let st := bits (bootW s 0) 19 14
    .next (bootNext (((s.set (CRF_ST_CFG_HOSTB st) 1).set (CRF_ST_SLOTS_IN st) (bits (bootW s 1) 15 8)).set
      (CRF_ST_SLOTS_OUT st) (bits (bootW s 1) 7 0)))

/-- BIND_SP (R214, R475). -/
def execBindSp (s : State) : Out :=
  if !bindAt s 2 then .next s
  else
    let st := bits (bootW s 0) 19 14
    .next (bootNext ((s.set (CRF_ST_CFG_HOSTB st) 0).set (CRF_ST_CFG_SP st) (bits (bootW s 0) 3 0)))

/-- TRUST (R406, R475). -/
def execTrust (s : State) : Out :=
  if !bootAt s 5 then .next s
  else
    let e := s.bytes (s.boot.base + s.boot.pos + 4) 64
    .next (bootNext { s with sec := { s.sec with trust := tset [] s.sec.trust (bootW s 0 % 256) e } })

/-- CLAIM_OWNER (R399, R403, R487): the hash fuses are programmed; the read-back and the marker follow at the end of the clock (log entry 72).
A read-back that differs is the fatal fuse read mismatch, and leaves the slot without its marker. A retained restart only logs it. -/
def execClaimOwner (readBack : Bool) (s : State) : Out :=
  if !bootAt s 6 then .next s
  else if logN s ≥ 239 then .next (bootFail s 0x0705 s.boot.pos none)
  else
    let t := bootW s 0 % 4
    let h := claimHash s s.boot.base s.boot.pos
    if s.flag BOOT_STATE_RESTARTED then .next (bootNext (logAdd s 10 t h))
    else
      let s1 := s.setSlot_ t ⟨beNat h, false, false⟩
      .next { s1 with boot := { s1.boot with claim := some readBack } }

/-- The rest of a claim (R399): the read-back, the marker, the entry in the log. A power loss before leaves the slot Spoilt. -/
def claimEnd (s : State) : State :=
  match s.boot.claim with
  | none => s
  | some readBack =>
    let t := bootW s 0 % 4
    let h := claimHash s s.boot.base s.boot.pos
    let s0 := { s with boot := { s.boot with claim := none } }
    if !readBack then fatalEvent s0 5
    else bootNext (logAdd (s0.setSlot_ t ⟨beNat h, true, false⟩) 10 t h)

/-- SET_TIME (R281, R475): the time base takes the value, as a step without the jump check. -/
def execSetTime (s : State) : Out :=
  if !bootAt s 7 then .next s
  else
    let w0 := bootW s 0
    let n := w0 % 8
    let k := bootW s 1 % 16
    let stamp := if bits w0 4 4 = 1 then bootArg s k * 65536 + bootArg s (k + 1) / 65536
      else bootW s 1 * 65536 + bits (bootW s 2) 31 16
    .next (bootNext (stepDue s ⟨n, 0, some stamp, none, none, false⟩))

/-- What a read of the engine at an offset gives (R27). -/
def bootRead (s : State) (off : Nat) : Nat := if off % 4 = 0 ∧ off < 0x4000000 then (barRead s off).toNat else 0xFFFFFFFF

/-- The condition of a WAIT_UNTIL (R475). -/
def waitMet (s : State) : Bool :=
  let w0 := bootW s 0
  if bits w0 23 20 = 0 then
    isPast (if bits w0 4 4 = 1 then bootArg s (bootW s 1 % 16) else bootW s 1) (s.tbNs (bits w0 3 0))
  else bootRead s (bootW s 1) &&& bootW s 2 == bootW s 3

/-- TIMEOUT of a WAIT_UNTIL, in microseconds. -/
def waitTmo (s : State) : Nat := if bits (bootW s 0) 23 20 = 0 then bootW s 2 else bootW s 4

/-- The read a WAIT_UNTIL of KIND 1 makes: its effect on the register read, or, at an address of no register, the record of a
refused read (R27, R29). -/
def waitReads (s : State) : State :=
  let off := bootW s 1
  if bits (bootW s 0) 23 20 = 0 then s
  else if off % 4 = 0 ∧ off < 0x4000000 then readEffect s off else refuseAccess s false off

/-- WAIT_UNTIL (R475, R489): a condition that holds already ends it at once. -/
def execWaitUntil (s : State) : Out :=
  if !bootAt s 8 then .next s
  else if waitMet s then .next (bootNext (waitReads s))
  else
    let s1 := waitReads s
    .next { s1.set BOOT_STATE_STATE 3 with boot := { s1.boot with waitEnd := s.now + 1000 * waitTmo s } }

/-- WAIT_UNTIL_MET (R475, R492). -/
def execWaitUntilMet (s : State) : Out :=
  if !bootWaits s then .next s
  else if waitMet s then .next (bootNext ((waitReads s).set BOOT_STATE_STATE 2)) else .next (waitReads s)

/-- WAIT_UNTIL_TIMEOUT (R480, R492): the condition wins where both meet. -/
def execWaitUntilTimeout (s : State) : Out :=
  if !bootWaits s || decide (s.now < s.boot.waitEnd) then .next s
  else if waitMet s then .next (bootNext ((waitReads s).set BOOT_STATE_STATE 2))
  else .next (bootAbort (waitReads s) 0x0703 (waitTmo s))

/-- The field an IF_FUSE names (R421, R475). -/
def fuseField (s : State) (sel : Nat) : Nat :=
  if sel < 4 then (s.slot_ sel).state else if sel = 4 then s.get GLB_ID_REV else s.get BOOT_STATE_RESTARTED

/-- Words of the next `n` instructions from byte `pos` on. -/
def skipWords (s : State) : Nat → Nat → Nat
  | 0, _ => 0
  | n + 1, pos =>
    let k := insWords (imgWord s s.boot.base pos) (imgWord s s.boot.base (pos + 4))
    k + skipWords s n (pos + 4 * k)

/-- IF_FUSE (R475, R487). -/
def execIfFuse (s : State) : Out :=
  if !bootAt s 9 then .next s
  else
    let w0 := bootW s 0
    let same := fuseField s (bits w0 23 16) == bits w0 15 8
    let s1 := bootNext s
    .next (if same == (bits w0 7 7 == 0) then s1 else bootSkip s1 (skipWords s1 (bootW s 1 % 65536) s1.boot.pos))

/-! ### COMMIT (R482) -/

/-- A control-store word's 16 bytes. -/
def csBytes (x : BitVec 136) : Bytes := leBytes 16 (x.toNat % 2 ^ 128)

/-- Every RW/L field of BAR0 in address order (R403): the words that hold them, in the order of their addresses, without their other
bits. -/
def configWords (s : State) : List Word :=
  (List.range 0x1000000).filterMap (fun i =>
    match regDesc (4 * i) with
    | some r => if r.lk = 0 then none else some (rword s.regs (4 * i) &&& w32 r.lk)
    | none => none)

/-- What the CONFIG entry measures (R403): each such word little-endian, as R404 has it (DESIGN CHOICE, log entry 14). -/
def configData (s : State) : Bytes := (configWords s).flatMap (fun w => leBytes 4 w.toNat)

/-- The log entries of COMMIT, in the order of R403. -/
def commitLog (s : State) : State :=
  let s1 := logAdd s 5 s.sec.trust.length (s.sec.trust.flatMap (·.2))
  let s2 := (hostCs s).foldl (fun t g => logAdd t 6 g
    ((s.csHost.filter (fun e => e.1 / 8192 == g)).flatMap (fun e => leBytes 2 (e.1 % 8192) ++ csBytes e.2))) s1
  let s3 := (spsOn s).foldl (fun t g => logAdd t 7 g
    ((List.range 0x1800).flatMap (fun i => csBytes (csWord s g (0x800 + i))))) s2
  logAdd s3 8 0 (configData s)

/-- The image goes to retention RAM, in place of an earlier one (R482, R489, R490). -/
def retain (s : State) : State :=
  let len := imgLen s s.boot.base
  let kept := s.mem.filter (fun e => e.1 < retainedA)
  let img := (s.mem.filter (fun e => s.boot.base ≤ e.1 && e.1 < s.boot.base + len)).map
    (fun e => (e.1 - s.boot.base + retainedA, e.2))
  let s1 := { s with mem := kept ++ img }
  ((((s1.set BOOT_STATE_RETAINED 1).set BOOT_STATE_AUTO (s.mem.getLE (s.boot.base + 7) 1 % 2)).set BOOT_STATE_RSLOT
    (s.mem.getLE (s.boot.base + 6) 1)).set BOOT_ID_ID (imgWord s s.boot.base 12))

/-- Gate masks and stream gates at COMMIT (R84, R95). -/
def commitGates (s : State) : State :=
  let s1 := (List.range 16).foldl gatesSafe s
  (entriesOf s1.str 3 0).foldl (fun t i => t.setStr 3 i 0 (putBits (t.strW 3 i 0) 31 31 (bits (t.strW 3 i 0) 30 30))) s1

/-- Schedule processors at COMMIT: the enabled ones await the first boundary, where they enter vector 0 (R137, R482). -/
def commitSps (s : State) : State :=
  (spsOn s).foldl (fun t g => t.setSp g { t.sp g with run := .waitTick, vec0 := true }) s

/-- Cold start and guardians at COMMIT (R249, R258). -/
def commitCold (s : State) : State :=
  let s1 := (List.range 8).foldl (fun t n => if csOn t n then toListen t n else t) s
  (List.range 128).foldl (fun t p =>
    if t.flag (PRT_GRD_CTL_EN p) && grdWaits t then t.set (PRT_GRD_STAT_STATE p) 1 else t) s1

/-- Ports leave PS4 and begin Clause 73 or training (R46, R47, R482). -/
def commitPorts (s : State) : State :=
  (List.range 128).foldl (fun t p =>
    let m := modeOf t p
    if m = 0 then t else portStart t p m (modeMask m (t.get (PRT_MODE_LSEL p)))) s

/-- The commit point (R482): the control store is copied (R144), RW/L fields lock, the tick, the carafe engine, the power controller,
cold start and the ports start. -/
def commitPoint (s : State) : State :=
  let copy := s.cs.filter (fun e => s.flag (SP_CTL_EN (e.1 / 8192)) && decide (0x800 ≤ e.1 % 8192))
  let s1 := { s with csCopy := some copy, locked := true }
  let s2 := compoundBegin ((tickBegin (s1.set CRF_CTL_RUN 1)).set PWR_CTL_RUN 1)
  commitPorts (commitCold (commitSps (commitGates s2)))

/-- A COMMIT whose checks pass. -/
def commitOp (s : State) : State :=
  let s1 := commitPoint (retain (commitLog s))
  bootNext ((s1.set BOOT_STATUS_START 2).set BOOT_STATE_STATE 5)

/-- The checks of a COMMIT, and what follows (R479, R482, R490). -/
def commitEnd (s : State) : State :=
  match commitFault s with
  | some (code, arg) => if code = 0x0705 then bootFail s code s.boot.pos none else bootAbort s code arg
  | none => commitOp s

/-- COMMIT (R482, R489): the checks begin. -/
def execCommit (s : State) : Out := if bootAt s 10 then .next (s.set BOOT_STATE_STATE 4) else .next s

/-- What the boot engine completes by the end of a base clock: verification, a claim, the checks of a COMMIT and its commit point (DESIGN
CHOICE, log entry 72). -/
def bootSettle (s : State) : State :=
  if s.fatal then s
  else match s.get BOOT_STATE_STATE with
  | 1 => verify s
  | 2 => claimEnd s
  | 4 => commitEnd s
  | _ => s

end Sys2Proof.Machine
end

