-- ==== Sys2Proof/Machine/Clock.lean ====
section
/-! DEFINITION. A base clock in which no command comes: how the clock before it ends, and how the new one begins. -/

namespace Sys2Proof.Machine

/-- The fault collector runs from the clock after a power-on reset on (R446, R484; DESIGN CHOICE, log entry 109), and takes the lines that
are active then. -/
def collectorRuns (s : State) : State := if s.collector then s else relatchLive { s with collector := true } 0

/-- The end of a base clock: what its commands have begun is completed. Doorbells that waited for a publication are
checked (R371), latent-error periods that end are judged (R248), steps
are added to their time bases (R280, R311), and the boot engine verifies, claims or commits (log entry 72). -/
def endClock (s : State) : State := bootSettle (applySteps (laerrEnd (bellsEnd (collectorRuns s))))

/-- A word whose first clock is this one, four core clocks after the trap entry before it, finds the state of this clock (R130, R139). -/
def fetchWords (s : State) : State :=
  (List.range 16).foldl (fun t g =>
    if (t.sp g).run = .exec ∧ (t.sp g).rd.at_ = t.now then t.setSp g { t.sp g with rd := spReads t g 0 } else t) s

/-- One base clock without a command: the one before ends, the counters advance, the parts of the boundary sequence whose instants have
come run (R158), and frames of the device that wait take the lines that are free (R182). -/
def idleClock (s : State) : State := runAllJobs (fetchWords (dueParts (baseClock (endClock s))))

end Sys2Proof.Machine
end

