-- ==== Sys2Proof/Machine/HostReset.lean ====
section
/-! DEFINITION. The host-interface reset (R363, R385, R444) and the function level reset of a virtual function. -/

namespace Sys2Proof.Machine

/-- A register word after an HIR, by its After HIR column (R4). -/
def hirWord (r : RegDesc) (v : Word) : Word := (v &&& w32 r.keep) ||| w32 r.hir

/-- Give the stored words whose offset satisfies `p` their After HIR values. -/
def hirRegs (r : Regs) (p : Nat → Bool) : Regs :=
  r.foldl (fun t e =>
    if p e.1 then (match regDesc e.1 with | some d => wword t e.1 (hirWord d e.2) | none => t) else t) r

/-- A frame whose descriptor no longer completes: one from a ring that satisfies `p`. -/
def unhost (p : Nat → Bool) (f : QFrame) : QFrame :=
  match f.host with
  | some (ring, _) => if p ring then { f with host := none, tsReq := false } else f
  | none => f

/-- Frames already handed to a port or the pipeline proceed, but the descriptors of the rings `p` never complete (R363). -/
def unhostFrames (s : State) (p : Nat → Bool) : State :=
  { s with
    queues := s.queues.map (fun e => (e.1, e.2.map (unhost p)))
    ports := s.ports.map (fun e => (e.1, { e.2 with
      tx := e.2.tx.map (fun t => { t with fr := t.fr.map (unhost p) })
      rest := e.2.rest.map (fun x => (unhost p x.1, x.2)) }))
    rxOpen := s.rxOpen.map (fun e => (e.1, e.2.map (fun r => { r with fr := unhost p r.fr }))) }

/-- Transmit stamps of descriptors that never complete give their places back. -/
def freeStamps (s : State) : State :=
  { s with ports := (s.ports.map (fun e => (e.1, { e.2 with stamps := 0 }))).filter (fun e => decide (e.2 ≠ PortSt.rst)) }

/-- The messages at the end of an HIR (R444): one for every enabled scope whose FLT_NEW bit is 1. -/
def hirMessages (s : State) : State :=
  (List.range 6).foldl (fun t k =>
    if t.get FLT_NEW_NEW / 2 ^ k % 2 = 1 ∧ t.flag (FLT_VEC_EN k) then sendMsix t 0 (t.get (FLT_VEC_VEC k)) else t) s

/-- Configuration space at its PCI Express defaults, the link trained again (R363): as the host and the board let it, or, after a function
level reset, as it was. -/
def retrained (s : State) : HirCause → PcieCfg
  | .perst l => { PcieCfg.dflt with gen := l.gen.val + 1, width := linkLanes l.width }
  | .linkDown l => { PcieCfg.dflt with gen := l.gen.val + 1, width := linkLanes l.width }
  | .flr => { PcieCfg.dflt with gen := s.pcie.gen, width := s.pcie.width }
  | .glbHir => s.pcie

/-- The MSI-X tables and configuration space after an HIR: GLB_HIR keeps them, the other causes return them to their defaults (R363, R485);
the pending state goes either way. -/
def hirVectors (s : State) (cause : HirCause) : State :=
  if cause = .glbHir then
    { s with vecs := (s.vecs.map (fun e => (e.1, { e.2 with pend := false }))).filter (fun e => decide (e.2 ≠ VecSt.rst)) }
  else { s with vecs := [], fnMsix := [], pcie := retrained s cause, mem := tclear s.mem (fun a => 0x5000000 ≤ a && a < 0x6000000) }

/-- A head's shadow write of the clock in which an HIR starts is not issued (R371). -/
def shadowBack (s : State) : State :=
  if s.shadowWas.1 = s.now then s.shadowWas.2.foldl (fun t e => t.hostPut e.1 e.2) { s with shadowWas := (0, []) } else s

/-- BUSY of every control-store window reads 0 after an HIR; an access in progress has completed (R151). -/
def csIdle (s : State) : State :=
  { s with sps := (s.sps.map (fun e => (e.1, { e.2 with csEnd := 0 }))).filter (fun e => decide (e.2 ≠ Sp.rst)) }

/-- The host-interface reset but for its messages: every ring, DMA job and held frame is gone, a halt ends, and every register takes
its After HIR value (R4, R363, R385). -/
def hirClear (s : State) (cause : HirCause) : State :=
  let s1 := freeStamps (unhostFrames (csIdle (shadowBack s)) (fun _ => true))
  let s2 := hirVectors { s1 with regs := hirRegs s1.regs (fun _ => true), rings := [], rxHold := [], dma := [], dmaLast := 0, bells := [] } cause
  s2.incW GLB_HIR_COUNT

/-- HIR (R363, R369, R444): a boot run and the network continue (R485, R492); ignored in the fatal state (R448). -/
def hirOp (s : State) (cause : HirCause) : State :=
  if s.fatal then s else hirMessages (hirClear s cause)

/-- HIR (R363). -/
def execHir (cause : HirCause) (s : State) : Out := .next (hirOp s cause)

/-- Transmit stamps whose results a ring drops give their places back (R285). -/
def resultsBack (s : State) (r : Ring) : State :=
  (r.done.flatMap (·.2)).foldl (fun t w =>
    if w.1 = 100 then t.setPort w.2 { t.port w.2 with stamps := (t.port w.2).stamps - 1 } else t) s

/-- A function level reset of virtual function `f` (R363): its rings are removed and its page is reset; a halt stays. -/
def vfReset (s : State) (f : Nat) : State :=
  let mine : Nat → Bool := fun g => (s.ring 0 g).created && (s.ring 0 g).fn == f
  let gone := s.rings.filter (fun e => e.2.fn == f && e.2.created)
  let s1 := gone.foldl (fun t e => resultsBack t e.2) (unhostFrames s mine)
  let page : Nat → Bool := fun o => 0x700000 + 0x1000 * f ≤ o && o < 0x701000 + 0x1000 * f
  { s1 with
    regs := hirRegs s1.regs page
    rings := s1.rings.filter (fun e => !(e.2.fn == f && e.2.created))
    rxHold := s1.rxHold.filter (fun e => !gone.any (fun r => r.1 == ringK 1 e.1))
    dma := s1.dma.filter (fun e => !gone.any (fun r => r.1 == ringK 2 e.1)) }

/-- FUNCTION_LEVEL_RESET (R363): of the physical function, an HIR; of a virtual function, its rings and page only. -/
def execFunctionLevelReset (f : Fn) (s : State) : Out :=
  if s.fatal then .next s else .next (if f.val = 0 then hirOp s .flr else vfReset s f.val)

end Sys2Proof.Machine
end

