-- ==== Sys2Proof/Machine/PciCfg.lean ====
section
/-! DEFINITION. The PCI Express configuration space of the functions (R339, R363). What the spec gives is in it; its layout is that of the PCI
Express standard, with the capabilities at places of the model's choice (PRESUMED, log entry 9). -/

namespace Sys2Proof.Machine

/-- Whether virtual function `f` is enabled (R339): VF Enable is set, and NumVFs reaches it. -/
def vfLive (s : State) (f : Nat) : Bool := s.pcie.vfOn && decide (1 ≤ f ∧ f ≤ s.pcie.vfs)

/-- Size of a BAR as its key names it (R340). -/
def barSize : Nat → Nat
  | 0 => 2 ^ 26
  | 2 => 2 ^ 24
  | 4 => 2 ^ 16
  | _ => 2 ^ 14

/-- The BAR, and whether its high word, at a place of function 0's configuration space. -/
def cfgBar : Nat → Option (Nat × Bool)
  | 0x10 => some (0, false)
  | 0x14 => some (0, true)
  | 0x18 => some (2, false)
  | 0x1C => some (2, true)
  | 0x20 => some (4, false)
  | 0x24 => some (4, true)
  | 0x124 => some (6, false)
  | 0x128 => some (6, true)
  | _ => none

/-- A word of a BAR register: 64-bit, non-prefetchable memory (R340). -/
def barWord (s : State) (b : Nat) (high : Bool) : Nat :=
  let a := tget 0 s.pcie.bars b
  if high then a / 2 ^ 32 else a % 2 ^ 32 + 4

/-- A write of a word of a BAR register: the address bits below its size stay 0. -/
def barSet (s : State) (b : Nat) (high : Bool) (v : Nat) : State :=
  let a := tget 0 s.pcie.bars b
  let a1 := if high then v * 2 ^ 32 + a % 2 ^ 32 else a / 2 ^ 32 * 2 ^ 32 + v
  { s with pcie := { s.pcie with bars := tset 0 s.pcie.bars b (a1 / barSize b * barSize b) } }

/-- The MSI-X capability of a function (R339, R340): enable and table size, the places of table and pending bits. -/
def msixCap (s : State) (f o : Nat) : Nat :=
  if o = 0x80 then (s.msixOn f).toNat * 2 ^ 31 + (if f = 0 then 2047 else 255) * 65536 + 0x11
  else if o = 0x84 then (if f = 0 then 4 else 0x1000)
  else if f = 0 then 0x8004 else 0x2000

/-- The PCI Express capability of a function (R339): payload and read-request sizes, link rate and width, target speed. -/
def expressCap (s : State) (o : Nat) : Nat :=
  match o with
  | 0x40 => 0x00028010
  | 0x44 => 0x10000002
  | 0x48 => s.pcie.readReq * 2 ^ 12 + s.pcie.payload * 2 ^ 5
  | 0x4C => 16 * 16 + 5
  | 0x50 => s.pcie.width * 2 ^ 20 + s.pcie.gen * 2 ^ 16
  | 0x6C => 0x3E
  | 0x70 => s.pcie.target
  | _ => 0

/-- The SR-IOV capability of function 0 (R339). -/
def sriovCap (s : State) (o : Nat) : Nat :=
  match o with
  | 0x100 => 0x00010010
  | 0x108 => s.pcie.vfOn.toNat
  | 0x10C => 63 * 65536 + 63
  | 0x110 => s.pcie.vfs
  | 0x118 => deviceId 1 * 65536
  | _ => 0

/-- A word of a function's configuration space at a multiple of four. A virtual function's identity reads all ones, as SR-IOV has it. -/
def cfgWord (s : State) (f o : Nat) : Nat :=
  match (if f = 0 then cfgBar o else none) with
  | some (b, high) => barWord s b high
  | none =>
    if o = 0 then (if f = 0 then deviceId 0 * 65536 + Config.vendorId.toNat else 2 ^ 32 - 1)
    else if o = 0x04 then 0x100000 + s.pcie.command
    else if o = 0x08 then classCode * 256 + 0xB0
    else if o = 0x34 then 0x40
    else if 0x80 ≤ o ∧ o ≤ 0x88 then msixCap s f o
    else if 0x40 ≤ o ∧ o ≤ 0x70 then expressCap s o
    else if f = 0 then sriovCap s o else 0

/-- A retraining of the link to its target speed (R339). -/
def linkRetrain (s : State) : State :=
  let g := s.pcie.target
  { s with pcie := { s.pcie with gen := if 1 ≤ g ∧ g ≤ 5 then g else 5 } }

/-- A write of a word of a function's configuration space: a function level reset, MSI-X, sizes, the link, virtual functions, BARs. -/
def cfgPut (s : State) (f o v : Nat) : State :=
  if o = 0x80 then { s with fnMsix := tset false s.fnMsix f (bits v 31 31 == 1) }
  else if o = 0x48 ∧ bits v 15 15 = 1 then stateOf s (execFunctionLevelReset (Fin.ofNat 64 f) s)
  else if f ≠ 0 then s
  else match cfgBar o with
  | some (b, high) => barSet s b high v
  | none =>
    match o with
    | 0x04 => { s with pcie := { s.pcie with command := v % 65536 } }
    | 0x48 => { s with pcie := { s.pcie with payload := bits v 7 5, readReq := bits v 14 12 } }
    | 0x50 => if bits v 5 5 = 1 then linkRetrain s else s
    | 0x70 => { s with pcie := { s.pcie with target := v % 16 } }
    | 0x108 => { s with pcie := { s.pcie with vfOn := v % 2 == 1 } }
    | 0x110 => if s.pcie.vfOn then s else { s with pcie := { s.pcie with vfs := min (v % 65536) 63 } }
    | _ => s

/-- Whether an access reaches a function's configuration space: one, two or four bytes of one word, of a function that is there. -/
def cfgOk (s : State) (f o size : Nat) : Bool := (f == 0 || vfLive s f) && (size == 1 || size == 2 || size == 4) && o % size == 0

/-- A read of configuration space. -/
def cfgLoad (s : State) (f o size : Nat) : Option Bytes :=
  if cfgOk s f o size then some (((leBytes 4 (cfgWord s f (o / 4 * 4))).drop (o % 4)).take size) else none

/-- A write of configuration space: the other bytes of the word are written as they read. -/
def cfgStore (s : State) (f o size v : Nat) : State :=
  if cfgOk s f o size then cfgPut s f (o / 4 * 4) (leNat (spliceAt (leBytes 4 (cfgWord s f (o / 4 * 4))) (o % 4) (leBytes size v))) else s

end Sys2Proof.Machine
end

