-- ==== Sys2Proof/Machine/Access.lean ====
section
/-! DEFINITION. The host's memory accesses (R26, R27, R340, R473), and the power-on and warm device resets (R484 to R486). -/

namespace Sys2Proof.Machine

/-! ### Power-on and warm device reset -/

/-- A dark state takes over what belongs to the world outside the device, or is the model's record of it. -/
def outside (s d : State) : State :=
  { d with hostMem := s.hostMem, pending := s.pending, out := s.out, free := s.free }

/-- PPS_OUT pins that were high fall: a disabled generator drives its pin low (R293). -/
def ppsFall (s d : State) : State := s.ppsHigh.foldl (fun t e => t.emit (.pps e.1 false)) d

/-- A power-on reset (R449, R484, R485): the complete dark state, with the fuses as they stand, before the collector first runs (R446). The
line of an absent TIME_REFCLK (`ref` 0) is active (R290). -/
def powerOn (s : State) (straps ref : Nat) : State :=
  let d := { ppsFall s (outside s (State.dark s.sec.slots straps ref)) with collector := false }
  if ref = 0 then setLive d 0 7 true else d

/-- POWER_ON_RESET (R485). -/
def execPowerOnReset (straps : Fin 4) (ref : Fin 3) (s : State) : Out := .next (powerOn s straps.val ref.val)

/-- Registers that a warm device reset keeps whole (R277, R486): INC, the clock status, BOOT_HALT0 and BOOT_HALT1, BOOT_ID,
BOOT_ARG, and the live lines of the device's sources. -/
def warmKept (o : Nat) : Bool :=
  o == 0x40900 || (decide (0x4000C ≤ o) && decide (o < 0x40800) && (o % 0x100 == 0x0C || o % 0x100 == 0x10)) ||
  o == BOOT_HALT0 || o == BOOT_HALT1 || o == BOOT_ID || (decide (0xB00040 ≤ o) && decide (o < 0xB00080)) ||
  o == SHELL_LIVE (shellBase 0)

/-- A counter after a warm device reset: its value and INC stay, the servo term is zero (R277). -/
def warmTb (t : Tb) : Tb := { t with servo := 0, servoHi := 0 }

/-- The counters after a warm device reset. -/
def warmTbs (t : Tab Tb) : Tab Tb := (t.map (fun e => (e.1, warmTb e.2))).filter (fun e => decide (e.2 ≠ Tb.rst))

/-- The vectors after a warm device reset: masks stay, nothing is pending (R363, R485). -/
def warmVecs (t : Tab VecSt) : Tab VecSt :=
  (t.map (fun e => (e.1, { e.2 with pend := false }))).filter (fun e => decide (e.2 ≠ VecSt.rst))

/-- Byte memories that a warm device reset keeps: BAR2, the MSI-X table, the retained image (R485, R486). -/
def warmMem (a : Nat) : Bool := (decide (0x4000000 ≤ a) && decide (a < 0x6000000)) || decide (retainedA ≤ a)

/-- The state a warm device reset leaves, before any retained restart (R485, R486). -/
def warmState (s : State) : State :=
  let d := outside s (State.dark s.sec.slots s.smbAddr (s.get TB_CLK_STAT_REF))
  let d1 := { d with
    regs := s.regs.filter (fun e => warmKept e.1)
    mem := s.mem.filter (fun e => warmMem e.1)
    now := s.now
    tbs := warmTbs s.tbs
    vecs := warmVecs s.vecs
    fnMsix := s.fnMsix
    pcie := s.pcie
    sdLost := s.sdLost
    evAt := tset 0 d.evAt warmK (s.now + 1) }
  let d2 := (((d1.set BOOT_STATE_RETAINED (s.get BOOT_STATE_RETAINED)).set BOOT_STATE_AUTO (s.get BOOT_STATE_AUTO)).set
    BOOT_STATE_RSLOT (s.get BOOT_STATE_RSLOT)).set BOOT_STATE_WRCNT (min 65535 (s.get BOOT_STATE_WRCNT + 1))
  relatchLive (ppsFall s (d2.set BOOT_LAST_START (s.get BOOT_STATUS_START))) 0

/-- A warm device reset (R485 to R487): ignored in the fatal state (R448); with AUTO = 1 the retained image starts. `ramOk`: the
retention RAM check passes. -/
def warmReset (s : State) (ramOk : Bool) : State :=
  if s.fatal then s
  else
    let d := warmState s
    if d.flag BOOT_STATE_RETAINED && d.flag BOOT_STATE_AUTO then restartRun d ramOk false else d

/-- WARM_DEVICE_RESET (R485): from WRST_N or BOOT_CTL.WRST. -/
def execWarmDeviceReset (_ : WrstCause) (ramOk : Bool) (s : State) : Out := .next (warmReset s ramOk)

/-! ### The host's writes -/

/-- A write of BOOT_CTL: a warm reset wins over GO (R492), and GO over RESTART (log entry 2). -/
def bootCtlWrite (s : State) (v : Word) : State :=
  if getField v 29 1 = 1 then warmReset s true
  else if getField v 31 1 = 1 then goOp s
  else if getField v 30 1 = 1 then restartOp s true else s

/-- A host write of the BAR0 word at `off`. -/
def hostWord4 (s : State) (off : Nat) (v : Word) : State :=
  if off = GLB_HIR then (if getField v 31 1 = 1 then hirOp s .glbHir else s)
  else if off = BOOT_CTL then bootCtlWrite s v
  else barWrite s false off v

/-- Whether an access has a size and alignment of R27. -/
def accessOk (off size : Nat) : Bool := (size == 4 || size == 8) && off % size == 0

/-- Two word writes, the lower address first, or one (R27). -/
def writeWords (w : State → Nat → Word → State) (s : State) (off size : Nat) (data : BitVec 64) : State :=
  let s1 := w s off (w32 data.toNat)
  if size = 8 then w s1 (off + 4) (w32 (data.toNat / 2 ^ 32)) else s1

/-- A write of BAR0 (R27). -/
def bar0Write (s : State) (off size : Nat) (data : BitVec 64) : State :=
  if accessOk off size then writeWords hostWord4 s off size data else refuseAccess s true off

/-- A write of BAR2, which takes the bytes that lie in its 16 MiB, in STATE 0, 5 and 6 alone (R473); what it
replaces is kept for a GO of the same clock (R492). -/
def bar2Write (s : State) (o size : Nat) (data : BitVec 64) : State :=
  let st := s.get BOOT_STATE_STATE
  let b := (leBytes (min size 8) data.toNat).take (0x1000000 - o)
  if 1 ≤ st ∧ st ≤ 4 then s
  else
    let before := if s.boot.wrote.1 = s.now then s.boot.wrote.2 else []
    { s with boot := { s.boot with wrote := (s.now, before ++ [(o, s.bytes (bar2A o) b.length)]) } }.putBytes (bar2A o) b

/-- A write of a word of a vector's MSI-X entry: bit 0 of word 3 masks the vector (R360). -/
def msixWord (s : State) (v w : Nat) (d : Word) : State :=
  if w ≠ 3 then s.putBytes (0x5000000 + 16 * v + 4 * w) (leBytes 4 d.toNat)
  else if getField d 0 1 = 1 then { s with vecs := tset VecSt.rst s.vecs v { s.vec v with masked := true } }
  else stateOf s (execVectorUnmask (Fin.ofNat 2048 v) s)

/-- A write of word `o` of the MSI-X table of function `f`, whose local vector i is global vector VBASE + i (R340, R341). -/
def msixTableWrite (f : Nat) (s : State) (o : Nat) (d : Word) : State :=
  let i := o / 16
  let v := s.get (GLB_FN_VEC_VBASE f) + i
  if hasVec s f i then msixWord s v (o % 16 / 4) d else s

/-- A write of a word of BAR4; the pending-bit array is read-only (R340). -/
def bar4Word (s : State) (o : Nat) (d : Word) : State := if o < 0x8000 then msixTableWrite 0 s o d else s

/-- A write of a word of VF f's BAR0 (R340): its page, its MSI-X table, its latch entries. -/
def vfWord (f : Nat) (s : State) (o : Nat) (d : Word) : State :=
  let i := (o - 0x3000) / 16
  if o < 0x1000 then hostWord4 s (0x700000 + 0x1000 * f + o) d
  else if o < 0x2000 then msixTableWrite f s (o - 0x1000) d
  else if o < 0x3000 then s
  else if hasVec s f i then
    hostWord4 s (0x48000 + 16 * (s.get (GLB_FN_VEC_VBASE f) + i) + o % 16) d
  else s

/-- A write of VF f's BAR0, which follows R27 (R340). A refused access is recorded with its offset in that BAR, the spec giving GLB_ACC_ERR
a BAR0 offset only (DESIGN CHOICE, log entry 115). -/
def vfWrite (s : State) (f o size : Nat) (data : BitVec 64) : State :=
  if accessOk o size then writeWords (vfWord f) s o size data else refuseAccess s true o

/-- A write in the model's one numbering of the BARs (log entry 2): BAR0 from 0, BAR2 from 0x4000000, BAR4 from 0x5000000, and
the BAR of virtual function f from 0x6000000 + 0x4000 f, the configuration space of function f from 0x7000000 + 0x1000 f. Beyond them
no window of the device takes the write. -/
def barsWrite (s : State) (off size : Nat) (data : BitVec 64) : State :=
  if off < 0x4000000 then bar0Write s off size data
  else if off < 0x5000000 then bar2Write s (off - 0x4000000) size data
  else if off < 0x5010000 then
    (if accessOk off size then writeWords bar4Word s (off - 0x5000000) size data else s)
  else if 0x6004000 ≤ off ∧ off < 0x6100000 then
    (let f := (off - 0x6000000) / 0x4000
     if vfLive s f then vfWrite s f ((off - 0x6000000) % 0x4000) size data else s)
  else if 0x7000000 ≤ off ∧ off < 0x7040000 then
    cfgStore s ((off - 0x7000000) / 0x1000) ((off - 0x7000000) % 0x1000) size data.toNat
  else s

/-! ### The host's reads -/

/-- Source of the reply that answers a host read. -/
def barSrc : Nat := 203

/-- One word read, and the state after it. -/
def hostRead4 (s : State) (off : Nat) : Word × State := (barRead s off, readEffect s off)

/-- Two word reads, the lower address first, or one: the bytes read (R27). -/
def readWords (r : State → Nat → Word × State) (s : State) (off size : Nat) : Bytes × State :=
  let (a, s1) := r s off
  if size = 8 then
    let (b, s2) := r s1 (off + 4)
    (leBytes 4 a.toNat ++ leBytes 4 b.toNat, s2)
  else (leBytes 4 a.toNat, s1)

/-- Answer a read with its bytes. -/
def answer (x : Bytes × State) : State := x.2.emit (.reply barSrc x.1)

/-- A read that R27 refuses: all ones, and the record. -/
def refuseRead (s : State) (off size : Nat) : State :=
  answer (List.replicate size 0xFF, refuseAccess s false off)

/-- An 8-byte read at a TB_NS, which R288 answers with a consistent stamp although it is not aligned. -/
def wideNs (off size : Nat) : Bool := decide (0x40000 ≤ off ∧ off < 0x40900) && off % 0x100 == 4 && size == 8

/-- A read of BAR0 (R27). -/
def bar0Read (s : State) (off size : Nat) : State :=
  if accessOk off size || wideNs off size then answer (readWords hostRead4 s off size) else refuseRead s off size

/-- A word of the MSI-X table of function `f` (R340, R341, R360): word 3 of an entry shows the mask. -/
def msixTableWord (s : State) (f o : Nat) : Word :=
  let i := o / 16
  let v := s.get (GLB_FN_VEC_VBASE f) + i
  if !hasVec s f i then 0
  else if o % 16 / 4 = 3 then w32 (s.vec v).masked.toNat
  else w32 (s.mem.getLE (0x5000000 + 16 * v + o % 16) 4)

/-- A word of the pending-bit array of function `f` (R340, R360). -/
def pbaWord (s : State) (f o : Nat) : Word :=
  w32 (((List.range 32).map (fun b =>
    let i := o / 4 * 32 + b
    let v := s.get (GLB_FN_VEC_VBASE f) + i
    bitAt (hasVec s f i && (s.vec v).pend) b)).sum)

/-- A word of BAR4 (R340). -/
def bar4Read4 (s : State) (o : Nat) : Word × State :=
  (if o < 0x8000 then msixTableWord s 0 o else pbaWord s 0 (o - 0x8000), s)

/-- A word of VF f's BAR0 (R310, R340): its page, its MSI-X table, its pending bits, its latch entries. -/
def vfRead4 (f : Nat) (s : State) (o : Nat) : Word × State :=
  let i := (o - 0x3000) / 16
  if o < 0x1000 then hostRead4 s (0x700000 + 0x1000 * f + o)
  else if o < 0x2000 then (msixTableWord s f (o - 0x1000), s)
  else if o < 0x3000 then (pbaWord s f (o - 0x2000), s)
  else if hasVec s f i then
    hostRead4 s (0x48000 + 16 * (s.get (GLB_FN_VEC_VBASE f) + i) + o % 16)
  else (0, s)

/-- A read in the model's one numbering of the BARs (R27, R340, R473): BAR2 returns what it holds at any time. A read asks for at
most 4,096 bytes (R339). Beyond the windows nothing answers. -/
def barsRead (s : State) (off size : Nat) : State :=
  let n := min size 4096
  if off < 0x4000000 then bar0Read s off n
  else if off < 0x5000000 then answer ((s.bytes (bar2A (off - 0x4000000)) n).take (0x5000000 - off), s)
  else if off < 0x5010000 then
    (if accessOk off n then answer (readWords bar4Read4 s (off - 0x5000000) n) else s)
  else if 0x6004000 ≤ off ∧ off < 0x6100000 then
    let o := (off - 0x6000000) % 0x4000
    let f := (off - 0x6000000) / 0x4000
    if !vfLive s f then s
    else if accessOk o n then answer (readWords (vfRead4 f) s o n) else refuseRead s o n
  else if 0x7000000 ≤ off ∧ off < 0x7040000 then
    (match cfgLoad s ((off - 0x7000000) / 0x1000) ((off - 0x7000000) % 0x1000) n with
     | some b => answer (b, s)
     | none => s)
  else s

/-- REGISTER_WRITE (R5, R27, R340, R473): a memory access of the host, a write or a read. -/
def execRegisterWrite (off size : Nat) (acc : BarAcc) (s : State) : Out :=
  match acc with
  | .write data => .next (barsWrite s off size data)
  | .read => .next (barsRead s off size)

end Sys2Proof.Machine
end

