-- ==== Sys2Proof/Machine/Lanes.lean ====
section
/-! DEFINITION. Lanes and port links: live calibration (R50 to R52), retreat at the following side (R56), its time-out
(R57), auto-negotiation (R46, R47). -/

namespace Sys2Proof.Machine

/-- EYE_MARGIN_SAMPLE (R51, R52, R71): the worst margins of one 1 ms sample of an active lane. A sample taken while the lane has
lost signal enters LN_MARGIN and is not judged, so what the last sample met stays (DESIGN CHOICE, log entry 88). -/
def execEyeMarginSample (l : Lane) (v h : Byte) (eye : Fin 3) (s : State) : Out :=
  if s.fatal || !laneCounts s l.val then .next s
  else
    let s1 := (((s.set (LN_MARGIN_VMARGIN l.val) v.toNat).set (LN_MARGIN_HMARGIN l.val) h.toNat).set
      (LN_MARGIN_EYE l.val) eye.val).incW (LN_MARGIN_SEQ l.val)
    let x := s1.lane l.val
    if x.lost then .next s1
    else
      let good := decide (s.get (LN_WATCH_VMIN l.val) ≤ v.toNat) && decide (s.get (LN_WATCH_HMIN l.val) ≤ h.toNat)
      let s2 := watchLive (s1.setLane l.val { x with sampled := true, healthy := good }) l.val
      .next (if good then s2 else raiseLane s2 l.val 0 .corrected)

/-- ERROR_METRIC_INTERVAL (R51, R52, R73): the lane's error metric over one 1 ms interval. An interval in a part of which signal or
lock was lost is not judged. -/
def execErrorMetricInterval (l : Lane) (metric : Nat) (s : State) : Out :=
  if s.fatal || !laneCounts s l.val then .next s
  else
    let s1 := s.incBy (LN_ERR_COUNT l.val) metric
    let x := s1.lane l.val
    if x.lost || x.gapped then .next (s1.setLane l.val { x with gapped := x.lost })
    else
      let bad := decide (s.get (LN_WATCH_ERR_MAX l.val) < metric)
      let s2 := watchLive (s1.setLane l.val { x with errBad := bad }) l.val
      .next (if bad then raiseLane s2 l.val 0 .corrected else s2)

/-- A lane loses clock recovery (R52, R70, R431): one LOS event, however long it lasts and whatever else is lost meanwhile. -/
def laneLoses (s : State) (l : Nat) : State :=
  if (s.lane l).lost then s
  else
    let s1 := (s.set (LN_STAT_CDR_LOCK l) 0).set (LN_STAT_ADAPT l) 0
    let s2 := { s1.setLane l { s1.lane l with lost := true, gapped := true } with quiet := tset 0 s1.quiet (laneP l) s1.now }
    let s3 := if laneActive s l then watchLive (setLive s2 (laneK l) 1 true) l else setLive s2 (laneK l) 1 false
    raiseLane s3 l 1 .corrected

/-- LOSS_OF_SIGNAL (R52, R70, R431): the lane has lost signal, or with `cdrOnly` clock recovery alone. -/
def execLossOfSignal (x : LaneLoss) (s : State) : Out :=
  if s.fatal then .next s
  else .next (laneLoses (if x.cdrOnly then s else s.set (LN_STAT_SIG_DET x.lane.val) 0) x.lane.val)

/-- SIGNAL_DETECT (R52, R70): signal is back, and with `lock` clock recovery too; a port in PS3 wakes (R460). -/
def execSignalDetect (x : LaneBack) (s : State) : Out :=
  let l := x.lane
  if s.fatal then .next s
  else
    let s0 := if laneActive s l.val then s.set (LN_STAT_SIG_DET l.val) 1 else s
    let s1 :=
      if !x.lock then s0
      else
        let t := setLive (s0.setLane l.val { s0.lane l.val with lost := false }) (laneK l.val) 1 false
        if laneActive s l.val then
          watchLive ((t.set (LN_STAT_CDR_LOCK l.val) 1).set (LN_STAT_ADAPT l.val) 1) l.val
        else t
    .next (if laneActive s l.val && curPs s (portK (laneP l.val)) == 3 then demand s1 (portK (laneP l.val)) else s1)

/-- The set with which a port follows a retreat advertised on a lane (R56): the first valid entry from its mode to the
advertised one, and the set whose lowest lane carries the pages. -/
def followSet (s : State) (p mode lane : Nat) : Option Nat :=
  match (List.range 4).find? (fun i => rtrValid s p i &&
      s.get (PRT_RTR_FROM p i) == s.get (PRT_STAT_CUR_MODE p) && s.get (PRT_RTR_TO p i) == mode) with
  | none => none
  | some i =>
    if s.flag (PRT_RTR_BEST p i) then (if laneFit s (4 * p + lane) then some (2 ^ lane) else none)
    else if lowestLane (s.get (PRT_RTR_SETA p i)) = lane then some (s.get (PRT_RTR_SETA p i))
    else if s.get (PRT_RTR_SETB p i) ≠ 0 ∧ lowestLane (s.get (PRT_RTR_SETB p i)) = lane then
      some (s.get (PRT_RTR_SETB p i))
    else none

/-- RETREAT_FOLLOW (R56, R432): pages advertising a mode arrive on a lane of a port whose link is down. -/
def execRetreatFollow (p : Port) (mode : Fin 16) (lane : Fin 4) (s : State) : Out :=
  let st := s.get (PRT_STAT_STATE p.val)
  if s.fatal || st == stUp || st == stOff || st == stRetired || !s.flag (PRT_MODE_RTR_EN p.val) then .next s
  else match followSet s p.val mode.val lane.val with
  | none => .next s
  | some m =>
    let s1 := (portStart s p.val mode.val m).set (PRT_STAT_RTR_FOLLOW p.val) 1
    let s2 := s1.setPort p.val { s1.port p.val with retreating := true, retreatAt := s1.now }
    .next (note s2 (portK p.val) 2 .corr)

/-- RETREAT_TIMEOUT (R57, R67): a retreating port is not up within PRT_RTR_TMO (0 acts as 1 ms). -/
def execRetreatTimeout (p : Port) (s : State) : Out :=
  let x := s.port p.val
  if s.fatal || !x.retreating || s.get (PRT_STAT_STATE p.val) == stUp ||
      decide (s.now - x.retreatAt < 1000000 * max 1 (s.get (PRT_RTR_TMO_TMO p.val))) then .next s
  else .next (portRetire s p.val)

/-- AN_RESOLVED (R46, R47, R460): Clause 73 resolves; training follows. A port in PS3 has its receiver idle, and one in a mode without
auto-negotiation takes no pages. -/
def execAnResolved (p : Port) (s : State) : Out :=
  if s.fatal || s.get (PRT_STAT_STATE p.val) != stAn || clockLost s p.val || curPs s (portK p.val) ≥ 3 ||
      !usesAn s p.val (s.get (PRT_STAT_CUR_MODE p.val)) then .next s
  else .next (s.set (PRT_STAT_STATE p.val) stTrain)

end Sys2Proof.Machine
end

