-- ==== Sys2Proof/Machine/Spdm.lean ====
section
/-! DEFINITION. The SPDM 1.2 responder (R405): its messages, capabilities, algorithms, certificate slots and measurements. What R405 leaves
to SPDM, the layout of the messages and what a signature covers, is that of DSP0274 1.2 (PRESUMED, log entry 111). -/

namespace Sys2Proof.Machine

/-- Source of replies through the DOE mailbox. -/
def doeSrc : Nat := 202

/-! ### Measurements and certificates -/

/-- The DMTF type of a log entry's measurement (R405): 0 immutable ROM, 1 mutable firmware, 2 hardware configuration, 3 firmware
configuration (the codes are PRESUMED from DSP0274, log entry 111). -/
def measureType (typ : Nat) : Nat :=
  match typ with
  | 1 => 0
  | 2 | 9 | 10 => 2
  | 5 | 8 => 3
  | _ => 1

/-- Measurement block n + 1, which is log entry n (R405). -/
def measureBlock (n : Nat) (e : LogE) : Bytes :=
  [b8 (n + 1), 1] ++ leBytes 2 51 ++ [b8 (measureType e.typ)] ++ leBytes 2 48 ++ sha e.measured

/-- Every measurement block, in the log's order (R405). -/
def measureBlocks (s : State) : List Bytes := s.sec.log.mapIdx measureBlock

/-- Length of the DER object at the start of a byte string. -/
def derLen (b : Bytes) : Nat :=
  match beField b 1 1 with
  | 0x82 => 4 + beField b 2 2
  | 0x81 => 3 + beField b 2 1
  | n => 2 + n

/-- The certificate chain of slot 0 (R396, R405): length, digest of the root certificate, and the EC chain, root first. -/
def certChain : Bytes :=
  let c := Config.cert 0
  leBytes 2 (52 + c.length) ++ [0, 0] ++ sha (c.take (derLen c)) ++ c

/-! ### Messages -/

/-- A connection of the responder. -/
def State.spdm (s : State) (c : Nat) : SpdmSt := tget SpdmSt.rst s.sec.spdm c
/-- Replace a connection. -/
def State.setSpdm (s : State) (c : Nat) (x : SpdmSt) : State :=
  { s with sec := { s.sec with spdm := tset SpdmSt.rst s.sec.spdm c x } }

/-- An ERROR message. -/
def spdmError (code data : Nat) : Bytes := [0x12, 0x7F, b8 code, b8 data]

/-- CAPABILITIES (R405): CERT_CAP, CHAL_CAP, MEAS_CAP = 2; messages of at most 4,096 bytes (R408). `ct` is the exponent of the time a
signature takes. -/
def spdmCaps (ct : Nat) : Bytes :=
  [0x12, 0x61, 0, 0, 0, b8 ct, 0, 0] ++ leBytes 4 0x16 ++ leBytes 4 4096 ++ leBytes 4 4096

/-- ALGORITHMS (R405): ECDSA P-384 and SHA-384, where the requester offers them. -/
def spdmAlgs (req : Bytes) : Bytes :=
  let pick : Nat → Nat → Nat := fun o bit => if leNat ((req.drop o).take 4) / bit % 2 = 1 then bit else 0
  let dmtf := beField req 6 1 % 2
  [0x12, 0x63, 0, 0] ++ leBytes 2 36 ++ [b8 dmtf, 0] ++ leBytes 4 (4 * dmtf) ++ leBytes 4 (pick 8 0x80) ++ leBytes 4 (pick 12 2) ++
    List.replicate 16 0

/-- What a responder's signature covers (DSP0274 1.2): the version four times, the context in 36 bytes, the transcript's digest. -/
def spdmSigned (ctx transcript : Bytes) : Bytes :=
  (List.replicate 4 (ascii "dmtf-spdm-v1.2.*")).flatten ++ List.replicate (36 - ctx.length) 0 ++ ctx ++ sha transcript

/-- GET_CERTIFICATE (R405): a part of slot 0's chain; slots 1 to 7 are empty. -/
def spdmCert (req : Bytes) : Bytes :=
  let from_ := leNat ((req.drop 4).take 2)
  let n := min (min (leNat ((req.drop 6).take 2)) (certChain.length - from_)) 4088
  if beField req 2 1 ≠ 0 ∨ certChain.length ≤ from_ then spdmError 1 0
  else [0x12, 0x02, 0, 0] ++ leBytes 2 n ++ leBytes 2 (certChain.length - from_ - n) ++ (certChain.drop from_).take n

/-- CHALLENGE_AUTH without its signature: `kind` is the measurement summary asked for. -/
def spdmChallenge (s : State) (kind n : Nat) : Bytes :=
  [0x12, 0x03, 0, 1] ++ sha certChain ++ fit 32 (Config.secretBytes 4 n) ++
    (if kind = 0 then [] else sha (measureBlocks s).flatten) ++ [0, 0]

/-- MEASUREMENTS without its signature: operation 0 asks for the number of blocks, 0xFF for all of them, another for one. -/
def spdmMeasure (s : State) (op n : Nat) : Option Bytes :=
  let all := measureBlocks s
  let reply : List Bytes → Bytes := fun bs =>
    [0x12, 0x60, b8 (if op = 0 then all.length else 0), 0, b8 bs.length] ++ leBytes 3 bs.flatten.length ++ bs.flatten ++
      fit 32 (Config.secretBytes 5 n) ++ [0, 0]
  if op = 0 then some (reply []) else if op = 0xFF then some (reply all) else (all[op - 1]?).map (fun b => reply [b])

/-- The answer to one request on connection `x`, and the connection after it; `n` are the random values of a nonce and a signature. A
request the responder does not know is unsupported; one before its time is unexpected. -/
def spdmAnswer (s : State) (x : SpdmSt) (req : Bytes) (n : Nat) : Bytes × SpdmSt :=
  let code := beField req 1 1
  let sign : Bytes → Bytes → Bytes := fun ctx m => fit 96 (Config.ecdsaSign idEc (spdmSigned ctx m) n)
  let agreed : Bytes → Nat → Bytes × SpdmSt := fun r phase => (r, ⟨phase, x.vca ++ req ++ r, [], []⟩)
  if code = 0x84 then
    let r : Bytes := [0x10, 0x04, 0, 0, 0, 1, 0, 0x12]
    (r, ⟨1, req ++ r, [], []⟩)
  else if ¬ [0xE1, 0xE3, 0x81, 0x82, 0x83, 0xE0].contains code then (spdmError 7 code, x)
  else if beField req 0 1 ≠ 0x12 then (spdmError 0x41 0, x)
  else if code = 0xE1 then (if x.phase = 1 then agreed (spdmCaps (n % 256)) 2 else (spdmError 4 0, x))
  else if code = 0xE3 then (if x.phase = 2 then agreed (spdmAlgs req) 3 else (spdmError 4 0, x))
  else if x.phase ≠ 3 then (spdmError 4 0, x)
  else match code with
  | 0x81 =>
    let r : Bytes := [0x12, 0x01, 0, 1] ++ sha certChain
    (r, { x with certs := x.certs ++ req ++ r })
  | 0x82 =>
    let r := spdmCert req
    (r, { x with certs := x.certs ++ req ++ r })
  | 0x83 =>
    if beField req 2 1 ≠ 0 then (spdmError 1 0, x)
    else
      let r := spdmChallenge s (beField req 3 1) n
      (r ++ sign (ascii "responder-challenge_auth signing") (x.vca ++ x.certs ++ req ++ r), { x with certs := [] })
  | _ =>
    match spdmMeasure s (beField req 3 1) n with
    | none => (spdmError 1 0, x)
    | some r =>
      if beField req 2 1 % 2 = 0 then (r, { x with meas := x.meas ++ req ++ r })
      else (r ++ sign (ascii "responder-measurements signing") (x.vca ++ x.meas ++ req ++ r), { x with meas := [] })

/-- An answer that fits a message (R408): a longer one is too large. -/
def spdmFit (b : Bytes) : Bytes := if b.length ≤ 4096 then b else spdmError 0x0D 0

/-- SPDM_REQUEST (R405, R408, R412): answered over DOE, or on the ingress port to the requester's address, one request a port and
millisecond. -/
def execSpdmRequest (src : Option SpdmFrom) (req : Bytes) (s : State) : Out :=
  if s.fatal || decide (4096 < req.length) then .next s
  else match src with
  | none =>
    let (n, s1) := s.draw
    let (r, x) := spdmAnswer s (s.spdm 0) req n
    .next ((demand (s1.setSpdm 0 x) 0).emit (.reply doeSrc (spdmFit r)))
  | some q =>
    let p := q.port.val
    if !macUp s p || q.ver != 1 then .next s
    else match lineTakes s p (typedHead 0x88B6 [1, 1]) q.varRx q.sec with
    | (false, s0) => .next s0
    | (true, s0) =>
      let y := s0.port p
      if !timeLeader s || decide (y.spdmAt ≠ 0 ∧ s.now + 1 < y.spdmAt + 1000000) then .next s0
      else
        let (n, s1) := s0.draw
        let (r, x) := spdmAnswer s (s.spdm (p + 1)) req n
        .next (sendOwn ((s1.setPort p { y with spdmAt := s.now + 1 }).setSpdm (p + 1) x) p
          (secFrame s1 q.sa.toNat 1 (spdmFit r)))

end Sys2Proof.Machine
end

