-- ==== Sys2Proof/Machine/Links.lean ====
section
/-! DEFINITION. Links coming up and going down (R47, R49, R432, R539) and the reference clocks of the port groups (R528). -/

namespace Sys2Proof.Machine

/-- LINK_UP (R47, R49, R407, R539): training is over, or was not needed, and the link of a port comes up, in STATE 2 or, in a mode without
auto-negotiation, in STATE 1 (log entry 36); a pairing port begins the pair handshake. -/
def execLinkUp (p : Port) (s : State) : Out :=
  let st := s.get (PRT_STAT_STATE p.val)
  let trained := st == stTrain || (st == stAn && !usesAn s p.val (s.get (PRT_STAT_CUR_MODE p.val)))
  if s.fatal || !trained || clockLost s p.val then .next s
  else .next (pairBegin (linkRise s p.val) p.val)

/-- LINK_LOST (R231, R432): a port in STATE 3 loses its link; LINK latches and the link restarts in CUR_MODE. -/
def execLinkLost (p : Port) (s : State) : Out :=
  if s.fatal then .next s else .next (raisePort s p.val 1 .corrected)

/-- A port of a group whose reference clock is lost: it leaves STATE 3 and stays in STATE 1. -/
def clockDrop (s : State) (p : Nat) : State :=
  let st := s.get (PRT_STAT_STATE p)
  if st = stOff ∨ st = stRetired then s else (linkDrop s p).set (PRT_STAT_STATE p) stAn

/-- REFCLK_SD_LOST (R528): each active lane of the group raises LOS once, unless it has already lost its signal, and its ports leave STATE 3
for STATE 1. -/
def execRefclkSdLost (g : Grp) (s : State) : Out :=
  if tget false s.sdLost g.val then .next s
  else
    let s1 := { s with sdLost := tset false s.sdLost g.val true }
    if s.fatal then .next s1
    else
      let lanes := ((List.range 32).map (32 * g.val + ·)).filter (laneActive s1)
      let s2 := lanes.foldl laneLoses s1
      .next ((List.range 8).foldl (fun t i => clockDrop t (8 * g.val + i)) s2)

/-- A port resumes Clause 73 or training in its mode on its active set (R46, R47, R528). -/
def clockResume (s : State) (p : Nat) : State :=
  let st := s.get (PRT_STAT_STATE p)
  if st = stOff ∨ st = stRetired ∨ st = stUp then s
  else portStart s p (s.get (PRT_STAT_CUR_MODE p)) (s.get (PRT_STAT_ACT_LANES p))

/-- REFCLK_SD_RETURN (R528): after 1 ms within tolerance the group's ports resume. -/
def execRefclkSdReturn (g : Grp) (s : State) : Out :=
  if !tget false s.sdLost g.val then .next s
  else
    let s1 := { s with sdLost := tset false s.sdLost g.val false }
    .next (if s.fatal then s1 else (List.range 8).foldl (fun t i => clockResume t (8 * g.val + i)) s1)

end Sys2Proof.Machine
end

