-- ==== Sys2Proof/Machine/Pins.lean ====
section
/-! DEFINITION. The side interfaces: SMBus reads (R531, R532) and the JTAG instructions (R416, R533). -/

namespace Sys2Proof.Machine

/-! ### SMBus -/

/-- Source of replies over SMBus. -/
def smbSrc : Nat := 200

/-- One bit of the packet error code (PRESUMED: SMBus, x^8 + x^2 + x + 1; log entry 26). -/
def pecBit (c : Nat) : Nat := if 128 ≤ c then Nat.xor (2 * c % 256) 7 else 2 * c

/-- One byte of the packet error code. -/
def pecByte (c : Nat) (b : Byte) : Nat := (List.range 8).foldl (fun x _ => pecBit x) (Nat.xor c b.toNat)

/-- The packet error code of a transaction's bytes. -/
def pec (bs : Bytes) : Byte := b8 (bs.foldl pecByte 0)

/-- The bytes of the device's address in a write and in a read. -/
def smbWr (s : State) : Byte := b8 (2 * (0x58 + s.smbAddr))
/-- The address byte of a read. -/
def smbRd (s : State) : Byte := b8 (2 * (0x58 + s.smbAddr) + 1)

/-- Answer a read: the data and the packet error code, which covers the bytes before it on the wire. No answer until the
collector runs (R531). -/
def smbReply (s : State) (sent wire data : Bytes) : State :=
  if !s.collector then s else s.emit (.reply smbSrc (data ++ [pec (smbWr s :: sent ++ smbRd s :: wire)]))

/-- READ_TEMPERATURE (R532). -/
def execReadTemperature (s : State) : Out :=
  let d := leBytes 2 (s.get FLT_TEMP_T)
  .next (smbReply s [0x01] d d)

/-- READ_VCORE (R454, R532): `mv` is VDD_CORE at the die when it is read. -/
def execReadVcore (mv : BitVec 16) (s : State) : Out :=
  let s1 := s.set FLT_VCORE_MV mv.toNat
  let d := leBytes 2 mv.toNat
  .next (smbReply s1 [0x02] d d)

/-- The byte of command 0x03: collector running, fatal state, SHOWN. -/
def smbStatus (s : State) : Byte := b8 (s.collector.toNat + 2 * s.fatal.toNat + 4 * getField (barRead s FLT_PIN_MASK) 31 1)

/-- READ_STATUS (R532). -/
def execReadStatus (s : State) : Out := .next (smbReply s [0x03] [smbStatus s] [smbStatus s])

/-- The windows of command 0x10. -/
def smbWindow (o : Nat) : Bool :=
  o == 0 || (decide (0x10000 ≤ o) && decide (o < 0x1A540)) || (decide (0x20000 ≤ o) && decide (o < 0x40000)) ||
  o == 0xB00004 || o == 0xB00010 || (decide (0xC00000 ≤ o) && decide (o < 0xC00800))

/-- Result and value of command 0x10 at an offset. -/
def smbRead (s : State) (o : Nat) : Nat × Nat :=
  if o % 4 ≠ 0 then (1, 0) else if smbWindow o then (0, (barRead s o).toNat) else (2, 0)

/-- What the host writes of a process call: command, byte count, offset (R532). -/
def smbCallBytes (off : Word) : Bytes := [0x10, 4] ++ leBytes 4 off.toNat

/-- Whether the host's packet error code, where it adds one, is that of its bytes (R531). -/
def smbPecOk (s : State) (x : SmbCall) : Bool :=
  match x.pec with
  | none => true
  | some c => c == pec (smbWr s :: smbCallBytes x.off)

/-- BAR0_READ (R531, R532): a wrong packet error code is not acknowledged, and the transaction is discarded: no reply. -/
def execBar0Read (x : SmbCall) (s : State) : Out :=
  let (r, v) := smbRead s x.off.toNat
  let d := b8 r :: leBytes 4 v
  if smbPecOk s x then .next (smbReply s (smbCallBytes x.off ++ x.pec.toList) (5 :: d) d) else .next s

/-- CLOCK_LOW_TIMEOUT (R531): the bus is released and the transaction abandoned; the rows above hold no transaction open. -/
def execClockLowTimeout (s : State) : Out := .next s

/-! ### JTAG -/

/-- Select an instruction. -/
def jtagIr (s : State) (code : Nat) : State := { s with jtag := { s.jtag with ir := code } }

/-- The boundary-scan instructions are offered until COMMIT, and after it under scope BSCAN (R416, R417). -/
def scanOpen (s : State) : Bool := !s.locked || s.get SEC_STAT_DBG % 2 == 1

/-- BYPASS: the bypass bit captures 0 and is shifted out (IEEE 1149.1). -/
def jtagBypass (s : State) : State := (jtagIr s 0xFF).emit (.reply jtagSrc [0])

/-- The pins are captured and shifted out. What they show, and in how many bits, the spec does not say: a free value. -/
def jtagCapture (s : State) : State :=
  let (n, s1) := s.draw
  s1.emit (.reply jtagSrc (Config.boundaryScan n))

/-- A boundary-scan instruction that drives the pins from the boundary register and captures them (IEEE 1149.1, 1149.6; PRESUMED, log
entry 27); one that is locked selects BYPASS. -/
def jtagScan (s : State) (code : Nat) : State :=
  if scanOpen s then jtagCapture ((jtagIr s code).emit (.scan code s.jtag.latch)) else jtagBypass s

/-- IDCODE (R533). -/
def execIdcode (s : State) : Out := .next ((jtagIr s 0x01).emit (.reply jtagSrc (leBytes 4 0xB5128D67)))

/-- BYPASS (R533). -/
def execBypass (s : State) : Out := .next (jtagBypass s)

/-- SAMPLE_PRELOAD (R533): the pins are captured, and the boundary register takes `v`. -/
def execSamplePreload (v : Nat) (s : State) : Out :=
  if !scanOpen s then .next (jtagBypass s) else .next (jtagCapture { s with jtag := ⟨0x02, v⟩ })

/-- EXTEST (R533): the boundary register drives the pins. -/
def execExtest (s : State) : Out := .next (jtagScan s 0x03)

/-- EXTEST_PULSE (R533, IEEE 1149.6). -/
def execExtestPulse (s : State) : Out := .next (jtagScan s 0x04)

/-- EXTEST_TRAIN (R533, IEEE 1149.6). -/
def execExtestTrain (s : State) : Out := .next (jtagScan s 0x05)

end Sys2Proof.Machine
end

