-- ==== Sys2Proof/Machine/Dispatch.lean ====
section
/-! DEFINITION. The meaning of every command: one arm per constructor of `Instr`. -/

namespace Sys2Proof.Machine

def exec (i : Instr) (s : State) : Host.Outcome State Fault Refusal :=
  match i with
  | .powerOnReset straps ref => Sys2Proof.Machine.execPowerOnReset straps ref s
  | .warmDeviceReset cause ramOk => Sys2Proof.Machine.execWarmDeviceReset cause ramOk s
  | .hir cause => Sys2Proof.Machine.execHir cause s
  | .functionLevelReset f => Sys2Proof.Machine.execFunctionLevelReset f s
  | .registerWrite off size acc => Sys2Proof.Machine.execRegisterWrite off size acc s
  | .shellStatW1c u v => Sys2Proof.Machine.execShellStatW1c u v s
  | .unitReset u => Sys2Proof.Machine.execUnitReset u s
  | .unitResetComplete u => Sys2Proof.Machine.execUnitResetComplete u s
  | .resetShadowEnd u => Sys2Proof.Machine.execResetShadowEnd u s
  | .sourceLatch u bit line sev info => Sys2Proof.Machine.execSourceLatch u bit line sev info s
  | .fltWatch k v => Sys2Proof.Machine.execFltWatch k v s
  | .heartbeatLoss => Sys2Proof.Machine.execHeartbeatLoss s
  | .temperatureSample t => Sys2Proof.Machine.execTemperatureSample t s
  | .tickBoundary => Sys2Proof.Machine.execTickBoundary s
  | .overrunCutOff g => Sys2Proof.Machine.execOverrunCutOff g s
  | .publish n => Sys2Proof.Machine.execPublish n s
  | .take n => Sys2Proof.Machine.execTake n s
  | .eyeMarginSample l v h eye => Sys2Proof.Machine.execEyeMarginSample l v h eye s
  | .errorMetricInterval l metric => Sys2Proof.Machine.execErrorMetricInterval l metric s
  | .lossOfSignal x => Sys2Proof.Machine.execLossOfSignal x s
  | .retreatFollow p mode lane => Sys2Proof.Machine.execRetreatFollow p mode lane s
  | .retreatTimeout p => Sys2Proof.Machine.execRetreatTimeout p s
  | .anResolved p => Sys2Proof.Machine.execAnResolved p s
  | .linkUp p => Sys2Proof.Machine.execLinkUp p s
  | .linkLost p => Sys2Proof.Machine.execLinkLost p s
  | .frameReceive p h => Sys2Proof.Machine.execFrameReceive p h s
  | .frameEnd p preempt e => Sys2Proof.Machine.execFrameEnd p preempt e s
  | .ageing ix => Sys2Proof.Machine.execAgeing ix s
  | .transmitSelection p varTx => Sys2Proof.Machine.execTransmitSelection p varTx s
  | .timedReleaseLaunch p varTx => Sys2Proof.Machine.execTimedReleaseLaunch p varTx s
  | .verify p ok => Sys2Proof.Machine.execVerify p ok s
  | .portCounterLowRead p c => Sys2Proof.Machine.execPortCounterLowRead p c s
  | .strTableRead table index => Sys2Proof.Machine.execStrTableRead table index s
  | .strTableWrite table index => Sys2Proof.Machine.execStrTableWrite table index s
  | .frerTableRead table index => Sys2Proof.Machine.execFrerTableRead table index s
  | .frerTableWrite table index => Sys2Proof.Machine.execFrerTableWrite table index s
  | .nop g => Sys2Proof.Machine.execNop g s
  | .mov g => Sys2Proof.Machine.execMov g s
  | .add g => Sys2Proof.Machine.execAdd g s
  | .sub g => Sys2Proof.Machine.execSub g s
  | .and g => Sys2Proof.Machine.execAnd g s
  | .or g => Sys2Proof.Machine.execOr g s
  | .xor g => Sys2Proof.Machine.execXor g s
  | .shl g => Sys2Proof.Machine.execShl g s
  | .shr g => Sys2Proof.Machine.execShr g s
  | .cmp g => Sys2Proof.Machine.execCmp g s
  | .ldt g => Sys2Proof.Machine.execLdt g s
  | .stt g => Sys2Proof.Machine.execStt g s
  | .tset g => Sys2Proof.Machine.execTset g s
  | .tsetDisarm g => Sys2Proof.Machine.execTsetDisarm g s
  | .gate g => Sys2Proof.Machine.execGate g s
  | .sgate g => Sys2Proof.Machine.execSgate g s
  | .hold g => Sys2Proof.Machine.execHold g s
  | .release g => Sys2Proof.Machine.execRelease g s
  | .launch g => Sys2Proof.Machine.execLaunch g s
  | .pour g => Sys2Proof.Machine.execPour g s
  | .sip g => Sys2Proof.Machine.execSip g s
  | .pimgGet g => Sys2Proof.Machine.execPimgGet g s
  | .pimgPut g => Sys2Proof.Machine.execPimgPut g s
  | .evt g => Sys2Proof.Machine.execEvt g s
  | .spCommit g => Sys2Proof.Machine.execSpCommit g s
  | .tcmpFire g k => Sys2Proof.Machine.execTcmpFire g k s
  | .waitTimeResume g => Sys2Proof.Machine.execWaitTimeResume g s
  | .trapEntry g => Sys2Proof.Machine.execTrapEntry g s
  | .budgetLow g => Sys2Proof.Machine.execBudgetLow g s
  | .machineCheck g cause synd => Sys2Proof.Machine.execMachineCheck g cause synd s
  | .spHostreq g v => Sys2Proof.Machine.execSpHostreq g v s
  | .csRead g v => Sys2Proof.Machine.execCsRead g v s
  | .csWrite g v => Sys2Proof.Machine.execCsWrite g v s
  | .carafeLaunch c varA varB => Sys2Proof.Machine.execCarafeLaunch c varA varB s
  | .copyReceive p h varTx => Sys2Proof.Machine.execCopyReceive p h varTx s
  | .copyVerify p dirB e rxLen => Sys2Proof.Machine.execCopyVerify p dirB e rxLen s
  | .carafeReturn p h e => Sys2Proof.Machine.execCarafeReturn p h e s
  | .giveup st => Sys2Proof.Machine.execGiveup st s
  | .returnDeadline c => Sys2Proof.Machine.execReturnDeadline c s
  | .sipCut => Sys2Proof.Machine.execSipCut s
  | .remotePourLatch st => Sys2Proof.Machine.execRemotePourLatch st s
  | .recoveryReset ix => Sys2Proof.Machine.execRecoveryReset ix s
  | .lossTmo ix path => Sys2Proof.Machine.execLossTmo ix path s
  | .laerrPeriod ix => Sys2Proof.Machine.execLaerrPeriod ix s
  | .laerrReset ix => Sys2Proof.Machine.execLaerrReset ix s
  | .nodeForget e => Sys2Proof.Machine.execNodeForget e s
  | .truncation p => Sys2Proof.Machine.execTruncation p s
  | .coldStartFrame n p h varTx => Sys2Proof.Machine.execColdStartFrame n p h varTx s
  | .listenTimeout n => Sys2Proof.Machine.execListenTimeout n s
  | .coldStartSend x => Sys2Proof.Machine.execColdStartSend x s
  | .backoffEnd n => Sys2Proof.Machine.execBackoffEnd n s
  | .integrateTimeout n => Sys2Proof.Machine.execIntegrateTimeout n s
  | .coldstartSync n => Sys2Proof.Machine.execColdstartSync n s
  | .synCsRestart n => Sys2Proof.Machine.execSynCsRestart n s
  | .tbIncHi n v => Sys2Proof.Machine.execTbIncHi n v s
  | .step n ns => Sys2Proof.Machine.execStep n ns s
  | .wrap n => Sys2Proof.Machine.execWrap n s
  | .tbNsRead n wide => Sys2Proof.Machine.execTbNsRead n wide s
  | .snapshot => Sys2Proof.Machine.execSnapshot s
  | .refLost => Sys2Proof.Machine.execRefLost s
  | .refReturn => Sys2Proof.Machine.execRefReturn s
  | .inputStamp ix x => Sys2Proof.Machine.execInputStamp ix x s
  | .evinStamp1Read ix => Sys2Proof.Machine.execEvinStamp1Read ix s
  | .ppsPulse j => Sys2Proof.Machine.execPpsPulse j s
  | .ppsPulseEnd j => Sys2Proof.Machine.execPpsPulseEnd j s
  | .tcmpHFire k => Sys2Proof.Machine.execTcmpHFire k s
  | .syncRoundEnd n => Sys2Proof.Machine.execSyncRoundEnd n s
  | .holdoffEnd n j path => Sys2Proof.Machine.execHoldoffEnd n j path s
  | .nodeAcc n j v => Sys2Proof.Machine.execNodeAcc n j v s
  | .nodeDly n j path v => Sys2Proof.Machine.execNodeDly n j path v s
  | .nodeCtl n j v => Sys2Proof.Machine.execNodeCtl n j v s
  | .nodeSofs n j v => Sys2Proof.Machine.execNodeSofs n j v s
  | .aswAccept n w => Sys2Proof.Machine.execAswAccept n w s
  | .stepGrant v => Sys2Proof.Machine.execStepGrant v s
  | .syncMessage n p m stamped varRx => Sys2Proof.Machine.execSyncMessage n p m stamped varRx s
  | .followUp n p x => Sys2Proof.Machine.execFollowUp n p x s
  | .syncTransmit n p varTx => Sys2Proof.Machine.execSyncTransmit n p varTx s
  | .pdelayReq n p varTx => Sys2Proof.Machine.execPdelayReq n p varTx s
  | .pdelayResp n p r x => Sys2Proof.Machine.execPdelayResp n p r x s
  | .slavePortTimeout n b => Sys2Proof.Machine.execSlavePortTimeout n b s
  | .ptpAcc n b => Sys2Proof.Machine.execPtpAcc n b s
  | .dbTx f v x => Sys2Proof.Machine.execDbTx f v x s
  | .dbRx f v x => Sys2Proof.Machine.execDbRx f v x s
  | .dbJob f v x => Sys2Proof.Machine.execDbJob f v x s
  | .dbEvt f v => Sys2Proof.Machine.execDbEvt f v s
  | .dbCmd f v x => Sys2Proof.Machine.execDbCmd f v x s
  | .dbCmdCfg f v => Sys2Proof.Machine.execDbCmdCfg f v s
  | .transmitDescriptor ring readErr => Sys2Proof.Machine.execTransmitDescriptor ring readErr s
  | .completion kind ring => Sys2Proof.Machine.execCompletion kind ring s
  | .moderationEnd kind ring => Sys2Proof.Machine.execModerationEnd kind ring s
  | .vectorUnmask v => Sys2Proof.Machine.execVectorUnmask v s
  | .rxHold ring => Sys2Proof.Machine.execRxHold ring s
  | .commandNop f => Sys2Proof.Machine.execCommandNop f s
  | .ringCreate f => Sys2Proof.Machine.execRingCreate f s
  | .ringDestroy f => Sys2Proof.Machine.execRingDestroy f s
  | .steer f => Sys2Proof.Machine.execSteer f s
  | .burst c dreq readErr => Sys2Proof.Machine.execBurst c dreq readErr s
  | .commitPoint c => Sys2Proof.Machine.execCommitPoint c s
  | .tickDeadline c => Sys2Proof.Machine.execTickDeadline c s
  | .abort c => Sys2Proof.Machine.execAbort c s
  | .dmaKick c x => Sys2Proof.Machine.execDmaKick c x s
  | .getCert => Sys2Proof.Machine.execGetCert s
  | .attest => Sys2Proof.Machine.execAttest s
  | .challenge => Sys2Proof.Machine.execChallenge s
  | .revoke => Sys2Proof.Machine.execRevoke s
  | .debug => Sys2Proof.Machine.execDebug s
  | .challengeExpiry => Sys2Proof.Machine.execChallengeExpiry s
  | .secChal => Sys2Proof.Machine.execSecChal s
  | .secResp req => Sys2Proof.Machine.execSecResp req s
  | .hs1 p payload => Sys2Proof.Machine.execHs1 p payload s
  | .hs2 p payload => Sys2Proof.Machine.execHs2 p payload s
  | .hs1Resend p => Sys2Proof.Machine.execHs1Resend p s
  | .rehandshake p => Sys2Proof.Machine.execRehandshake p s
  | .mkpdu p sc prio sci sak icvOk => Sys2Proof.Machine.execMkpdu p sc prio sci sak icvOk s
  | .mkaHello p => Sys2Proof.Machine.execMkaHello p s
  | .mkaLifeTime p sc => Sys2Proof.Machine.execMkaLifeTime p sc s
  | .rekey p => Sys2Proof.Machine.execRekey p s
  | .ptpKeyExpiry p => Sys2Proof.Machine.execPtpKeyExpiry p s
  | .spdmRequest src req => Sys2Proof.Machine.execSpdmRequest src req s
  | .evaluation u => Sys2Proof.Machine.execEvaluation u s
  | .wake u => Sys2Proof.Machine.execWake u s
  | .transitionComplete u => Sys2Proof.Machine.execTransitionComplete u s
  | .go => Sys2Proof.Machine.execGo s
  | .retainedRestart ramOk => Sys2Proof.Machine.execRetainedRestart ramOk s
  | .write => Sys2Proof.Machine.execWrite s
  | .writeBlock => Sys2Proof.Machine.execWriteBlock s
  | .loadStore => Sys2Proof.Machine.execLoadStore s
  | .bindTick => Sys2Proof.Machine.execBindTick s
  | .bindHost => Sys2Proof.Machine.execBindHost s
  | .bindSp => Sys2Proof.Machine.execBindSp s
  | .trust => Sys2Proof.Machine.execTrust s
  | .claimOwner readBack => Sys2Proof.Machine.execClaimOwner readBack s
  | .setTime => Sys2Proof.Machine.execSetTime s
  | .waitUntil => Sys2Proof.Machine.execWaitUntil s
  | .waitUntilTimeout => Sys2Proof.Machine.execWaitUntilTimeout s
  | .ifFuse => Sys2Proof.Machine.execIfFuse s
  | .commit => Sys2Proof.Machine.execCommit s
  | .refclkSdLost g => Sys2Proof.Machine.execRefclkSdLost g s
  | .refclkSdReturn g => Sys2Proof.Machine.execRefclkSdReturn g s
  | .readTemperature => Sys2Proof.Machine.execReadTemperature s
  | .readVcore mv => Sys2Proof.Machine.execReadVcore mv s
  | .readStatus => Sys2Proof.Machine.execReadStatus s
  | .bar0Read x => Sys2Proof.Machine.execBar0Read x s
  | .idcode => Sys2Proof.Machine.execIdcode s
  | .samplePreload v => Sys2Proof.Machine.execSamplePreload v s
  | .extest => Sys2Proof.Machine.execExtest s
  | .extestPulse => Sys2Proof.Machine.execExtestPulse s
  | .extestTrain => Sys2Proof.Machine.execExtestTrain s
  | .bypass => Sys2Proof.Machine.execBypass s
  | .timeWord p t1 t2 t3 t4 t0 num sync => Sys2Proof.Machine.execTimeWord p t1 t2 t3 t4 t0 num sync s
  | .faultSummary p m shell present direct => Sys2Proof.Machine.execFaultSummary p m shell present direct s
  | .powerReport c m req tol cur => Sys2Proof.Machine.execPowerReport c m req tol cur s
  | .identityDigest p digest => Sys2Proof.Machine.execIdentityDigest p digest s
  | .uliconFrame p cells relay bytes len head tc trq cue lateSkip t => Sys2Proof.Machine.execUliconFrame p cells relay bytes len head tc trq cue lateSkip t s
  | .pairDown c m => Sys2Proof.Machine.execPairDown c m s
  | .memberLost c m => Sys2Proof.Machine.execMemberLost c m s
  | .mirrorReset c m => Sys2Proof.Machine.execMirrorReset c m s
  | .signalDetect x => Sys2Proof.Machine.execSignalDetect x s
  | .remoteStationData st range age data => Sys2Proof.Machine.execRemoteStationData st range age data s
  | .pdelayReqReceive n p x => Sys2Proof.Machine.execPdelayReqReceive n p x s
  | .waitUntilMet => Sys2Proof.Machine.execWaitUntilMet s
  | .timeWordsAndSummariesSent => Sys2Proof.Machine.execTimeWordsAndSummariesSent s
  | .clockLowTimeout => Sys2Proof.Machine.execClockLowTimeout s

end Sys2Proof.Machine
end

