-- ==== Sys2Proof/Machine/Step.lean ====
section
/-! DEFINITION. One step of the block: the command at the front of its queue, or, on an empty queue, one base clock. -/

namespace Sys2Proof.Machine

/-- The block with one more command in front of its queue. -/
def State.push (s : State) (c : Instr) : State := { s with pending := c :: s.pending }

/-- One step: the command at the front with the queue's rest; with nothing waiting, one base clock passes (R158, R274; DESIGN
CHOICE, log entry 3). -/
def step (s : State) : Host.Outcome State Fault Refusal :=
  match s.pending with
  | [] => .next (idleClock s)
  | c :: r => exec c { s with pending := r }

/-- The command a table word spells, put in front of the queue; the state unchanged where the word spells none (every word: log
entry 28). -/
def State.withFetchWord (s : State) (nbits w : Nat) : State :=
  match decodeTableWord nbits w with
  | some c => s.push c
  | none => s

end Sys2Proof.Machine
end

