-- ==== Sys2Proof/Safety.lean ====
section
/-! DEFINITION. What counts as a safe state and a safe run, in the terms the statements use. -/

namespace Sys2Proof.Machine

/-- Every register field that shares no bit with a field of `L` reads as before: the frame of a command's writes to registers, down
to the bit. -/
def State.keepsFields (s t : State) (L : List F) : Prop := ∀ g : F, (∀ f ∈ L, f.apart g) → t.get g = s.get g

/-- Nothing but registers changed, and of those only fields of `L`. -/
abbrev State.onlyFields (s t : State) (L : List F) : Prop := t = { s with regs := t.regs } ∧ s.keepsFields t L

/-- As `keepsFields`, where events are recorded on the way: recording one may also set FLT_NEW and latch the time of the message it
sends (R286, R444); every other register field that shares no bit with a field of `L` reads as before. -/
def State.keepsButEvents (s t : State) (L : List F) : Prop :=
  ∀ g : F, g.off ≠ FLT_NEW → (g.off < 0x48000 ∨ 0x50000 ≤ g.off) → (∀ f ∈ L, f.apart g) → t.get g = s.get g

/-- An event of source `bit` of unit `k` would be recorded now: the collector runs, no reset masks it (R442) and no reaction to it is in
progress (R441). -/
abbrev State.records (s : State) (k bit : Nat) : Prop :=
  s.collector = true ∧ maskedBy s k bit = none ∧ s.reacting k bit = false

/-- An event of a watched source would be recorded now, and stay below its threshold (R436): instance `inst` of watched kind `kind`
has counted none yet, and N is at least 2. -/
abbrev State.countsBelow (s : State) (k bit kind inst : Nat) : Prop :=
  s.records k bit ∧ 2 ≤ watchN s kind ∧ (tget WatchSt.zero s.watch (watchK kind inst)).count = 0

/-- The quiet of the fatal state (R448): the device is fatal, no transmitter sends or holds back a frame, no port holds a key. -/
abbrev State.fatalQuiet (s : State) : Prop :=
  s.fatal = true ∧ ∀ p < 128, (s.port p).tx = none ∧ (s.port p).rest = none ∧ s.key p = KeySt.rst ∧
    tget [] s.rxSas p = [] ∧ tget 0 s.txPn p = 0

/-- The word at the PC of processor `g` runs now and does not trap before its operation: the processor executes within its budget
(R159), the word's parity holds (R118), its OP is `op`, and it is legal (R119, R123, R125, R129) and meets no stack fault (R122). -/
abbrev State.wordRuns (s : State) (g op : Nat) : Prop :=
  spReady s g = true ∧ csSyndrome (csWord s g (s.sp g).pc) = 0 ∧ (spWord s g).op = op ∧ wordLegal s g (spWord s g) = true ∧
    stackFault (s.sp g) (spWord s g) = false

/-- Between `s` and `t` a word of processor `g` changed no other processor and none of its own selection registers: the frame the
words share that write no operand. -/
abbrev State.wordFrame (s t : State) (g : Nat) : Prop :=
  (∀ j, j ≠ g → t.sp j = s.sp j) ∧ (t.sp g).psel = (s.sp g).psel ∧ (t.sp g).stsel = (s.sp g).stsel ∧
    (t.sp g).pisel = (s.sp g).pisel

/-- Between `s` and `t` the `len` bytes of device memory from `src` on were copied to `dst`, and no other byte changed. -/
abbrev State.blockCopied (s t : State) (dst src len : Nat) : Prop :=
  (∀ i < len, t.mem.get (dst + i) = s.mem.get (src + i)) ∧ ∀ a, a < dst ∨ dst + len ≤ a → t.mem.get a = s.mem.get a

/-- The OP code of an arithmetic or logic operation (R125). -/
def AluOp.code : AluOp → Nat
  | .add => 0x02
  | .sub => 0x03
  | .and => 0x04
  | .or => 0x05
  | .xor => 0x06
  | .shl => 0x07
  | .shr => 0x08

/-- The command of an arithmetic or logic operation. -/
def AluOp.cmd : AluOp → Grp → Instr
  | .add, g => .add g
  | .sub, g => .sub g
  | .and, g => .and g
  | .or, g => .or g
  | .xor, g => .xor g
  | .shl, g => .shl g
  | .shr, g => .shr g

/-- An output that is neither a frame nor a message of the network (R448: transmitters are idle). -/
def Emit.offNetwork : Emit → Bool
  | .frame _ _ => false
  | .stomp _ => false
  | .ptp _ _ _ _ _ => false
  | .mka _ _ => false
  | .ulicon _ _ _ => false
  | .cells _ _ _ _ _ => false
  | _ => true

/-- The result of a command of function `f`: its entry awaits COMPLETION with its STATUS (R347, R358), and nothing else of the ring
changed. -/
abbrev State.commandResult (s t : State) (f status : Nat) : Prop :=
  t.ring 4 f = { s.ring 4 f with
    next := ((s.ring 4 f).next + 1) % 65536
    done := (s.ring 4 f).done ++ [((s.ring 4 f).next, [(7, status * 2 ^ 24)])] }

end Sys2Proof.Machine
end

