-- ==== Sys2Proof/Certificates/Slice0/Obligations.lean ====
section
/-! DEFINITION. The statements for the provers. A command's own effect is stated as the next state exec answers with, under
hypotheses on the state and the operands alone, with what the command leaves unchanged. -/

open Sys2Proof Sys2Proof.Machine

/-! ### The queue of commands and the whole machine -/

/-- A step is exec of the command in front, on the state with the queue's rest; with nothing waiting one base clock passes (the
model's choice, log entry 3). -/
def Obligations.StepRunsFront : Prop :=
  (∀ (c : Instr) (r : List Instr) (s : State), s.pending = c :: r → step s = exec c { s with pending := r }) ∧
  (∀ s : State, s.pending = [] → step s = .next (idleClock s))

/-- No command stops the block: each of them, in every state, answers a next state. -/
def Obligations.EveryCommandAnswers : Prop :=
  ∀ (c : Instr) (s : State), ∃ t, exec c s = .next t

/-- R449: from the fatal state, every step but a power-on reset's leads to the fatal state; and a power-on reset ends it. -/
def Obligations.FatalEndsAtPowerOnOnly : Prop :=
  (∀ s t : State, s.fatal = true → (∀ straps ref r, s.pending ≠ .powerOnReset straps ref :: r) → step s = .next t →
    t.fatal = true) ∧
  (∀ (straps : Fin 4) (ref : Fin 3) (s : State), ∃ t, exec (.powerOnReset straps ref) s = .next t ∧ t.fatal = false)

/-- R448: in the fatal state the transmitters stay idle and the keys stay zeroed, and what a step sends out is neither a frame nor
a message of the network: an invariant of every step but a power-on reset's. -/
def Obligations.FatalStaysQuiet : Prop :=
  ∀ s t : State, s.fatalQuiet → (∀ straps ref r, s.pending ≠ .powerOnReset straps ref :: r) → step s = .next t →
    t.fatalQuiet ∧ ∃ l, t.out = s.out ++ l ∧ ∀ e ∈ l, e.offNetwork = true

/-- The reset state is quiet where it should be: not fatal, and its memories and tables are empty. -/
def Obligations.ResetIsDark : Prop :=
  let s := State.reset
  s.fatal = false ∧ s.mem = [] ∧ s.str = [] ∧ s.frer = [] ∧ s.cs = [] ∧ s.rings = [] ∧ s.pending = [] ∧ s.keys = [] ∧
  s.tick.run = false ∧ Memory.wf s.mem ∧
  (∀ n < 9, (s.tb n).acc = 0 ∧ (s.tb n).inc = 0x10000000000 ∧ (s.tb n).servo = 0) ∧
  barRead s GLB_ID = 0x5128B000 ∧ barRead s BOOT_STATE = 0 ∧
  (∀ p < 128, s.get (PRT_STAT_STATE p) = 0 ∧ s.get (PRT_STAT_LINK p) = 0) ∧
  (∀ k < 661, s.get (SHELL_RST_SHADOW (shellBase k)) = 2000 ∧ rword s.regs (shellBase k + 0x10) = 0xFFFFFFFF) ∧
  s.get FLT_TEMP_WARN = 110 ∧ s.get FLT_TEMP_HYST = 5

/-! ### Resets -/

/-- R485, power-on column: every register field, table, memory, ring, key and log returns to its power-on value; the fuses stay.
What the outside world holds stays: host memory, the queue, the record of outputs, which PPS pins that fall are added to. Until the
collector first runs, from the next clock on (the model's choice, log entry 109), both fault pins are low (R446); the line of an absent
reference is latched as it does. -/
def Obligations.PowerOnReset : Prop :=
  (∀ (straps : Fin 4) (ref : Fin 3) (s : State), ref ≠ 0 → ∃ t, exec (.powerOnReset straps ref) s = .next t ∧
    t = { State.dark s.sec.slots straps.val ref.val with
      hostMem := s.hostMem, pending := s.pending, free := s.free, out := t.out, collector := false } ∧
    faultPins t = (false, false) ∧ ∃ l, t.out = s.out ++ l ∧ ∀ e ∈ l, ∃ j, e = .pps j false) ∧
  (∀ (straps : Fin 4) (s : State), ∃ t, exec (.powerOnReset straps 0) s = .next t ∧
    t = { State.dark s.sec.slots straps.val 0 with
      hostMem := s.hostMem, pending := s.pending, free := s.free, out := t.out, collector := false, regs := t.regs } ∧
    faultPins t = (false, false) ∧ t.get TB_CLK_STAT_REF_LOST = 1 ∧
    (t.get (SHELL_LIVE_LIVE (shellBase 0))).testBit 7 = true ∧ (collectorRuns t).src 0 7 = .corr)

/-- R485, R486, warm column, without AUTO and with no error line of the device active: the dark state, but for what R486 keeps.
Ignored in the fatal state (R448). -/
def Obligations.WarmDeviceReset : Prop :=
  (∀ (cause : WrstCause) (ramOk : Bool) (s : State), s.fatal = false →
    s.get BOOT_STATE_AUTO = 0 → s.get (SHELL_LIVE_LIVE (shellBase 0)) = 0 →
    ∃ t, exec (.warmDeviceReset cause ramOk) s = .next t ∧
      t = { State.dark s.sec.slots s.smbAddr (s.get TB_CLK_STAT_REF) with
        hostMem := s.hostMem, pending := s.pending, free := s.free, out := t.out, regs := t.regs, mem := t.mem, now := s.now,
        tbs := warmTbs s.tbs, vecs := warmVecs s.vecs, fnMsix := s.fnMsix, pcie := s.pcie, evAt := t.evAt, sdLost := s.sdLost } ∧
      (∀ n, (t.tb n).servo = 0) ∧
      (∀ a, 0x4000000 ≤ a → a < 0x5000000 → t.mem.get a = s.mem.get a) ∧
      (∀ a, a < 0x4000000 → t.mem.get a = 0) ∧
      (∀ i < 16, rword t.regs (0xB00040 + 4 * i) = rword s.regs (0xB00040 + 4 * i)) ∧
      rword t.regs BOOT_HALT0 = rword s.regs BOOT_HALT0 ∧ rword t.regs BOOT_HALT1 = rword s.regs BOOT_HALT1 ∧
      rword t.regs BOOT_ID = rword s.regs BOOT_ID ∧
      t.get BOOT_STATE_RETAINED = s.get BOOT_STATE_RETAINED ∧ t.get BOOT_STATE_AUTO = 0 ∧
      t.get BOOT_STATE_RSLOT = s.get BOOT_STATE_RSLOT ∧ t.get BOOT_STATE_STATE = 0 ∧
      t.get BOOT_STATE_WRCNT = min 65535 (s.get BOOT_STATE_WRCNT + 1) ∧
      t.get BOOT_LAST_START = s.get BOOT_STATUS_START ∧
      (∀ o, warmKept o = false → o ≠ BOOT_STATE → o ≠ BOOT_LAST → rword t.regs o = regRst o)) ∧
  (∀ (cause : WrstCause) (ramOk : Bool) (s : State), s.fatal = true → exec (.warmDeviceReset cause ramOk) s = .next s)

/-- R363, R448: an HIR removes every ring, DMA job and held frame, abandons the descriptors of the frames on their way, and
returns the pending vectors; the forwarding tables, the memories, the time bases, the processors but for BUSY of their control-store
windows (R151), the carafes, the keys and the boot run stay. But after GLB_HIR, PCI Express configuration space returns to its defaults and the
link is trained again, after PERST or a loss of the link as the command says. The spec names neither that configuration space nor what
becomes of the places of the transmit stamp store: that the registers of log entry 9 are those which return to their defaults, and that
the places are given back (log entry 31), are the model's choices. A shadow write of the clock in which the HIR starts is not issued
(R371).
R363, last sentences: a function level reset of a virtual function removes that function's rings and resets only its page; it
does not end a halt. That of the physical function is an HIR. Ignored in the fatal state. -/
def Obligations.HostInterfaceResets : Prop :=
  (∀ (cause : HirCause) (s : State), s.fatal = false → ∃ t, exec (.hir cause) s = .next t ∧
    t = { s with
      regs := t.regs, rings := [], rxHold := [], dma := [], dmaLast := 0, ports := t.ports, queues := t.queues,
      rxOpen := t.rxOpen, sps := (csIdle s).sps, vecs := t.vecs, fnMsix := t.fnMsix, pcie := t.pcie, mem := t.mem, out := t.out
      hostMem := t.hostMem, shadowWas := t.shadowWas, bells := [] } ∧
    (s.shadowWas.1 ≠ s.now → t.hostMem = s.hostMem) ∧
    (∀ g, (t.sp g).csEnd = 0) ∧
    (∀ k, ∀ f ∈ tget [] t.queues k, f.host = none) ∧
    (∀ p, (t.port p).stamps = 0) ∧
    (∀ a, a < 0x5000000 ∨ 0x6000000 ≤ a → t.mem.get a = s.mem.get a) ∧
    (cause = .glbHir → t.mem = s.mem ∧ t.fnMsix = s.fnMsix ∧ t.pcie = s.pcie) ∧
    (cause ≠ .glbHir → t.fnMsix = [] ∧ t.pcie = retrained s cause) ∧
    ∃ l, t.out = s.out ++ l ∧ ∀ e ∈ l, ∃ v, e = .msix v) ∧
  (∀ (cause : HirCause) (s : State), s.fatal = true → exec (.hir cause) s = .next s) ∧
  (∀ s : State, exec (.functionLevelReset 0) s = exec (.hir .flr) s) ∧
  (∀ (f : Fn) (s : State), f ≠ 0 → s.fatal = false → ∃ t, exec (.functionLevelReset f) s = .next t ∧
    t = { s with
      regs := t.regs, rings := t.rings, rxHold := t.rxHold, dma := t.dma, ports := t.ports, queues := t.queues,
      rxOpen := t.rxOpen } ∧
    (∀ e ∈ t.rings, e ∈ s.rings ∧ ¬ (e.2.created = true ∧ e.2.fn = f.val)) ∧
    (∀ e ∈ s.rings, ¬ (e.2.created = true ∧ e.2.fn = f.val) → e ∈ t.rings) ∧
    (∀ o, o < 0x700000 + 0x1000 * f.val ∨ 0x701000 + 0x1000 * f.val ≤ o → rword t.regs o = rword s.regs o)) ∧
  (∀ (f : Fn) (s : State), s.fatal = true → exec (.functionLevelReset f) s = .next s)

/-! ### The host's writes -/

/-- R5, R6: a 4-byte write of a word of the port and lane blocks takes the bits of RW fields (of RW/L fields until COMMIT, as far
as the writer may), clears the W1C bits written 1, and leaves every other bit of the word and everything else. -/
def Obligations.RegisterWriteByAccessCode : Prop :=
  ∀ (off : Nat) (data : BitVec 64) (r : RegDesc) (s : State), s.fatal = false → 0x100000 ≤ off → off < 0x300000 → off % 4 = 0 →
    regDesc off = some r →
    ∃ t, exec (.registerWrite off 4 (.write data)) s = .next t ∧ t = { s with regs := t.regs } ∧
      (∀ o, o ≠ off → rword t.regs o = rword s.regs o) ∧
      ∀ i < 32, (rword t.regs off).getLsbD i =
        if r.rw.testBit i || (fieldsOpen s false && r.lk.testBit i) then data.getLsbD i
        else (rword s.regs off).getLsbD i && !(data.getLsbD i && r.w1c.testBit i)

/-- R27, R29: an access of another size or alignment has no effect but that GLB_ACC_ERR records the first refusal; an 8-byte
write acts as two 4-byte writes, the lower address first; in the fatal state BAR0 writes are ignored (R448). A read is answered with
the word; a refused one with all ones, and recorded too. -/
def Obligations.RegisterWriteAccessRules : Prop :=
  (∀ (off size : Nat) (data : BitVec 64) (s : State), off < 0x4000000 → (¬ (size = 4 ∨ size = 8) ∨ off % size ≠ 0) →
    s.fatal = false → s.get GLB_ACC_ERR_VALID = 0 →
    ∃ t, exec (.registerWrite off size (.write data)) s = .next t ∧
      s.onlyFields t [GLB_ACC_ERR_VALID, GLB_ACC_ERR_WRITE, GLB_ACC_ERR_OFFSET] ∧
      t.get GLB_ACC_ERR_VALID = 1 ∧ t.get GLB_ACC_ERR_WRITE = 1 ∧ t.get GLB_ACC_ERR_OFFSET = off) ∧
  (∀ (off size : Nat) (data : BitVec 64) (s : State), off < 0x4000000 → (¬ (size = 4 ∨ size = 8) ∨ off % size ≠ 0) →
    s.get GLB_ACC_ERR_VALID = 1 → exec (.registerWrite off size (.write data)) s = .next s) ∧
  (∀ (off : Nat) (data : BitVec 64) (s u : State), off < 0x4000000 → off % 8 = 0 →
    exec (.registerWrite off 4 (.write (data % 0x100000000))) s = .next u →
    exec (.registerWrite off 8 (.write data)) s = exec (.registerWrite (off + 4) 4 (.write (data >>> 32))) u) ∧
  (∀ (off size : Nat) (data : BitVec 64) (s : State), off < 0x4000000 → s.fatal = true →
    exec (.registerWrite off size (.write data)) s = .next s) ∧
  (∀ (off : Nat) (s : State), 0x200000 ≤ off → off < 0x300000 → off % 4 = 0 →
    exec (.registerWrite off 4 .read) s = .next { s with out := s.out ++ [.reply barSrc (leBytes 4 (barRead s off).toNat)] }) ∧
  (∀ (off : Nat) (s : State), off < 0x4000000 → off % 4 ≠ 0 → s.fatal = false → s.get GLB_ACC_ERR_VALID = 0 →
    ∃ t, exec (.registerWrite off 4 .read) s = .next t ∧ t = { s with regs := t.regs, out := t.out } ∧
      t.out = s.out ++ [.reply barSrc [0xFF, 0xFF, 0xFF, 0xFF]] ∧
      s.keepsFields t [GLB_ACC_ERR_VALID, GLB_ACC_ERR_WRITE, GLB_ACC_ERR_OFFSET] ∧
      t.get GLB_ACC_ERR_VALID = 1 ∧ t.get GLB_ACC_ERR_WRITE = 0 ∧ t.get GLB_ACC_ERR_OFFSET = off)

/-- R473: BAR2 takes writes while BOOT_STATE.STATE is 0, 5 or 6, byte for byte, and ignores them in states 1 to 4; it reads as zero
after a power-on reset; a warm device reset and an HIR keep its contents. -/
def Obligations.StagingWindowWrites : Prop :=
  (∀ (o size : Nat) (data : BitVec 64) (s : State), o < 0x1000000 → size ≤ 8 →
    (s.get BOOT_STATE_STATE = 0 ∨ s.get BOOT_STATE_STATE = 5 ∨ s.get BOOT_STATE_STATE = 6) →
    ∃ t, exec (.registerWrite (0x4000000 + o) size (.write data)) s = .next t ∧ t = { s with mem := t.mem, boot := t.boot } ∧
      (∀ i < size, o + i < 0x1000000 → t.mem.get (0x4000000 + o + i) = BitVec.ofNat 8 (data.toNat / 2 ^ (8 * i))) ∧
      ∀ a, a < 0x4000000 + o ∨ 0x4000000 + o + size ≤ a ∨ 0x5000000 ≤ a → t.mem.get a = s.mem.get a) ∧
  (∀ (o size : Nat) (data : BitVec 64) (s : State), o < 0x1000000 →
    1 ≤ s.get BOOT_STATE_STATE → s.get BOOT_STATE_STATE ≤ 4 →
    exec (.registerWrite (0x4000000 + o) size (.write data)) s = .next s) ∧
  (∀ (straps : Fin 4) (ref : Fin 3) (s : State), ∃ t, exec (.powerOnReset straps ref) s = .next t ∧
    ∀ o < 0x1000000, t.mem.get (0x4000000 + o) = 0) ∧
  (∀ (cause : WrstCause) (ramOk : Bool) (s : State), ∃ t, exec (.warmDeviceReset cause ramOk) s = .next t ∧
    ∀ o < 0x1000000, t.mem.get (0x4000000 + o) = s.mem.get (0x4000000 + o)) ∧
  (∀ (cause : HirCause) (s : State), ∃ t, exec (.hir cause) s = .next t ∧
    ∀ o < 0x1000000, t.mem.get (0x4000000 + o) = s.mem.get (0x4000000 + o))

/-! ### Shells and the fault collector -/

/-- R14, R22: with no line of the shell active, a write of SHELL_STAT clears the SRC bits written 1 whose event was of corrected class,
and no other; it clears MERGED where bit 27 is written 1. A bit set, or a MERGED merged, in the clock of the write stays. -/
def Obligations.ShellStatWriteClears : Prop :=
  (∀ (u : ShellId) (v : Word) (s : State), s.fatal = false → s.get (SHELL_LIVE_LIVE (shellBase (shellKey u))) = 0 →
    ∃ t, exec (.shellStatW1c u v) s = .next t ∧
    t = { s with regs := t.regs, srcs := t.srcs } ∧ s.keepsFields t [SHELL_STAT_MERGED (shellBase (shellKey u))] ∧
    (∀ e, e ∈ t.srcs ↔ e ∈ s.srcs ∧ ¬ (e.1 / 16 = shellKey u ∧ v.getLsbD (e.1 % 16) = true ∧ e.2 = .corr ∧
      s.evNow e.1 = false)) ∧
    t.get (SHELL_STAT_MERGED (shellBase (shellKey u))) =
      if v.getLsbD 27 && !s.evNow (mergeK (shellKey u)) then 0 else s.get (SHELL_STAT_MERGED (shellBase (shellKey u)))) ∧
  (∀ (u : ShellId) (v : Word) (s : State), s.fatal = true → exec (.shellStatW1c u v) s = .next s)

/-- R19, R22: a unit reset brings the unit and every unit beneath it into reset; while one of the unit runs, a second does not
start; a reset of a compound shell resets this device as well (R508). In the fatal state it is ignored (R448).
R20, R440, a lane with no error line active and no event of its own, severe or not, in the clock of the reset: RST reads 1, RESETS counts, MERGED, SRC, reactions and watched counts clear, the
lane is no longer retired, its error count is zero, it is brought to PS0 once COMMIT has run, and the units above it with it, which are
never deeper (R464); nothing else changes. -/
def Obligations.UnitResetStarts : Prop :=
  (∀ (k : Fin 661) (s : State), s.fatal = false → (s.rst k.val).running = false →
    ∃ t, exec (.unitReset (.dev k)) s = .next t ∧ ∀ u ∈ unitsOf k.val, (t.rst u).running = true) ∧
  (∀ (k : Fin 661) (s : State), (s.rst k.val).running = true → exec (.unitReset (.dev k)) s = .next s) ∧
  (∀ (c : Fin 4) (s : State), s.fatal = false → (s.rst 0).running = false →
    ∃ t, exec (.unitReset (.comp c)) s = .next t ∧ (t.rst (compK c.val)).running = true ∧
      ∀ u ∈ unitsOf 0, (t.rst u).running = true) ∧
  (∀ (u : ShellId) (s : State), s.fatal = true → exec (.unitReset u) s = .next s) ∧
  (∀ (l : Lane) (s : State), s.fatal = false → (s.rst (laneK l.val)).running = false →
    s.get (SHELL_LIVE_LIVE (shellBase (laneK l.val))) = 0 → latchedNow s (laneK l.val) = [] →
    severeNow s (fun e => e == watchK 0 l.val) = [] →
    ∃ t, exec (.unitReset (.dev (Fin.ofNat 661 (laneK l.val)))) s = .next t ∧
      t = { s with
        regs := t.regs, resets := t.resets, pwr := t.pwr, srcs := t.srcs, reacts := t.reacts, watch := t.watch, lanes := t.lanes
        evAt := t.evAt } ∧
      s.keepsFields t ([SHELL_STAT_MERGED (shellBase (laneK l.val)), SHELL_CNT_RESETS (shellBase (laneK l.val)),
        SHELL_RST_RST (shellBase (laneK l.val)), LN_STAT_RETIRED l.val, LN_ERR_COUNT l.val, PRT_STAT_RET_LANES (l.val / 4)] ++
        (withParents (laneK l.val)).flatMap (fun u => [SHELL_PWR_CUR (shellBase u), SHELL_PWR_BUSY (shellBase u)]) ++
        (activeLanes s (l.val / 4)).map (fun i => SHELL_PWR_BUSY (shellBase (laneK i)))) ∧
      (s.locked = true → ∀ u ∈ withParents (laneK l.val), t.get (SHELL_PWR_CUR (shellBase u)) = 0) ∧
      t.get (SHELL_STAT_MERGED (shellBase (laneK l.val))) = 0 ∧
      t.get (SHELL_CNT_RESETS (shellBase (laneK l.val))) =
        min (s.get (SHELL_CNT_RESETS (shellBase (laneK l.val))) + 1) (2 ^ (SHELL_CNT_RESETS 0).w - 1) ∧
      t.get (SHELL_RST_RST (shellBase (laneK l.val))) = 1 ∧
      t.get (LN_STAT_RETIRED l.val) = 0 ∧ t.get (LN_ERR_COUNT l.val) = 0 ∧
      (t.get (PRT_STAT_RET_LANES (l.val / 4))).testBit (l.val % 4) = false ∧
      (t.lane l.val).out = false ∧
      (∀ e, e ∈ t.srcs ↔ e ∈ s.srcs ∧ e.1 / 16 ≠ laneK l.val) ∧ (∀ e, e ∈ t.reacts ↔ e ∈ s.reacts ∧ e.1 / 16 ≠ laneK l.val))

/-- R19, R442: at the end of a unit reset each unit in it whose SHADOW is not zero opens its shadow of SHADOW ns, and none of
them runs any more.
R442: a reset shadow ends SHADOW ns after its reset, and not before; with no line of the unit, beneath it or masked besides active,
nothing else happens. -/
def Obligations.UnitResetEnds : Prop :=
  (∀ (k : Fin 661) (s : State), s.fatal = false → (s.rst k.val).running = true →
    (∀ u ∈ unitsOf k.val, s.get (SHELL_RST_SHADOW (shellBase u)) ≠ 0) →
    ∃ t, exec (.unitResetComplete (.dev k)) s = .next t ∧
      ∀ u ∈ unitsOf k.val, (s.rst u).running = true →
        t.rst u = ⟨true, false, none, s.now + s.get (SHELL_RST_SHADOW (shellBase u))⟩) ∧
  (∀ (c : Fin 4) (s : State), s.fatal = false → (s.rst (compK c.val)).running = true →
    (s.rst (compK c.val)).relatch = none →
    ∃ t, exec (.unitResetComplete (.comp c)) s = .next t ∧ t = { s with regs := t.regs, resets := t.resets } ∧
      s.keepsFields t [SHELL_RST_RST (shellBase (compK c.val))] ∧ t.get (SHELL_RST_RST (shellBase (compK c.val))) = 0 ∧
      (t.rst (compK c.val)).running = false ∧
      ∀ j, j ≠ compK c.val → t.rst j = s.rst j) ∧
  (∀ (u : ShellId) (s : State), s.fatal = false → (s.rst (shellKey u)).running = false →
    exec (.unitResetComplete u) s = .next s) ∧
  (∀ (u : ShellId) (s : State), s.fatal = false → (s.rst (shellKey u)).active = true → (s.rst (shellKey u)).running = false →
    (s.rst (shellKey u)).shadowEnd ≤ s.now →
    (∀ k ∈ unitsOf (shellKey u), s.get (SHELL_LIVE_LIVE (shellBase k)) = 0) →
    (∀ e ∈ besides (shellKey u), (s.get (SHELL_LIVE_LIVE (shellBase e.1))).testBit e.2 = false) →
    ∃ t, exec (.resetShadowEnd u) s = .next t ∧ t = { s with resets := t.resets } ∧ t.rst (shellKey u) = RstSt.none ∧
      ∀ j, j ≠ shellKey u → t.rst j = s.rst j) ∧
  (∀ (u : ShellId) (s : State), s.now < (s.rst (shellKey u)).shadowEnd → exec (.resetShadowEnd u) s = .next s)

/-- R428, R435, R441, R442: an event of a corrected-class source of the device is recorded with its class; one that a reset masks is
not recorded but merged into that reset's shell, where it has a shadow. A line that falls clears its LIVE bit alone (R16). -/
def Obligations.DeviceSourceLatches : Prop :=
  (∀ (bit : Fin 16) (sev : Sev) (info : Nat) (s : State), bit.val ∈ [6, 7, 8, 10, 11, 12, 13, 15] →
    s.collector = true → maskedBy s 0 bit.val = none → s.reacting 0 bit.val = false →
    ∃ t, exec (.sourceLatch (.dev 0) bit .pulse sev info) s = .next t ∧
      t = { s with regs := t.regs, srcs := t.srcs, evAt := t.evAt, vecs := t.vecs, out := t.out } ∧
      t.src 0 bit.val = .corr ∧ ∀ j, j ≠ srcK 0 bit.val → tget Cls.none t.srcs j = tget Cls.none s.srcs j) ∧
  (∀ (bit : Fin 16) (sev : Sev) (info r : Nat) (s : State), bit.val ∈ [6, 7, 8, 10, 11, 12, 13, 15] →
    s.collector = true → maskedBy s 0 bit.val = some r →
    s.get (SHELL_RST_SHADOW (shellBase r)) ≠ 0 →
    ∃ t, exec (.sourceLatch (.dev 0) bit .pulse sev info) s = .next t ∧
      t = { s with regs := t.regs, evAt := t.evAt } ∧
      s.keepsFields t [SHELL_CNT_MERGED_N (shellBase r), SHELL_STAT_MERGED (shellBase r)] ∧
      t.get (SHELL_STAT_MERGED (shellBase r)) = 1 ∧
      t.get (SHELL_CNT_MERGED_N (shellBase r)) =
        min (s.get (SHELL_CNT_MERGED_N (shellBase r)) + 1) (2 ^ (SHELL_CNT_MERGED_N 0).w - 1)) ∧
  (∀ (u : ShellId) (bit : Fin 16) (sev : Sev) (info : Nat) (s : State),
    ∃ t, exec (.sourceLatch u bit .fall sev info) s = .next t ∧ t = { s with regs := t.regs, lines := t.lines } ∧
      s.keepsFields t [SHELL_LIVE_LIVE (shellBase (shellKey u))] ∧
      ∀ i < 16, (t.get (SHELL_LIVE_LIVE (shellBase (shellKey u)))).testBit i =
        (i != bit.val && (s.get (SHELL_LIVE_LIVE (shellBase (shellKey u)))).testBit i))

/-- R435, R443, R448: a fatal source of the device is never masked; its event records fatal class and brings the fatal state: every
transmitter idle, every key gone, the device in PS1 and every unit beneath it in PS4 (R466). -/
def Obligations.FatalSourceEntersFatal : Prop :=
  ∀ (bit : Fin 16) (sev : Sev) (info : Nat) (s : State), bit.val ≤ 5 → s.collector = true →
    ∃ t, exec (.sourceLatch (.dev 0) bit .pulse sev info) s = .next t ∧ t.fatalQuiet ∧ t.src 0 bit.val = .fatal ∧
      (∀ k ∈ unitsOf 0, t.get (SHELL_PWR_CUR (shellBase k)) = if k = 0 then 1 else 4) ∧
      t.tbs = s.tbs ∧ t.mem = s.mem ∧ t.str = s.str ∧ t.frer = s.frer ∧ t.cs = s.cs ∧ t.sec = s.sec

/-- R437, R453, R457: a write of FLT_WATCHk takes N and W, keeps the reserved bits zero, returns every count of kind k to zero but those of
events of its own clock, which start anew, and leaves the counts of other kinds. Where an event of the kind was severe in this clock, it is
counted as the first of the new count and is a corrected one instead.
R446: when the heartbeat stops for 10 microseconds both fault pins are driven low, and nothing else changes.
R435, R454: a temperature sample enters FLT_TEMP.T. Below WARN - HYST the TEMP_WARN line is quiet; from WARN on it is active, and
as it becomes so its event is recorded; at 125 degrees the fatal state follows. -/
def Obligations.CollectorCommands : Prop :=
  (∀ (k : Fin 6) (v : Word) (s : State), s.fatal = false → severeNow s (fun e => e / 4096 == k.val) = [] →
    ∃ t, exec (.fltWatch k v) s = .next t ∧ t = { s with regs := t.regs, watch := t.watch } ∧
    (∀ o, o ≠ FLT_WATCH k.val → rword t.regs o = rword s.regs o) ∧
    t.get (FLT_WATCH_N k.val) = getField v 24 8 ∧ t.get (FLT_WATCH_W k.val) = getField v 0 16 ∧
    getField (rword t.regs (FLT_WATCH k.val)) 16 8 = 0 ∧
    ((∀ e ∈ s.watch, e.1 / 4096 = k.val → e.2.last = s.now → e.2.count = 0) →
      ∀ i < 4096, tget WatchSt.zero t.watch (watchK k.val i) = WatchSt.zero) ∧
    (∀ e ∈ t.watch, e.1 / 4096 = k.val → e.2 = ⟨1, s.now, s.now⟩) ∧
    (∀ e ∈ s.watch, e.1 / 4096 = k.val → e.2.last = s.now → e.2.count ≠ 0 → (e.1, ⟨1, s.now, s.now⟩) ∈ t.watch) ∧
    ∀ e, e / 4096 ≠ k.val → tget WatchSt.zero t.watch e = tget WatchSt.zero s.watch e) ∧
  (∀ (v : Word) (i : Nat) (s : State), s.fatal = false → s.watch = [(watchK 5 i, ⟨0, 1, s.now⟩)] → i < 128 →
    ∃ t, exec (.fltWatch 5 v) s = .next t ∧ t = { s with regs := t.regs, watch := t.watch, srcs := t.srcs } ∧
      t.watch = [(watchK 5 i, ⟨1, s.now, s.now⟩)] ∧ t.src 0 9 = .corr ∧ t.get (NODE_CTL_RETIRED (i / 16) (i % 16)) = 0 ∧
      t.get (FLT_WATCH_N 5) = getField v 24 8 ∧ t.get (FLT_WATCH_W 5) = getField v 0 16) ∧
  (∀ s : State, ∃ t, exec .heartbeatLoss s = .next t ∧ t = { s with hbLost := true } ∧ faultPins t = (false, false)) ∧
  (∀ (x : BitVec 16) (s : State),
    tempOf x < 16 * (s.get FLT_TEMP_WARN : Int) - 16 * (s.get FLT_TEMP_HYST : Int) → tempOf x < 2000 →
    ∃ t, exec (.temperatureSample x) s = .next t ∧ s.onlyFields t [FLT_TEMP_T, SHELL_LIVE_LIVE (shellBase 0)] ∧
      t.get FLT_TEMP_T = x.toNat ∧
      ∀ i < 16, (t.get (SHELL_LIVE_LIVE (shellBase 0))).testBit i =
        (i != 1 && i != 6 && (s.get (SHELL_LIVE_LIVE (shellBase 0))).testBit i)) ∧
  (∀ (x : BitVec 16) (s : State), 16 * (s.get FLT_TEMP_WARN : Int) ≤ tempOf x → tempOf x < 2000 → s.collector = true →
    maskedBy s 0 6 = none → s.reacting 0 6 = false → (s.get (SHELL_LIVE_LIVE (shellBase 0))).testBit 6 = false →
    ∃ t, exec (.temperatureSample x) s = .next t ∧
      t = { s with regs := t.regs, srcs := t.srcs, evAt := t.evAt, vecs := t.vecs, out := t.out } ∧
      t.get FLT_TEMP_T = x.toNat ∧ t.src 0 6 = .corr ∧ (t.get (SHELL_LIVE_LIVE (shellBase 0))).testBit 6 = true) ∧
  (∀ (x : BitVec 16) (s : State), 16 * (s.get FLT_TEMP_WARN : Int) ≤ tempOf x → tempOf x < 2000 →
    (s.get (SHELL_LIVE_LIVE (shellBase 0))).testBit 6 = true →
    ∃ t, exec (.temperatureSample x) s = .next t ∧ s.onlyFields t [FLT_TEMP_T, SHELL_LIVE_LIVE (shellBase 0)] ∧
      t.get FLT_TEMP_T = x.toNat ∧
      ∀ i < 16, (t.get (SHELL_LIVE_LIVE (shellBase 0))).testBit i =
        (i != 1 && (s.get (SHELL_LIVE_LIVE (shellBase 0))).testBit i)) ∧
  (∀ (x : BitVec 16) (s : State), 2000 ≤ tempOf x → s.collector = true →
    ∃ t, exec (.temperatureSample x) s = .next t ∧ t.get FLT_TEMP_T = x.toNat ∧ t.fatalQuiet ∧ t.src 0 1 = .fatal)

/-! ### The tick and process images -/

/-- R30, R34, R158 at the boundary T, once the parts of the sequence before it have run, on a device outside compound nodes whose
processors wait: the tick's number and start follow, and each processor that waits in a wait-tick starts, at vector 0 after COMMIT,
a cut-off or a reset, else at its word's NEXT. Before its instant the command has no effect. -/
def Obligations.TickBoundaryStartsTick : Prop :=
  (∀ s : State, s.fatal = false → s.tick.run = true → isPast48 s.tick.next (s.tbStamp s.tickTb) = true →
    (∀ k < 3, partDone s k = true) → (∀ c < 4, cnOn s c = false) → (∀ g < 16, cuttable s g = false) →
    ∃ t, exec .tickBoundary s = .next t ∧
      t.get GLB_TICK_NUM_NUM = (s.tick.n0 + s.tick.idx) % 2 ^ 32 ∧
      t.tick = { s.tick with
        cur := true, start := s.tick.next, idx := s.tick.idx + 1, next := tickStart s ((s.tick.idx : Int) + 1),
        late := s.tick.lateNext, lateNext := false, cutDone := [], startAt := s.now } ∧
      (∀ g < 16, (s.sp g).run = .waitTick →
        (t.sp g).run = .exec ∧ (t.sp g).pc = (if (s.sp g).vec0 then 0x1000 else (spWord s g).next) ∧ (t.sp g).count = 0) ∧
      (∀ g < 16, (s.sp g).run ≠ .waitTick → (t.sp g).run = (s.sp g).run ∧ (t.sp g).pc = (s.sp g).pc)) ∧
  (∀ s : State, (s.tick.run = false ∨ isPast48 s.tick.next (s.tbStamp s.tickTb) = false) → exec .tickBoundary s = .next s)

/-- R140, R158, R161: at C a processor that is not in a wait-tick is cut off: its call stack, stage buffer and trap routine are
discarded, its work registers, flags, comparators and pending causes stay, the gates of its ports take SAFE, and the overrun
counts. -/
def Obligations.OverrunCutsOff : Prop :=
  (∀ (g : Grp) (s : State), s.fatal = false → s.tick.cur = true → beforeC s = false → cuttable s g.val = true →
    maskedBy s (grpK g.val) 0 = none → s.reacting (grpK g.val) 0 = false → s.collector = true → 2 ≤ watchN s 4 →
    (tget WatchSt.zero s.watch (watchK 4 g.val)).count = 0 → curPs s (grpK g.val) < 3 →
    (∀ u, (s.sp g.val).undoCommit = some u → u.1 ≠ s.now) →
    ∃ t, exec (.overrunCutOff g) s = .next t ∧
      (t.sp g.val).run = .waitTick ∧ (t.sp g.val).vec0 = true ∧ (t.sp g.val).stack = [] ∧ (t.sp g.val).stage = [] ∧
      (t.sp g.val).inTrap = false ∧ (t.sp g.val).w = (s.sp g.val).w ∧ (t.sp g.val).flags = (s.sp g.val).flags ∧
      (t.sp g.val).tcmp = (s.sp g.val).tcmp ∧ t.get (SP_TRAP_PEND g.val) = s.get (SP_TRAP_PEND g.val) ∧
      t.get (SP_CNT_OVERRUNS g.val) = min (s.get (SP_CNT_OVERRUNS g.val) + 1) 65535 ∧
      (∀ i < 8, t.get (PRT_GATE_OPEN (8 * g.val + i)) = s.get (PRT_GATE_SAFE (8 * g.val + i)) ∧
        t.get (PRT_MM_HOLD (8 * g.val + i)) = 0) ∧
      t.src (grpK g.val) 0 = .corr ∧ (∀ j, j ≠ g.val → t.sp j = s.sp j) ∧ t.mem = s.mem ∧ t.cs = s.cs) ∧
  (∀ (g : Grp) (s : State), (beforeC s = true ∨ (s.sp g.val).run = .waitTick) → exec (.overrunCutOff g) s = .next s)

/-- R39: the flip of every enabled slot in the boundary sequence, once per tick. -/
def Obligations.ImageSlotsFlip : Prop :=
  ∀ (s : State) (n : Nat), n < 256 → partDone s 0 = false → s.get (CRF_PI_SLOT_EN n) = 1 →
    (s.get (CRF_PI_SLOT_DIR n) = 0 → ∀ r, (s.slot n).rdy = some r →
      ((partFlip s).slot n).dev = r ∧ ((partFlip s).slot n).rdy = none ∧
      (partFlip s).get (CRF_PI_SLOT_NEW n) = 1 ∧ (partFlip s).get (CRF_PI_SLOT_STALE n) = 0) ∧
    (s.get (CRF_PI_SLOT_DIR n) = 0 → (s.slot n).rdy = none →
      ((partFlip s).slot n).dev = (s.slot n).dev ∧ ((partFlip s).slot n).rdy = none ∧
      (partFlip s).get (CRF_PI_SLOT_NEW n) = 0 ∧ (partFlip s).get (CRF_PI_SLOT_STALE n) = 1) ∧
    (s.get (CRF_PI_SLOT_DIR n) = 1 → ∀ r, (s.slot n).rdy = some r →
      ((partFlip s).slot n).dev = r ∧ ((partFlip s).slot n).rdy = some (s.slot n).dev ∧
      (partFlip s).get (CRF_PI_SLOT_OVF n) = min (s.get (CRF_PI_SLOT_OVF n) + 1) 65535 ∧
      (partFlip s).get (CRF_PI_SLOT_NEW n) = 1) ∧
    (s.get (CRF_PI_SLOT_DIR n) = 1 → (s.slot n).rdy = none →
      ((partFlip s).slot n).dev = 3 - (s.slot n).dev - s.get (CRF_PI_SLOT_RD n) ∧
      ((partFlip s).slot n).rdy = some (s.slot n).dev ∧ (partFlip s).get (CRF_PI_SLOT_NEW n) = 1) ∧
    (partFlip s).mem = s.mem ∧ partFlip (partFlip s) = partFlip s

/-- R39, R42: PUBLISH hands an out slot's written buffer over; a buffer not used yet goes back and counts in OVF. From the flip of
the boundary sequence on the flip comes first and flip pending is set. An in slot is not published, and in a halt of the host interface
nothing is (log entry 112, the model's reading of R42).
R39, R42: TAKE gives the host the ready buffer of an in slot and frees the one it held; with none ready nothing changes. In the
boundary sequence the flip comes first. An out slot is not taken. -/
def Obligations.ImageSlotsExchange : Prop :=
  (∀ (n : Fin 256) (s : State), s.fatal = false → s.halted = false → s.get (CRF_PI_SLOT_DIR n.val) = 0 →
    withinSeq s (40 * 65536) = false → (s.slot n.val).rdy = none →
    ∃ t, exec (.publish n) s = .next t ∧ t = { s with regs := t.regs, pi := t.pi } ∧
      s.keepsFields t [CRF_PI_SLOT_WR n.val] ∧ (t.slot n.val).rdy = some (s.get (CRF_PI_SLOT_WR n.val)) ∧
      (t.slot n.val).dev = (s.slot n.val).dev ∧
      t.get (CRF_PI_SLOT_WR n.val) = (3 - (s.slot n.val).dev - s.get (CRF_PI_SLOT_WR n.val)) % 4 ∧
      ∀ m, m ≠ n.val → t.slot m = s.slot m) ∧
  (∀ (n : Fin 256) (r : Fin 3) (s : State), s.fatal = false → s.halted = false → s.get (CRF_PI_SLOT_DIR n.val) = 0 →
    withinSeq s (40 * 65536) = false → (s.slot n.val).rdy = some r.val →
    ∃ t, exec (.publish n) s = .next t ∧ t = { s with regs := t.regs, pi := t.pi } ∧
      s.keepsFields t [CRF_PI_SLOT_WR n.val, CRF_PI_SLOT_OVF n.val] ∧
      (t.slot n.val).rdy = some (s.get (CRF_PI_SLOT_WR n.val)) ∧ t.get (CRF_PI_SLOT_WR n.val) = r.val ∧
      t.get (CRF_PI_SLOT_OVF n.val) = min (s.get (CRF_PI_SLOT_OVF n.val) + 1) 65535 ∧
      ∀ m, m ≠ n.val → t.slot m = s.slot m) ∧
  (∀ (n : Fin 256) (s : State), s.halted = true → exec (.publish n) s = .next s) ∧
  (∀ (n : Fin 256) (s : State), s.fatal = false → s.halted = false → s.get (CRF_PI_SLOT_DIR n.val) = 0 →
    withinSeq s (40 * 65536) = true →
    ∃ t, exec (.publish n) s = .next t ∧ (t.slot n.val).flipPend = true ∧
      (t.slot n.val).rdy = some ((partFlip s).get (CRF_PI_SLOT_WR n.val))) ∧
  (∀ (n : Fin 256) (s : State), s.get (CRF_PI_SLOT_DIR n.val) = 1 → exec (.publish n) s = .next s) ∧
  (∀ (n : Fin 256) (r : Fin 3) (s : State), s.fatal = false → s.get (CRF_PI_SLOT_DIR n.val) = 1 →
    withinSeq s (40 * 65536) = false → (s.slot n.val).rdy = some r.val →
    ∃ t, exec (.take n) s = .next t ∧ t = { s with regs := t.regs, pi := t.pi } ∧
      s.keepsFields t [CRF_PI_SLOT_RD n.val, CRF_PI_SLOT_NEW n.val] ∧ (t.slot n.val).rdy = none ∧
      t.get (CRF_PI_SLOT_RD n.val) = r.val ∧ t.get (CRF_PI_SLOT_NEW n.val) = 0 ∧ ∀ m, m ≠ n.val → t.slot m = s.slot m) ∧
  (∀ (n : Fin 256) (s : State), withinSeq s (40 * 65536) = false → (s.slot n.val).rdy = none → exec (.take n) s = .next s) ∧
  (∀ (n : Fin 256) (r : Fin 3) (s : State), s.fatal = false → s.get (CRF_PI_SLOT_DIR n.val) = 1 →
    withinSeq s (40 * 65536) = true → ((partFlip s).slot n.val).rdy = some r.val →
    ∃ t, exec (.take n) s = .next t ∧ t.get (CRF_PI_SLOT_RD n.val) = r.val ∧ (t.slot n.val).rdy = none) ∧
  (∀ (n : Fin 256) (s : State), s.get (CRF_PI_SLOT_DIR n.val) = 0 → exec (.take n) s = .next s)

/-! ### Schedule processors: words -/

/-- R124, R125: the 32-bit results of the arithmetic and logic operations, and F0 to F3 from them; F4 to F7 stay. -/
def Obligations.AluResultsAndFlags : Prop :=
  (∀ d x : BitVec 32,
    aluResult .add d.toNat x.toNat = (d + x).toNat ∧ aluResult .sub d.toNat x.toNat = (d - x).toNat ∧
    aluResult .and d.toNat x.toNat = (d &&& x).toNat ∧ aluResult .or d.toNat x.toNat = (d ||| x).toNat ∧
    aluResult .xor d.toNat x.toNat = (d ^^^ x).toNat ∧
    aluResult .shl d.toNat x.toNat = (d <<< (x.toNat % 32)).toNat ∧
    aluResult .shr d.toNat x.toNat = (d >>> (x.toNat % 32)).toNat) ∧
  (∀ (o : AluOp) (d x : BitVec 32) (old : BitVec 8),
    let r := BitVec.ofNat 32 (aluResult o d.toNat x.toNat)
    let f := aluFlags o old.toNat d.toNat x.toNat
    f < 256 ∧ f.testBit 0 = (r == 0) ∧ f.testBit 1 = r.msb ∧
    f.testBit 3 = (decide (r.toInt ≤ 0) && decide (-(2 : Int) ^ 31 < r.toInt)) ∧
    (∀ i, 4 ≤ i → i < 8 → f.testBit i = old.getLsbD i)) ∧
  (∀ (d x : BitVec 32) (old : BitVec 8),
    (aluFlags .add old.toNat d.toNat x.toNat).testBit 2 = decide (2 ^ 32 ≤ d.toNat + x.toNat) ∧
    (aluFlags .sub old.toNat d.toNat x.toNat).testBit 2 = decide (d.toNat < x.toNat) ∧
    (aluFlags .and old.toNat d.toNat x.toNat).testBit 2 = false ∧ (aluFlags .or old.toNat d.toNat x.toNat).testBit 2 = false ∧
    (aluFlags .xor old.toNat d.toNat x.toNat).testBit 2 = false ∧
    (aluFlags .shl old.toNat d.toNat x.toNat).testBit 2 = (x.toNat % 32 != 0 && d.getLsbD (32 - x.toNat % 32)) ∧
    (aluFlags .shr old.toNat d.toNat x.toNat).testBit 2 = (x.toNat % 32 != 0 && d.getLsbD (x.toNat % 32 - 1)))

/-- R124, R125: ADD, SUB, AND, OR, XOR, SHL and SHR put their result into D and set the flags, or, with D = FLAGS, put bits 7 to 0
of the result there; another work register, the comparators and the stage buffer stay, and so does everything but the processor. A
word that ends with a trap-return is BranchModes'.
R120, R124, R125, R136: NOP changes nothing but where the program goes; CMP sets F0 to F3 from D - S and keeps F4 to F7 and D;
MOV and LDT put S, or the committed table word, into D and change no flag unless D is FLAGS; a table word that the host writes in the
word's first clock or later is read as it was (R130, R155). -/
def Obligations.RegisterWords : Prop :=
  (∀ (o : AluOp) (g : Grp) (s : State), s.wordRuns g.val o.code → (spWord s g.val).bmode ≠ 7 →
    ∃ t, exec (o.cmd g) s = .next t ∧ t = { s with regs := t.regs, sps := t.sps } ∧
      s.keepsFields t [SP_STAT_HOLD_LONG g.val] ∧ (∀ j, j ≠ g.val → t.sp j = s.sp j) ∧
      (t.sp g.val).tcmp = (s.sp g.val).tcmp ∧ (t.sp g.val).stage = (s.sp g.val).stage ∧
      (let u := spWord s g.val
       let d := operand s g.val u u.dst
       let x := operand s g.val u u.src
       (u.dst < 16 → (t.sp g.val).reg u.dst = aluResult o d x % 2 ^ 32) ∧
       (∀ i, i ≠ u.dst → (t.sp g.val).reg i = (s.sp g.val).reg i) ∧
       (t.sp g.val).flags = (if u.dst = 0x11 then aluResult o d x % 256 else aluFlags o (s.sp g.val).flags d x) ∧
       (t.sp g.val).psel = (if u.dst = 0x12 then aluResult o d x % 8 else (s.sp g.val).psel) ∧
       (t.sp g.val).stsel = (if u.dst = 0x13 then aluResult o d x % 64 else (s.sp g.val).stsel) ∧
       (t.sp g.val).pisel = (if u.dst = 0x14 then aluResult o d x % 256 else (s.sp g.val).pisel))) ∧
  (∀ (g : Grp) (s : State), s.wordRuns g.val 0x00 → gclSection (s.sp g.val).pc = false → (spWord s g.val).bmode ≠ 7 →
    ∃ t, exec (.nop g) s = .next t ∧ t = { s with regs := t.regs, sps := t.sps } ∧ s.keepsFields t [SP_STAT_HOLD_LONG g.val] ∧
      s.wordFrame t g.val ∧ (t.sp g.val).w = (s.sp g.val).w ∧ (t.sp g.val).flags = (s.sp g.val).flags ∧
      (t.sp g.val).tcmp = (s.sp g.val).tcmp ∧ (t.sp g.val).stage = (s.sp g.val).stage) ∧
  (∀ (g : Grp) (s : State), s.wordRuns g.val 0x09 → (spWord s g.val).bmode ≠ 7 →
    ∃ t, exec (.cmp g) s = .next t ∧ t = { s with regs := t.regs, sps := t.sps } ∧ s.keepsFields t [SP_STAT_HOLD_LONG g.val] ∧
      s.wordFrame t g.val ∧ (t.sp g.val).w = (s.sp g.val).w ∧
      (t.sp g.val).flags = aluFlags .sub (s.sp g.val).flags (operand s g.val (spWord s g.val) (spWord s g.val).dst)
        (operand s g.val (spWord s g.val) (spWord s g.val).src) ∧
      (t.sp g.val).tcmp = (s.sp g.val).tcmp ∧ (t.sp g.val).stage = (s.sp g.val).stage) ∧
  (∀ (g : Grp) (s : State) (v : Nat),
    ((s.wordRuns g.val 0x01 ∧ (spWord s g.val).dst ≠ 0x1D ∧ v = operand s g.val (spWord s g.val) (spWord s g.val).src) ∨
     (s.wordRuns g.val 0x0A ∧
       let o := ((operand s g.val (spWord s g.val) (spWord s g.val).src + (spWord s g.val).imm % 2 ^ 15) % 2 ^ 15) / 4 * 4
       let was := (s.sp g.val).hostW.find? (fun e => decide ((s.sp g.val).rd.at_ ≤ e.1) && e.2.1 == o)
       v = (match was with
         | some e => e.2.2
         | none => s.mem.getLE (tmA g.val 0 + o) 4))) →
    (spWord s g.val).bmode ≠ 7 →
    ∃ t, exec (if (spWord s g.val).op = 0x01 then .mov g else .ldt g) s = .next t ∧
      t = { s with regs := t.regs, sps := t.sps } ∧ s.keepsFields t [SP_STAT_HOLD_LONG g.val] ∧
      (∀ j, j ≠ g.val → t.sp j = s.sp j) ∧
      ((spWord s g.val).dst < 16 → (t.sp g.val).reg (spWord s g.val).dst = v % 2 ^ 32) ∧
      (∀ i, i ≠ (spWord s g.val).dst → (t.sp g.val).reg i = (s.sp g.val).reg i) ∧
      (t.sp g.val).flags = (if (spWord s g.val).dst = 0x11 then v % 256 else (s.sp g.val).flags) ∧
      (t.sp g.val).psel = (if (spWord s g.val).dst = 0x12 then v % 8 else (s.sp g.val).psel) ∧
      (t.sp g.val).stsel = (if (spWord s g.val).dst = 0x13 then v % 64 else (s.sp g.val).stsel) ∧
      (t.sp g.val).pisel = (if (spWord s g.val).dst = 0x14 then v % 256 else (s.sp g.val).pisel) ∧
      (t.sp g.val).tcmp = (s.sp g.val).tcmp ∧ (t.sp g.val).stage = (s.sp g.val).stage)

/-- R83, R95, R97, R123, R127, R135: the visible writes of GATE, SGATE, HOLD, RELEASE, STT and MOV to NEXTEV with STAGE = 0: the gate masks, the owned
stream gate, the preemption holds of ports on which preemption is active, the table word, the reported event; each leaves everything
its operation does not name. A frame whose gate closes in the clock in which it started waits at the head of its queue after all (R114). A gate another processor owns, or an index over 4,095, only sets SGATE_REF.
R135, R136: with STAGE = 1 a GATE, HOLD, RELEASE, STT, an owned SGATE or a MOV to NEXTEV that needs no 33rd key only enters the
stage buffer; nothing visible changes. COMMIT applies what is held and empties the buffer. -/
def Obligations.GateAndStagedWords : Prop :=
  (∀ (g : Grp) (s : State), s.wordRuns g.val 0x18 → (spWord s g.val).stage = false →
    (∀ p ∈ portsIn g.val (spWord s g.val).mask, ∀ x, (s.port p).tx = some x → x.startAt ≠ s.now) →
    ∃ t, exec (.gate g) s = .next t ∧ t = { s with regs := t.regs, sps := t.sps, ports := t.ports } ∧ s.wordFrame t g.val ∧
      s.keepsFields t (SP_STAT_HOLD_LONG g.val :: (portsIn g.val (spWord s g.val).mask).map PRT_GATE_OPEN) ∧
      (∀ p ∈ portsIn g.val (spWord s g.val).mask,
        t.get (PRT_GATE_OPEN p) = operand s g.val (spWord s g.val) (spWord s g.val).src % 256 ∧ (t.port p).safe = false) ∧
      (∀ p, p ∉ portsIn g.val (spWord s g.val).mask → t.port p = s.port p)) ∧
  (∀ (g : Grp) (s : State), s.wordRuns g.val 0x18 → (spWord s g.val).stage = false →
    ∃ t, exec (.gate g) s = .next t ∧
      ∀ p ∈ portsIn g.val (spWord s g.val).mask, ∀ (x : TxSt) (f : QFrame), (s.port p).tx = some x → x.fr = some f →
        x.startAt = s.now → x.again = false → f.due = false → f.host = none → f.tc < 8 →
        operand s g.val (spWord s g.val) (spWord s g.val).src / 2 ^ f.tc % 2 = 0 →
        (t.port p).tx = none ∧ t.queue p f.tc = { f with cutOk := f.cutOk || f.arriving } :: s.queue p f.tc ∧
        cnt64 t.regs (PRT_CNT_TX_FRAMES p) = (cnt64 s.regs (PRT_CNT_TX_FRAMES p) + (2 ^ 64 - 1)) % 2 ^ 64) ∧
  (∀ (g : Grp) (s : State), s.wordRuns g.val 0x19 → (spWord s g.val).stage = false →
    let i := operand s g.val (spWord s g.val) (spWord s g.val).src
    i < 4096 → bits (s.strW 3 i 0) 23 20 = g.val →
    ∃ t, exec (.sgate g) s = .next t ∧ t = { s with regs := t.regs, sps := t.sps, str := t.str } ∧ s.wordFrame t g.val ∧
      s.keepsFields t [SP_STAT_HOLD_LONG g.val] ∧ bits (t.strW 3 i 0) 31 31 = (spWord s g.val).mask % 2 ∧
      bits (t.strW 3 i 0) 30 0 = bits (s.strW 3 i 0) 30 0 ∧
      ∀ k, k ≠ entK 3 i 0 → tget (0 : Word) t.str k = tget (0 : Word) s.str k) ∧
  (∀ (g : Grp) (s : State), s.wordRuns g.val 0x19 →
    let i := operand s g.val (spWord s g.val) (spWord s g.val).src
    ¬ (i < 4096 ∧ bits (s.strW 3 i 0) 23 20 = g.val) →
    ∃ t, exec (.sgate g) s = .next t ∧ t = { s with regs := t.regs, sps := t.sps } ∧ s.wordFrame t g.val ∧
      s.keepsFields t [SP_STAT_HOLD_LONG g.val, SP_STAT_SGATE_REF g.val] ∧ t.get (SP_STAT_SGATE_REF g.val) = 1) ∧
  (∀ (g : Grp) (s : State), s.wordRuns g.val 0x1A → (spWord s g.val).stage = false →
    ∃ t, exec (.hold g) s = .next t ∧ t = { s with regs := t.regs, sps := t.sps } ∧ s.wordFrame t g.val ∧
      s.keepsFields t (SP_STAT_HOLD_LONG g.val :: (portsIn g.val (spWord s g.val).mask).map PRT_MM_HOLD) ∧
      ∀ p ∈ portsIn g.val (spWord s g.val).mask,
        t.get (PRT_MM_HOLD p) = if (s.port p).preempt then 1 else s.get (PRT_MM_HOLD p)) ∧
  (∀ (g : Grp) (s : State), s.wordRuns g.val 0x1B → (spWord s g.val).stage = false →
    ∃ t, exec (.release g) s = .next t ∧ t = { s with regs := t.regs, sps := t.sps } ∧ s.wordFrame t g.val ∧
      s.keepsFields t (SP_STAT_HOLD_LONG g.val :: (portsIn g.val (spWord s g.val).mask).map PRT_MM_HOLD) ∧
      ∀ p ∈ portsIn g.val (spWord s g.val).mask, t.get (PRT_MM_HOLD p) = 0) ∧
  (∀ (g : Grp) (s : State), s.wordRuns g.val 0x0B → (spWord s g.val).stage = false →
    let a := tmA g.val 0 +
      (operand s g.val (spWord s g.val) (spWord s g.val).dst + (spWord s g.val).imm % 2 ^ 15) % 2 ^ 15 / 4 * 4
    ∃ t, exec (.stt g) s = .next t ∧ t = { s with regs := t.regs, sps := t.sps, mem := t.mem } ∧ s.wordFrame t g.val ∧
      s.keepsFields t [SP_STAT_HOLD_LONG g.val] ∧
      (∀ i < 4, t.mem.get (a + i) =
        BitVec.ofNat 8 (operand s g.val (spWord s g.val) (spWord s g.val).src / 2 ^ (8 * i))) ∧
      (∀ b, b < a ∨ a + 4 ≤ b → t.mem.get b = s.mem.get b)) ∧
  (∀ (g : Grp) (s : State), s.wordRuns g.val 0x01 → (spWord s g.val).dst = 0x1D → (spWord s g.val).stage = false →
    ∃ t, exec (.mov g) s = .next t ∧ t = { s with regs := t.regs, sps := t.sps, nextev := t.nextev, nextevWas := t.nextevWas } ∧
      s.wordFrame t g.val ∧
      s.keepsFields t [SP_STAT_HOLD_LONG g.val] ∧
      tget none t.nextev (8 * g.val + (s.sp g.val).psel) = some (operand s g.val (spWord s g.val) (spWord s g.val).src) ∧
      ∀ p, p ≠ 8 * g.val + (s.sp g.val).psel → tget none t.nextev p = tget none s.nextev p) ∧
  (∀ (g : Grp) (c : Instr) (s : State) (ws b : List (StageKey × Nat)),
    (let u := spWord s g.val
     let v := operand s g.val u u.src
     (c = .gate g ∧ u.op = 0x18 ∧ ws = (portsIn g.val u.mask).map (fun p => (.gate p, v % 256))) ∨
     (c = .sgate g ∧ u.op = 0x19 ∧ v < 4096 ∧ bits (s.strW 3 v 0) 23 20 = g.val ∧ ws = [(.sgate v, u.mask % 2)]) ∨
     (c = .hold g ∧ u.op = 0x1A ∧ ws = (portsIn g.val u.mask).map (fun p => (.hold p, 1))) ∨
     (c = .release g ∧ u.op = 0x1B ∧ ws = (portsIn g.val u.mask).map (fun p => (.hold p, 0))) ∨
     (c = .stt g ∧ u.op = 0x0B ∧
       ws = [(.table ((operand s g.val u u.dst + u.imm % 2 ^ 15) % 2 ^ 15 / 4 * 4), v)]) ∨
     (c = .mov g ∧ u.op = 0x01 ∧ u.dst = 0x1D ∧ ws = [(.nextev (8 * g.val + (s.sp g.val).psel), v)])) →
    s.wordRuns g.val (spWord s g.val).op → (spWord s g.val).stage = true → stagePut (s.sp g.val).stage ws = some b →
    ∃ t, exec c s = .next t ∧ t = { s with regs := t.regs, sps := t.sps } ∧ s.keepsFields t [SP_STAT_HOLD_LONG g.val] ∧
      s.wordFrame t g.val ∧ (t.sp g.val).stage = b ∧ b.length ≤ 32 ∧ ∀ w ∈ ws, w ∈ b) ∧
  (∀ (g : Grp) (s : State), s.wordRuns g.val 0x30 → ((s.sp g.val).stage.map (·.1)).Nodup →
    (∀ e ∈ (s.sp g.val).stage, ∀ a, e.1 = .table a → a % 4 = 0) →
    ∃ t, exec (.spCommit g) s = .next t ∧ (t.sp g.val).stage = [] ∧ (∀ j, j ≠ g.val → t.sp j = s.sp j) ∧
      (∀ p v, (StageKey.gate p, v) ∈ (s.sp g.val).stage → t.get (PRT_GATE_OPEN p) = v % 256) ∧
      (∀ p v, (StageKey.nextev p, v) ∈ (s.sp g.val).stage → tget none t.nextev p = some v) ∧
      (∀ a v, (StageKey.table a, v) ∈ (s.sp g.val).stage → t.mem.get (tmA g.val 0 + a) = BitVec.ofNat 8 v) ∧
      (∀ p, (∀ v, (StageKey.gate p, v) ∉ (s.sp g.val).stage) → t.get (PRT_GATE_OPEN p) = s.get (PRT_GATE_OPEN p)) ∧
      ((s.sp g.val).stage = [] → t.mem = s.mem ∧ t.str = s.str ∧ t.ports = s.ports ∧ t.nextev = s.nextev))

/-- R126: TSET arms comparator DST - 0x20 with target (S + IMM[63:32]) modulo 2^32 and clears its fired bit; with MASK[1] it disarms
it instead. An armed comparator whose target is no longer in the future fires: fired, disarmed, and CMP_MISS pending where TSET asked for it. -/
def Obligations.Comparators : Prop :=
  (∀ (g : Grp) (s : State), s.wordRuns g.val 0x10 → (spWord s g.val).mask / 2 % 2 = 0 →
    ∃ t, exec (.tset g) s = .next t ∧ t = { s with regs := t.regs, sps := t.sps } ∧ s.keepsFields t [SP_STAT_HOLD_LONG g.val] ∧
      s.wordFrame t g.val ∧
      (let u := spWord s g.val
       let c := (t.sp g.val).cmp (u.dst - 0x20)
       let target := (operand s g.val u u.src + bits u.imm 63 32) % 2 ^ 32
       c.target = target ∧ c.armed = true ∧ c.fired = false ∧ c.miss = (isPast target s.tickNs && u.mask % 2 == 1) ∧
       ∀ k, k ≠ u.dst - 0x20 → (t.sp g.val).cmp k = (s.sp g.val).cmp k)) ∧
  (∀ (g : Grp) (s : State), s.wordRuns g.val 0x10 → (spWord s g.val).mask / 2 % 2 = 1 →
    ∃ t, exec (.tsetDisarm g) s = .next t ∧ t = { s with regs := t.regs, sps := t.sps } ∧
      s.keepsFields t [SP_STAT_HOLD_LONG g.val] ∧ s.wordFrame t g.val ∧
      (let k := (spWord s g.val).dst - 0x20
       ((t.sp g.val).cmp k).armed = false ∧ ((t.sp g.val).cmp k).fired = false ∧
       ∀ j, j ≠ k → (t.sp g.val).cmp j = (s.sp g.val).cmp j)) ∧
  (∀ (g : Grp) (k : Fin 32) (s : State), s.fatal = false → ((s.sp g.val).cmp k.val).armed = true →
    isPast ((s.sp g.val).cmp k.val).target s.tickNs = true →
    ∃ t, exec (.tcmpFire g k) s = .next t ∧ t = { s with regs := t.regs, sps := t.sps } ∧
      s.keepsFields t [SP_TRAP_PEND g.val] ∧ s.wordFrame t g.val ∧ (t.sp g.val).w = (s.sp g.val).w ∧
      (t.sp g.val).cmp k.val = ⟨((s.sp g.val).cmp k.val).target, false, true, false⟩ ∧
      (∀ j, j ≠ k.val → (t.sp g.val).cmp j = (s.sp g.val).cmp j) ∧
      t.get (SP_TRAP_PEND g.val) =
        (if ((s.sp g.val).cmp k.val).miss then s.get (SP_TRAP_PEND g.val) ||| 2 ^ 4 else s.get (SP_TRAP_PEND g.val))) ∧
  (∀ (g : Grp) (k : Fin 32) (s : State),
    (((s.sp g.val).cmp k.val).armed = false ∨ isPast ((s.sp g.val).cmp k.val).target s.tickNs = false) →
    exec (.tcmpFire g k) s = .next s)

/-- R87, R88, R128: LAUNCH takes the S oldest cued entries (all for 0) of each port in MASK out of their wait; entries that still arrive
or that a recovery instance holds are not among them. With IMM[32] = 1 and a T that is not past they become timed entries with T; otherwise,
on a port whose link is up, they fall due at once, and on one whose link is down they are dropped into TRQ_SKIP. The other entries, the
other queues and everything but the counts of late, slipped and skipped entries stay.
R129: POUR, SIP and PIMG each move the block that the word names, byte for byte, and write no other byte of device memory; POUR
closes the pour window, after the latch for another member's ring where that is due in its clock (R515). PIMG GET reads the buffer that was
current in the word's first clock (R130). Neither the host nor a copy that settles has changed the bytes meanwhile.
R130, R354 to R357: EVT posts a record with code IMM[15:0] and data S to the port group's event ring at its tail; where the route
is off, the ring is not created or the host interface is halted it is dropped and counted; a full ring counts it. -/
def Obligations.LaunchBlockAndEventWords : Prop :=
  (∀ (g : Grp) (s : State), s.wordRuns g.val 0x1C →
    let u := spWord s g.val
    let n := operand s g.val u u.src
    let ports := portsIn g.val u.mask
    let timed := decide (bits u.imm 32 32 = 1)
    let due := !timed || isPast (u.imm % 2 ^ 32) s.tickNs
    let rel : Nat → List QFrame := fun p =>
      let cued := (s.queue p 8).filter (fun f => f.cue && !f.arriving && !f.held)
      if n = 0 then cued else cued.take n
    let lost : Nat → Bool := fun p => due && s.get (PRT_STAT_LINK p) == 0
    ∃ t, exec (.launch g) s = .next t ∧
      t = { s with regs := t.regs, sps := t.sps, queues := t.queues, rings := t.rings } ∧ s.wordFrame t g.val ∧
      (∀ p ∈ ports, ∀ f, f ∈ t.queue p 8 ↔
        (f ∈ s.queue p 8 ∧ ¬ (f.cue = true ∧ ∃ e ∈ rel p, e.id = f.id)) ∨
        (lost p = false ∧ ∃ e ∈ rel p, f = { e with cue := false, due := due, t := if timed then u.imm % 2 ^ 32 else s.tickNs })) ∧
      (∀ p tc, (tc ≠ 8 ∧ tc < 16 ∨ tc = 8 ∧ p ∉ ports) → t.queue p tc = s.queue p tc) ∧
      ((∀ p ∈ ports, lost p = true → ∀ f ∈ s.queue p 8, f.host = none) → t.rings = s.rings) ∧
      (due = false → s.keepsFields t [SP_STAT_HOLD_LONG g.val]) ∧
      (∀ o, o ≠ (SP_STAT_HOLD_LONG g.val).off →
        (∀ p ∈ ports, o ∉ [PRT_CNT_TRQ_LATE p, PRT_CNT_TRQ_LATE p + 4, PRT_CNT_TRQ_SLIP p, PRT_CNT_TRQ_SLIP p + 4,
          PRT_CNT_TRQ_SKIP p, PRT_CNT_TRQ_SKIP p + 4]) → rword t.regs o = rword s.regs o) ∧
      (∀ p ∈ ports, due = true → timed = true → lost p = false →
        cnt64 t.regs (PRT_CNT_TRQ_LATE p) = (cnt64 s.regs (PRT_CNT_TRQ_LATE p) + (rel p).length) % 2 ^ 64) ∧
      (∀ p ∈ ports, timed = false → lost p = false → cnt64 t.regs (PRT_CNT_TRQ_SLIP p) =
        (cnt64 s.regs (PRT_CNT_TRQ_SLIP p) + ((rel p).length - (if trqClear s p && !copyDue s p then 1 else 0))) % 2 ^ 64)) ∧
  (∀ (g : Grp) (s : State), s.wordRuns g.val 0x20 → (s.sp g.val).hostW = [] → remoteDue s (s.sp g.val).stsel = false →
    let b := blockOf s g.val (spWord s g.val)
    let st := (s.sp g.val).stsel
    ∃ t, exec (.pour g) s = .next t ∧ t = { s with regs := t.regs, sps := t.sps, mem := t.mem } ∧ s.wordFrame t g.val ∧
      s.keepsFields t [SP_STAT_HOLD_LONG g.val, CRF_ST_STAT_POUR_OPEN st] ∧ t.get (CRF_ST_STAT_POUR_OPEN st) = 0 ∧
      s.blockCopied t (pourA st + b.buf) (tmA g.val 0 + b.tab) b.len) ∧
  (∀ (g : Grp) (s : State), s.wordRuns g.val 0x20 → remoteDue s (s.sp g.val).stsel = true →
    ∃ t, exec (.pour g) s = .next t ∧ t.out = (remoteLatch s (s.sp g.val).stsel).out ∧
      t.get (CRF_ST_STAT_POUR_OPEN (s.sp g.val).stsel) = 0) ∧
  (∀ (g : Grp) (s : State), s.wordRuns g.val 0x21 →
    (∀ e ∈ (s.stn (s.sp g.val).stsel).olds, e.1 < (s.sp g.val).rd.at_) →
    let b := blockOf s g.val (spWord s g.val)
    ∃ t, exec (.sip g) s = .next t ∧ t = { s with regs := t.regs, sps := t.sps, mem := t.mem } ∧ s.wordFrame t g.val ∧
      s.keepsFields t [SP_STAT_HOLD_LONG g.val] ∧
      s.blockCopied t (tmA g.val 0 + b.tab) (sipA (s.sp g.val).stsel + b.buf) b.len) ∧
  (∀ (g : Grp) (s : State), s.wordRuns g.val 0x22 → (spWord s g.val).mask % 2 = 0 →
    let b := blockOf s g.val (spWord s g.val)
    let n := (s.sp g.val).pisel
    ∃ t, exec (.pimgGet g) s = .next t ∧ t = { s with regs := t.regs, sps := t.sps, mem := t.mem } ∧ s.wordFrame t g.val ∧
      s.keepsFields t [SP_STAT_HOLD_LONG g.val] ∧
      s.blockCopied t (tmA g.val 0 + b.tab) (piA n (s.sp g.val).rd.dev + b.buf) b.len) ∧
  (∀ (g : Grp) (s : State), s.wordRuns g.val 0x22 → (spWord s g.val).mask % 2 = 1 → (s.sp g.val).hostW = [] →
    let b := blockOf s g.val (spWord s g.val)
    let n := (s.sp g.val).pisel
    ∃ t, exec (.pimgPut g) s = .next t ∧ t = { s with regs := t.regs, sps := t.sps, mem := t.mem } ∧ s.wordFrame t g.val ∧
      s.keepsFields t [SP_STAT_HOLD_LONG g.val] ∧
      s.blockCopied t (piA n (s.slot n).dev + b.buf) (tmA g.val 0 + b.tab) b.len) ∧
  (∀ (g : Grp) (s : State), s.wordRuns g.val 0x28 →
    let k := s.get (EVT_ROUTE_RING (1 + g.val))
    let r := s.ring 3 k
    let off := s.get (EVT_ROUTE_EN (1 + g.val)) = 0 ∨ r.created = false ∨ s.halted = true
    ∃ t, exec (.evt g) s = .next t ∧ t = { s with regs := t.regs, sps := t.sps, rings := t.rings, hostMem := t.hostMem } ∧
      s.wordFrame t g.val ∧ s.keepsFields t [SP_STAT_HOLD_LONG g.val, EVT_ROUTE_DROP (1 + g.val)] ∧
      (off → t.rings = s.rings ∧ t.hostMem = s.hostMem ∧ t.get (EVT_ROUTE_DROP (1 + g.val)) =
        min (s.get (EVT_ROUTE_DROP (1 + g.val)) + 1) (2 ^ (EVT_ROUTE_DROP 0).w - 1)) ∧
      (¬ off → t.get (EVT_ROUTE_DROP (1 + g.val)) = s.get (EVT_ROUTE_DROP (1 + g.val)) ∧
        ∀ kind i, i < 4096 → ¬ (kind = 3 ∧ i = k) → t.ring kind i = s.ring kind i) ∧
      (¬ off → r.size ≤ r.fill → t.hostMem = s.hostMem ∧
        t.ring 3 k = { r with cntC := min (r.cntC + 1) (2 ^ 32 - 1), marker := min (r.marker + 1) (2 ^ 32 - 1) }) ∧
      (¬ off → r.fill < r.size →
        t.ring 3 k = { r with tail := (r.tail + 1) % 65536, seq := (r.seq + 1) % 65536 } ∧
        (∀ i < 2, t.hostMem.get (r.slot r.tail + i) = BitVec.ofNat 8 ((spWord s g.val).imm % 2 ^ 16 / 2 ^ (8 * i))) ∧
        (∀ i < 2, t.hostMem.get (r.slot r.tail + 2 + i) = BitVec.ofNat 8 ((0x3000 + g.val) / 2 ^ (8 * i))) ∧
        (∀ i < 4, t.hostMem.get (r.slot r.tail + 4 + i) =
          BitVec.ofNat 8 (operand s g.val (spWord s g.val) (spWord s g.val).src / 2 ^ (8 * i))) ∧
        ∀ a, a < r.slot r.tail ∨ r.slot r.tail + 32 ≤ a → t.hostMem.get a = s.hostMem.get a))

/-- R120, R121, R159: where a word goes after its operation (`eff`, whose state after it is `s1`), by BMODE. Conditions are those after the
word's own operation. A wait-tick that ran past T goes straight on. -/
def Obligations.BranchModes : Prop :=
  ∀ (g : Nat) (eff : UWord → State → Option State) (s s1 : State), csSyndrome (csWord s g (s.sp g).pc) = 0 →
    wordLegal s g (spWord s g) = true → stackFault (s.sp g) (spWord s g) = false → eff (spWord s g) s = some s1 →
    (s1.sp g).run = .exec → spWord s1 g = spWord s g →
    let u := spWord s g
    let t := runWord s g eff
    (u.bmode = 0 → (t.sp g).pc = ((s1.sp g).pc + 1) % 8192) ∧
    (u.bmode = 1 → (t.sp g).pc = u.next) ∧
    (u.bmode = 2 → (t.sp g).pc = u.next ||| condGroup t g u.csel) ∧
    (u.bmode = 3 → (t.sp g).pc = u.next ∧ (t.sp g).stack = ((s1.sp g).pc + 1) % 8192 :: (s1.sp g).stack) ∧
    (u.bmode = 4 → ∀ a r, (s1.sp g).stack = a :: r → (t.sp g).pc = a ∧ (t.sp g).stack = r) ∧
    (u.bmode = 5 → (s1.sp g).crossed = false → (t.sp g).run = .waitTick ∧ (t.sp g).pc = (s1.sp g).pc) ∧
    (u.bmode = 5 → (s1.sp g).crossed = true → (t.sp g).run = .exec ∧ (t.sp g).pc = u.next) ∧
    (u.bmode = 6 → condGroup t g u.csel ≠ 0 → (t.sp g).run = .exec ∧ (t.sp g).pc = u.next) ∧
    (u.bmode = 6 → condGroup t g u.csel = 0 → (t.sp g).run = .waitTime ∧ (t.sp g).pc = (s1.sp g).pc) ∧
    (u.bmode = 7 → (t.sp g).pc = s1.get (SP_TF_CTL_PC g) ∧ (t.sp g).flags = s1.get (SP_TF_CTL_FLAGS g) ∧
      (∀ i < 4, (t.sp g).reg i = s1.get (SP_TF_W_W g i)) ∧ (t.sp g).inTrap = false) ∧
    (u.bmode ≠ 5 → u.bmode ≠ 6 → u.bmode ≠ 7 → (t.sp g).run = .exec)

/-- R137, R138, R139: a word that is illegal, meets a stack fault or needs a 33rd stage key has no effect; trap 1, 2 or 3 is taken
instead, whose frame holds its address, the flags and W0 to W3. In a trap routine it is a double trap: a machine check. -/
def Obligations.SynchronousTraps : Prop :=
  ∀ (g : Grp) (v : Nat) (eff : UWord → State → Option State) (s : State),
    csSyndrome (csWord s g.val (s.sp g.val).pc) = 0 →
    ((v = 1 ∧ wordLegal s g.val (spWord s g.val) = false) ∨
     (v = 2 ∧ wordLegal s g.val (spWord s g.val) = true ∧ stackFault (s.sp g.val) (spWord s g.val) = true) ∨
     (v = 3 ∧ wordLegal s g.val (spWord s g.val) = true ∧ stackFault (s.sp g.val) (spWord s g.val) = false ∧
       eff (spWord s g.val) s = none)) →
    ((s.sp g.val).inTrap = false → (s.sp g.val).run = .exec →
      let t := runWord s g.val eff
      t = { s with regs := t.regs, sps := t.sps } ∧ (∀ j, j ≠ g.val → t.sp j = s.sp j) ∧
      (t.sp g.val).pc = 0x1000 + v ∧ (t.sp g.val).inTrap = true ∧ (t.sp g.val).run = .exec ∧
      (t.sp g.val).w = (s.sp g.val).w ∧ (t.sp g.val).flags = (s.sp g.val).flags ∧ (t.sp g.val).stack = (s.sp g.val).stack ∧
      (t.sp g.val).stage = (s.sp g.val).stage ∧ (t.sp g.val).tcmp = (s.sp g.val).tcmp ∧
      t.get (SP_TF_CTL_VALID g.val) = 1 ∧ t.get (SP_TF_CTL_RESUME_WAIT g.val) = 0 ∧ t.get (SP_TF_CTL_CAUSE g.val) = v ∧
      t.get (SP_TF_CTL_PC g.val) = (s.sp g.val).pc % 8192 ∧ t.get (SP_TF_CTL_FLAGS g.val) = (s.sp g.val).flags % 256 ∧
      (∀ i < 4, t.get (SP_TF_W_W g.val i) = (s.sp g.val).reg i % 2 ^ 32) ∧
      t.get (SP_CNT_TRAPS g.val) = min (s.get (SP_CNT_TRAPS g.val) + 1) 65535) ∧
    ((s.sp g.val).inTrap = true → runWord s g.val eff = machineCheckOp s g.val 3 0 (s.sp g.val).pc)

/-! ### Schedule processors: waits, traps, machine check, host -/

/-- R120, R139, R149: a wait-time whose condition comes ends at NEXT; the lowest pending and enabled cause that may be taken is taken,
its pending bit clears, and RESUME_WAIT says whether the processor waited; BUDGET_LOW becomes pending once in a tick. -/
def Obligations.WaitsAndDeferredTraps : Prop :=
  (∀ (g : Grp) (s : State), s.fatal = false → (s.sp g.val).run = .waitTime → beforeC s = true →
    condGroup s g.val (spWord s g.val).csel ≠ 0 →
    ∃ t, exec (.waitTimeResume g) s = .next t ∧ t = { s with sps := t.sps } ∧ (∀ j, j ≠ g.val → t.sp j = s.sp j) ∧
      t.sp g.val = { s.sp g.val with
        run := .exec, pc := (spWord s g.val).next, count := budgetCount s g.val, begun := true, crossed := false
        nowAt := s.tickNs, rd := spReads s g.val 0, hostW := (s.sp g.val).hostW.filter (fun e => s.now ≤ e.1) }) ∧
  (∀ (g : Grp) (s : State), (condGroup s g.val (spWord s g.val).csel = 0 ∨ (s.sp g.val).run ≠ .waitTime) →
    exec (.waitTimeResume g) s = .next s) ∧
  (∀ (g : Grp) (v : Nat) (s : State), trapDue s g.val = some v → trapAllowed s g.val = true →
    ∃ t, exec (.trapEntry g) s = .next t ∧ t = { s with regs := t.regs, sps := t.sps } ∧ (∀ j, j ≠ g.val → t.sp j = s.sp j) ∧
      4 ≤ v ∧ v ≤ 8 ∧ (s.get (SP_TRAP_PEND g.val)).testBit v = true ∧
      (∀ i, 4 ≤ i → i < v → ¬ ((s.get (SP_TRAP_PEND g.val)).testBit i = true ∧
        (s.get (SP_TRAP_EN g.val)).testBit (i - 4) = true)) ∧
      (∀ i < 16, (t.get (SP_TRAP_PEND g.val)).testBit i = (i != v && (s.get (SP_TRAP_PEND g.val)).testBit i)) ∧
      (t.sp g.val).pc = 0x1000 + v ∧ (t.sp g.val).inTrap = true ∧ (t.sp g.val).run = .exec ∧
      t.get (SP_TF_CTL_CAUSE g.val) = v ∧ t.get (SP_TF_CTL_PC g.val) = (s.sp g.val).pc % 8192 ∧
      t.get (SP_TF_CTL_RESUME_WAIT g.val) = (if (s.sp g.val).run = .exec then 0 else 1) ∧
      (v = 5 → t.get (SP_HOSTREQ_REQ g.val) = 0)) ∧
  (∀ (g : Grp) (s : State), s.fatal = false → s.tick.cur = true → ((s.sp g.val).run = .exec ∨ (s.sp g.val).run = .waitTime) →
    (s.sp g.val).lowRaised = false → bleft s g.val < s.get (SP_BUDGET_LOW_LOW g.val) →
    ∃ t, exec (.budgetLow g) s = .next t ∧ t = { s with regs := t.regs, sps := t.sps } ∧ s.keepsFields t [SP_TRAP_PEND g.val] ∧
      (∀ j, j ≠ g.val → t.sp j = s.sp j) ∧ t.sp g.val = { s.sp g.val with lowRaised := true } ∧
      t.get (SP_TRAP_PEND g.val) = s.get (SP_TRAP_PEND g.val) ||| 2 ^ 6) ∧
  (∀ (g : Grp) (s : State), (s.sp g.val).lowRaised = true → exec (.budgetLow g) s = .next s)

/-- R141, R146, R153, R433: a machine check halts the processor: its ports take SAFE and lose their holds, its stage buffer empties,
every comparator is disarmed, SP_STAT and SP_MCK record it, and the group's shell records a contained event. With FLT_CTL.ARST clear
for the level the processor stays there (R439). A processor that is halted, in a machine check or reloading takes none; one that comes while
the reaction to its cause is in progress is merged (R441).
R149: a write of SP_HOSTREQ takes ARG, and with REQ raises the HOST cause; while REQ is 1 it is ignored, ARG included.
R118, R143, R144, R151, R152: a read of the control-store window puts the word and its parity byte into the data registers; a write
stores the data registers with the parity the device computes, so that a later read of that word finds parity right, and is refused,
with ERR, below 0x1000 and after COMMIT. ADDR steps after an access with AUTOINC. While an access runs, of at most 16 core clocks (the
model's free time, log entry 43), the window takes no other. -/
def Obligations.ProcessorHaltsAndHostAccess : Prop :=
  (∀ (g : Grp) (cause : McCause) (synd : Byte) (s : State), s.fatal = false →
    ((s.sp g.val).run = .exec ∨ (s.sp g.val).run = .waitTick ∨ (s.sp g.val).run = .waitTime) →
    s.collector = true → (∀ b < 4, maskedBy s (grpK g.val) b = none ∧ s.reacting (grpK g.val) b = false) →
    s.get FLT_CTL_ARST / 4 % 2 = 0 →
    let n := match cause with | .parity => 1 | .table => 2 | .doubleTrap => 3
    ∃ t, exec (.machineCheck g cause synd) s = .next t ∧
      (t.sp g.val).run = .mck ∧ (t.sp g.val).stage = [] ∧ (t.sp g.val).inTrap = false ∧
      (∀ k, ((t.sp g.val).cmp k).armed = false) ∧ (t.sp g.val).w = (s.sp g.val).w ∧
      (∀ i < 8, t.get (PRT_GATE_OPEN (8 * g.val + i)) = s.get (PRT_GATE_SAFE (8 * g.val + i)) ∧
        t.get (PRT_MM_HOLD (8 * g.val + i)) = 0) ∧
      t.get (SP_STAT_MCK g.val) = n ∧ t.get (SP_MCK_ADDR g.val) = (s.sp g.val).pc % 8192 ∧
      t.get (SP_MCK_SYND g.val) = (if cause = .parity then synd.toNat else 0) ∧
      t.src (grpK g.val) n = .cont ∧ t.reacting (grpK g.val) n = true ∧
      (∀ j, j ≠ g.val → t.sp j = s.sp j) ∧ t.mem = s.mem ∧ t.cs = s.cs ∧ t.queues = s.queues) ∧
  (∀ (g : Grp) (cause : McCause) (synd : Byte) (s : State),
    ((s.sp g.val).run = .mck ∨ (s.sp g.val).run = .halted ∨ (s.sp g.val).run = .reload) → cutNow s g.val = false →
    let n := match cause with | .parity => 1 | .table => 2 | .doubleTrap => 3
    s.reacting (grpK g.val) n = false → maskedBy s (grpK g.val) n = none →
    exec (.machineCheck g cause synd) s = .next s) ∧
  (∀ (g : Grp) (cause : McCause) (synd : Byte) (s : State), s.fatal = false → s.collector = true →
    ((s.sp g.val).run = .mck ∨ (s.sp g.val).run = .halted ∨ (s.sp g.val).run = .reload) → cutNow s g.val = false →
    let n := match cause with | .parity => 1 | .table => 2 | .doubleTrap => 3
    let b := shellBase (grpK g.val)
    s.reacting (grpK g.val) n = true → maskedBy s (grpK g.val) n = none →
    ∃ t, exec (.machineCheck g cause synd) s = .next t ∧ t = { s with regs := t.regs, evAt := t.evAt } ∧
      s.keepsFields t [SHELL_CNT_MERGED_N b, SHELL_STAT_MERGED b] ∧ t.get (SHELL_STAT_MERGED b) = 1 ∧
      t.get (SHELL_CNT_MERGED_N b) = min (s.get (SHELL_CNT_MERGED_N b) + 1) (2 ^ (SHELL_CNT_MERGED_N 0).w - 1)) ∧
  (∀ (g : Grp) (v : Word) (s : State), s.fatal = false → s.get (SP_HOSTREQ_REQ g.val) = 0 →
    ∃ t, exec (.spHostreq g v) s = .next t ∧
      s.onlyFields t [SP_HOSTREQ_ARG g.val, SP_HOSTREQ_REQ g.val, SP_TRAP_PEND g.val] ∧
      t.get (SP_HOSTREQ_ARG g.val) = v.toNat % 2 ^ 24 ∧ t.get (SP_HOSTREQ_REQ g.val) = (if v.msb then 1 else 0) ∧
      t.get (SP_TRAP_PEND g.val) =
        (if v.msb then s.get (SP_TRAP_PEND g.val) ||| 2 ^ 5 else s.get (SP_TRAP_PEND g.val))) ∧
  (∀ (g : Grp) (v : Word) (s : State), s.get (SP_HOSTREQ_REQ g.val) = 1 → exec (.spHostreq g v) s = .next s) ∧
  (∀ (g : Grp) (v : Word) (s : State), csBusy s g.val = true → exec (.csRead g v) s = .next s ∧ exec (.csWrite g v) s = .next s) ∧
  (∀ (g : Grp) (v : Word) (s : State), s.fatal = false → csBusy s g.val = false → getField v 26 2 = 1 →
    let a := getField v 0 13
    ∃ t, exec (.csRead g v) s = .next t ∧ t = { s with regs := t.regs, sps := t.sps, free := s.free + 1 } ∧
      s.keepsFields t ([SP_CS_ADDR_ADDR g.val, SP_CS_ADDR_AUTOINC g.val, SP_CS_ADDR_PERR g.val, SP_CS_DATA4_PAR g.val] ++
        (List.range 4).map (SP_CS_DATA_DATA g.val)) ∧
      (∀ j, j ≠ g.val → t.sp j = s.sp j) ∧ t.sp g.val = { s.sp g.val with csEnd := (t.sp g.val).csEnd } ∧
      s.now < (t.sp g.val).csEnd ∧ (t.sp g.val).csEnd ≤ s.now + 20 ∧
      (∀ i < 4, t.get (SP_CS_DATA_DATA g.val i) = (csWord s g.val a).toNat / 2 ^ (32 * i) % 2 ^ 32) ∧
      t.get (SP_CS_DATA4_PAR g.val) = (csWord s g.val a).toNat / 2 ^ 128 ∧
      t.get (SP_CS_ADDR_PERR g.val) = (if csSyndrome (csWord s g.val a) = 0 then 0 else 1) ∧
      t.get (SP_CS_ADDR_ADDR g.val) = (if v.getLsbD 28 then (a + 1) % 8192 else a)) ∧
  (∀ (g : Grp) (v : Word) (s : State), s.fatal = false → csBusy s g.val = false → getField v 26 2 = 2 →
    0x1000 ≤ getField v 0 13 → s.locked = false →
    let a := getField v 0 13
    let n := s.get (SP_CS_DATA_DATA g.val 0) + s.get (SP_CS_DATA_DATA g.val 1) * 2 ^ 32 +
      s.get (SP_CS_DATA_DATA g.val 2) * 2 ^ 64 + s.get (SP_CS_DATA_DATA g.val 3) * 2 ^ 96
    ∃ t, exec (.csWrite g v) s = .next t ∧
      t = { s with regs := t.regs, cs := t.cs, csHost := t.csHost, sps := t.sps, free := s.free + 1 } ∧
      (∀ j, j ≠ g.val → t.sp j = s.sp j) ∧ t.sp g.val = { s.sp g.val with csEnd := (t.sp g.val).csEnd } ∧
      s.keepsFields t [SP_CS_ADDR_ADDR g.val, SP_CS_ADDR_AUTOINC g.val, SP_CS_ADDR_ERR g.val] ∧
      t.get (SP_CS_ADDR_ERR g.val) = 0 ∧ t.get (SP_CS_ADDR_ADDR g.val) = (if v.getLsbD 28 then (a + 1) % 8192 else a) ∧
      (csWord t g.val a).toNat % 2 ^ 128 = n ∧ csSyndrome (csWord t g.val a) = 0 ∧
      ∀ k, k ≠ csK g.val a → tget (0 : BitVec 136) t.cs k = tget (0 : BitVec 136) s.cs k) ∧
  (∀ (g : Grp) (v : Word) (s : State), s.fatal = false → csBusy s g.val = false → getField v 26 2 = 2 →
    (getField v 0 13 < 0x1000 ∨ s.locked = true) →
    ∃ t, exec (.csWrite g v) s = .next t ∧
      s.onlyFields t [SP_CS_ADDR_ADDR g.val, SP_CS_ADDR_AUTOINC g.val, SP_CS_ADDR_ERR g.val] ∧
      t.get (SP_CS_ADDR_ERR g.val) = 1)

/-! ### Lanes and ports -/

/-- R16, R51, R52: a sample of an active lane enters LN_MARGIN and SEQ steps; one below VMIN or HMIN, and an interval above ERR_MAX, is an
event of the lane's watched source, whose LIVE bit shows whether its condition stands. While the lane has lost its signal neither is
judged, nor is an interval in a part of which it was lost.
R52, R70, R431, R460: a lane that loses its signal, or clock recovery alone, shows it; on an active lane of a port that neither has its
link up nor brings it up the loss is one watched event and one LOS event, on an inactive lane none. When signal and lock return, the lane shows
them, and a port in PS3 is asked to wake. -/
def Obligations.LaneHealth : Prop :=
  (∀ (l : Lane) (v h : Byte) (eye : Fin 3) (s : State), s.fatal = false → laneActive s l.val = true →
    (s.lane l.val).lost = false → s.get (LN_WATCH_VMIN l.val) ≤ v.toNat → s.get (LN_WATCH_HMIN l.val) ≤ h.toNat →
    ∃ t, exec (.eyeMarginSample l v h eye) s = .next t ∧ t = { s with regs := t.regs, lanes := t.lanes } ∧
      s.keepsFields t [LN_MARGIN_VMARGIN l.val, LN_MARGIN_HMARGIN l.val, LN_MARGIN_EYE l.val, LN_MARGIN_SEQ l.val,
        SHELL_LIVE_LIVE (shellBase (laneK l.val))] ∧
      t.get (LN_MARGIN_VMARGIN l.val) = v.toNat ∧ t.get (LN_MARGIN_HMARGIN l.val) = h.toNat ∧
      t.get (LN_MARGIN_EYE l.val) = eye.val ∧ t.get (LN_MARGIN_SEQ l.val) = (s.get (LN_MARGIN_SEQ l.val) + 1) % 256 ∧
      (∀ i < 16, (t.get (SHELL_LIVE_LIVE (shellBase (laneK l.val)))).testBit i =
        if i = 0 then (s.lane l.val).errBad else (s.get (SHELL_LIVE_LIVE (shellBase (laneK l.val)))).testBit i) ∧
      t.lane l.val = { s.lane l.val with sampled := true, healthy := true } ∧ ∀ j, j ≠ l.val → t.lane j = s.lane j) ∧
  (∀ (l : Lane) (v h : Byte) (eye : Fin 3) (s : State), s.fatal = false → laneActive s l.val = true →
    (s.lane l.val).lost = false → (v.toNat < s.get (LN_WATCH_VMIN l.val) ∨ h.toNat < s.get (LN_WATCH_HMIN l.val)) →
    curPs s (laneK l.val) < 3 → s.countsBelow (laneK l.val) 0 0 l.val →
    ∃ t, exec (.eyeMarginSample l v h eye) s = .next t ∧
      t = { s with
        regs := t.regs, lanes := t.lanes, watch := t.watch, srcs := t.srcs, evAt := t.evAt, vecs := t.vecs, out := t.out } ∧
      s.keepsButEvents t [LN_MARGIN_VMARGIN l.val, LN_MARGIN_HMARGIN l.val, LN_MARGIN_EYE l.val, LN_MARGIN_SEQ l.val,
        SHELL_LIVE_LIVE (shellBase (laneK l.val))] ∧
      t.get (LN_MARGIN_VMARGIN l.val) = v.toNat ∧ t.get (LN_MARGIN_HMARGIN l.val) = h.toNat ∧
      (t.get (SHELL_LIVE_LIVE (shellBase (laneK l.val)))).testBit 0 = true ∧
      t.lane l.val = { s.lane l.val with sampled := true, healthy := false } ∧ t.src (laneK l.val) 0 = .corr ∧
      tget WatchSt.zero t.watch (watchK 0 l.val) = ⟨1, s.now, s.now⟩) ∧
  (∀ (l : Lane) (v h : Byte) (eye : Fin 3) (s : State), s.fatal = false → laneActive s l.val = true →
    (s.lane l.val).lost = true →
    ∃ t, exec (.eyeMarginSample l v h eye) s = .next t ∧
      s.onlyFields t [LN_MARGIN_VMARGIN l.val, LN_MARGIN_HMARGIN l.val, LN_MARGIN_EYE l.val, LN_MARGIN_SEQ l.val]) ∧
  (∀ (l : Lane) (metric : Nat) (s : State), s.fatal = false → laneActive s l.val = true →
    ((s.lane l.val).lost = true ∨ (s.lane l.val).gapped = true) →
    ∃ t, exec (.errorMetricInterval l metric) s = .next t ∧ t = { s with regs := t.regs, lanes := t.lanes } ∧
      s.keepsFields t [LN_ERR_COUNT l.val] ∧
      t.get (LN_ERR_COUNT l.val) = min (s.get (LN_ERR_COUNT l.val) + metric) (2 ^ 32 - 1) ∧
      t.lane l.val = { s.lane l.val with gapped := (s.lane l.val).lost } ∧ ∀ j, j ≠ l.val → t.lane j = s.lane j) ∧
  (∀ (l : Lane) (metric : Nat) (s : State), s.fatal = false → laneActive s l.val = true → (s.lane l.val).lost = false →
    (s.lane l.val).gapped = false → metric ≤ s.get (LN_WATCH_ERR_MAX l.val) →
    ∃ t, exec (.errorMetricInterval l metric) s = .next t ∧ t = { s with regs := t.regs, lanes := t.lanes } ∧
      s.keepsFields t [LN_ERR_COUNT l.val, SHELL_LIVE_LIVE (shellBase (laneK l.val))] ∧
      t.get (LN_ERR_COUNT l.val) = min (s.get (LN_ERR_COUNT l.val) + metric) (2 ^ 32 - 1) ∧
      (t.get (SHELL_LIVE_LIVE (shellBase (laneK l.val)))).testBit 0 = ((s.lane l.val).sampled && !(s.lane l.val).healthy) ∧
      t.lane l.val = { s.lane l.val with errBad := false } ∧ ∀ j, j ≠ l.val → t.lane j = s.lane j) ∧
  (∀ (l : Lane) (metric : Nat) (s : State), s.fatal = false → laneActive s l.val = true → (s.lane l.val).lost = false →
    (s.lane l.val).gapped = false → s.get (LN_WATCH_ERR_MAX l.val) < metric → curPs s (laneK l.val) < 3 →
    s.countsBelow (laneK l.val) 0 0 l.val →
    ∃ t, exec (.errorMetricInterval l metric) s = .next t ∧
      t = { s with
        regs := t.regs, lanes := t.lanes, watch := t.watch, srcs := t.srcs, evAt := t.evAt, vecs := t.vecs, out := t.out } ∧
      s.keepsButEvents t [LN_ERR_COUNT l.val, SHELL_LIVE_LIVE (shellBase (laneK l.val))] ∧
      t.get (LN_ERR_COUNT l.val) = min (s.get (LN_ERR_COUNT l.val) + metric) (2 ^ 32 - 1) ∧
      (t.get (SHELL_LIVE_LIVE (shellBase (laneK l.val)))).testBit 0 = true ∧
      t.lane l.val = { s.lane l.val with errBad := true } ∧
      t.src (laneK l.val) 0 = .corr ∧ tget WatchSt.zero t.watch (watchK 0 l.val) = ⟨1, s.now, s.now⟩) ∧
  (∀ (l : Lane) (cdrOnly : Bool) (s : State), s.fatal = false → (s.lane l.val).lost = false → laneCounts s l.val = false →
    ∃ t, exec (.lossOfSignal ⟨l, cdrOnly⟩) s = .next t ∧ t = { s with regs := t.regs, lanes := t.lanes, quiet := t.quiet } ∧
      s.keepsFields t [LN_STAT_SIG_DET l.val, LN_STAT_CDR_LOCK l.val, LN_STAT_ADAPT l.val,
        SHELL_LIVE_LIVE (shellBase (laneK l.val))] ∧
      t.get (LN_STAT_SIG_DET l.val) = (if cdrOnly then s.get (LN_STAT_SIG_DET l.val) else 0) ∧
      t.get (LN_STAT_CDR_LOCK l.val) = 0 ∧
      t.lane l.val = { s.lane l.val with lost := true, gapped := true }) ∧
  (∀ (l : Lane) (cdrOnly : Bool) (s : State), s.fatal = false → (s.lane l.val).lost = false → laneActive s l.val = true →
    curPs s (laneK l.val) < 3 → s.get (PRT_STAT_STATE (laneP l.val)) ∉ [stUp, stTrain, stAn] →
    s.countsBelow (laneK l.val) 0 0 l.val → s.records (laneK l.val) 1 →
    ∃ t, exec (.lossOfSignal ⟨l, cdrOnly⟩) s = .next t ∧
      t = { s with
        regs := t.regs, lanes := t.lanes, quiet := t.quiet, watch := t.watch, srcs := t.srcs, evAt := t.evAt, vecs := t.vecs
        out := t.out } ∧
      s.keepsButEvents t [LN_STAT_SIG_DET l.val, LN_STAT_CDR_LOCK l.val, LN_STAT_ADAPT l.val,
        SHELL_LIVE_LIVE (shellBase (laneK l.val))] ∧
      t.get (LN_STAT_SIG_DET l.val) = (if cdrOnly then s.get (LN_STAT_SIG_DET l.val) else 0) ∧
      t.get (LN_STAT_CDR_LOCK l.val) = 0 ∧ (t.lane l.val).lost = true ∧ (t.lane l.val).gapped = true ∧
      (t.get (SHELL_LIVE_LIVE (shellBase (laneK l.val)))).testBit 0 = true ∧
      (t.get (SHELL_LIVE_LIVE (shellBase (laneK l.val)))).testBit 1 = true ∧
      t.src (laneK l.val) 0 = .corr ∧ t.src (laneK l.val) 1 = .corr) ∧
  (∀ (l : Lane) (s : State), (s.lane l.val).lost = true → exec (.lossOfSignal ⟨l, true⟩) s = .next s) ∧
  (∀ (l : Lane) (s : State), s.fatal = false → (s.lane l.val).lost = true →
    ∃ t, exec (.lossOfSignal ⟨l, false⟩) s = .next t ∧ s.onlyFields t [LN_STAT_SIG_DET l.val] ∧ t.get (LN_STAT_SIG_DET l.val) = 0) ∧
  (∀ (l : Lane) (s : State), s.fatal = false → laneActive s l.val = true → curPs s (portK (laneP l.val)) ≠ 3 →
    ∃ t, exec (.signalDetect ⟨l, true⟩) s = .next t ∧ t = { s with regs := t.regs, lanes := t.lanes } ∧
      s.keepsFields t [LN_STAT_SIG_DET l.val, LN_STAT_CDR_LOCK l.val, LN_STAT_ADAPT l.val,
        SHELL_LIVE_LIVE (shellBase (laneK l.val))] ∧
      t.get (LN_STAT_SIG_DET l.val) = 1 ∧ t.get (LN_STAT_CDR_LOCK l.val) = 1 ∧
      (t.get (SHELL_LIVE_LIVE (shellBase (laneK l.val)))).testBit 1 = false ∧
      t.lane l.val = { s.lane l.val with lost := false }) ∧
  (∀ (l : Lane) (s : State), s.fatal = false → laneActive s l.val = true → curPs s (portK (laneP l.val)) ≠ 3 →
    ∃ t, exec (.signalDetect ⟨l, false⟩) s = .next t ∧ s.onlyFields t [LN_STAT_SIG_DET l.val] ∧
      t.get (LN_STAT_SIG_DET l.val) = 1) ∧
  (∀ (l : Lane) (lock : Bool) (s : State), s.fatal = false → laneActive s l.val = true → curPs s (portK (laneP l.val)) = 3 →
    ∃ t, exec (.signalDetect ⟨l, lock⟩) s = .next t ∧ (lock = true → (t.lane l.val).lost = false) ∧
      t.toPs (portK (laneP l.val)) = some 0 ∧
      t.get (SHELL_PWR_BUSY (shellBase (portK (laneP l.val)))) = 1 ∧ t.queues = s.queues ∧ t.mem = s.mem)

/-- R46, R47, R49, R56 to R58, R432: how a link is brought up, lost, followed in a retreat and given up. A mode without
auto-negotiation resolves nothing: its training ends in STATE 1 (the model's reading, log entry 36).
R528: when a port group's reference clock is lost, its ports leave STATE 3 and stay in STATE 1, but for those that are off or
retired; when it has returned, those in STATE 1 resume in their modes. -/
def Obligations.LinksAndClocks : Prop :=
  (∀ (p : Port) (s : State), s.fatal = false → s.get (PRT_STAT_STATE p.val) = stAn → clockLost s p.val = false →
    curPs s (portK p.val) < 3 → usesAn s p.val (s.get (PRT_STAT_CUR_MODE p.val)) = true →
    ∃ t, exec (.anResolved p) s = .next t ∧ s.onlyFields t [PRT_STAT_STATE p.val] ∧ t.get (PRT_STAT_STATE p.val) = stTrain) ∧
  (∀ (p : Port) (s : State), usesAn s p.val (s.get (PRT_STAT_CUR_MODE p.val)) = false → exec (.anResolved p) s = .next s) ∧
  (∀ (p : Port) (s : State), s.fatal = false →
    (s.get (PRT_STAT_STATE p.val) = stTrain ∨
      (s.get (PRT_STAT_STATE p.val) = stAn ∧ usesAn s p.val (s.get (PRT_STAT_CUR_MODE p.val)) = false)) →
    clockLost s p.val = false →
    ∃ t, exec (.linkUp p) s = .next t ∧ t.get (PRT_STAT_LINK p.val) = 1 ∧ t.get (PRT_STAT_STATE p.val) = stUp ∧
      t.get (PRT_TS_FIX_FIX_RX p.val) = ps256 (modeFix (s.get (PRT_STAT_CUR_MODE p.val))).1 ∧
      t.get (PRT_TS_FIX_FIX_TX p.val) = ps256 (modeFix (s.get (PRT_STAT_CUR_MODE p.val))).2 ∧
      t.get (PRT_STAT_RTR_STEP p.val) = (s.get (PRT_STAT_RTR_STEP p.val) + (s.port p.val).retreating.toNat) % 16 ∧
      (t.port p.val).upAt = s.now ∧ (t.port p.val).retreating = false ∧ t.reacting (portK p.val) 1 = false ∧
      t.queues = s.queues ∧ t.str = s.str) ∧
  (∀ (p : Port) (s : State), s.fatal = false → s.get (PRT_STAT_STATE p.val) = stUp → s.get (PRT_STAT_CUR_MODE p.val) ≠ 0 →
    ∃ t, exec (.linkLost p) s = .next t ∧ t.get (PRT_STAT_LINK p.val) = 0 ∧
      t.get (PRT_STAT_STATE p.val) = stAn ∧
      t.get (PRT_STAT_CUR_MODE p.val) = s.get (PRT_STAT_CUR_MODE p.val) ∧
      t.get (PRT_STAT_ACT_LANES p.val) = s.get (PRT_STAT_ACT_LANES p.val) ∧
      t.get (PRT_TS_FIX_FIX_RX p.val) = 0 ∧ t.get (PRT_TS_FIX_FIX_TX p.val) = 0 ∧ (t.port p.val).tx = none ∧
      (t.port p.val).rest = none ∧ t.reacting (portK p.val) 1 = true ∧
      (s.arriving (rxK p.val false) = none → s.arriving (rxK p.val true) = none →
        t.queues = s.queues ∧ t.str = s.str ∧ t.mem = s.mem)) ∧
  (∀ (p : Port) (s : State), s.get (PRT_STAT_STATE p.val) ≠ stUp → exec (.linkLost p) s = .next s) ∧
  (∀ (p : Port) (mode : Fin 16) (lane : Fin 4) (m : Nat) (s : State), s.fatal = false →
    s.get (PRT_STAT_STATE p.val) ∉ [stUp, stOff, stRetired] → s.get (PRT_MODE_RTR_EN p.val) = 1 →
    followSet s p.val mode.val lane.val = some m → s.records (portK p.val) 2 →
    ∃ t, exec (.retreatFollow p mode lane) s = .next t ∧ t.get (PRT_STAT_CUR_MODE p.val) = mode.val ∧
      t.get (PRT_STAT_ACT_LANES p.val) = m ∧ t.get (PRT_STAT_STATE p.val) = stAn ∧ t.get (PRT_STAT_RTR_FOLLOW p.val) = 1 ∧
      (t.port p.val).retreating = true ∧ (t.port p.val).retreatAt = s.now ∧ t.src (portK p.val) 2 = .corr ∧
      (∀ i < 4, t.get (LN_STAT_ACTIVE (4 * p.val + i)) = m / 2 ^ i % 2) ∧ t.queues = s.queues) ∧
  (∀ (p : Port) (mode : Fin 16) (lane : Fin 4) (s : State),
    (followSet s p.val mode.val lane.val = none ∨ s.get (PRT_MODE_RTR_EN p.val) = 0) →
    exec (.retreatFollow p mode lane) s = .next s) ∧
  (∀ (p : Port) (s : State), s.fatal = false → (s.port p.val).retreating = true → s.get (PRT_STAT_STATE p.val) ≠ stUp →
    s.get (PRT_STAT_LINK p.val) = 0 →
    1000000 * max 1 (s.get (PRT_RTR_TMO_TMO p.val)) ≤ s.now - (s.port p.val).retreatAt → s.records (portK p.val) 3 →
    ∃ t, exec (.retreatTimeout p) s = .next t ∧ t.get (PRT_STAT_STATE p.val) = stRetired ∧
      (t.port p.val).retreating = false ∧ t.queue p.val 8 = [] ∧ t.src (portK p.val) 3 = .cont ∧
      t.reacting (portK p.val) 3 = true ∧ ∀ tc < 8, t.queue p.val tc = s.queue p.val tc) ∧
  (∀ (p : Port) (s : State), s.now - (s.port p.val).retreatAt < 1000000 * max 1 (s.get (PRT_RTR_TMO_TMO p.val)) →
    exec (.retreatTimeout p) s = .next s) ∧
  (∀ (g : Grp) (s : State), s.fatal = false → tget false s.sdLost g.val = false →
    ∃ t, exec (.refclkSdLost g) s = .next t ∧ tget false t.sdLost g.val = true ∧
      (∀ i < 8, t.get (PRT_STAT_STATE (8 * g.val + i)) ∈ [stOff, stAn, stRetired]) ∧
      (∀ h, h ≠ g.val → tget false t.sdLost h = tget false s.sdLost h) ∧ (s.heldFrames = [] → t.str = s.str)) ∧
  (∀ (g : Grp) (s : State), tget false s.sdLost g.val = true → exec (.refclkSdLost g) s = .next s) ∧
  (∀ (g : Grp) (s : State), s.fatal = false → tget false s.sdLost g.val = true →
    ∃ t, exec (.refclkSdReturn g) s = .next t ∧ tget false t.sdLost g.val = false ∧
      (∀ i < 8, s.get (PRT_STAT_STATE (8 * g.val + i)) = stAn → s.get (PRT_STAT_CUR_MODE (8 * g.val + i)) ≠ 0 →
        t.get (PRT_STAT_STATE (8 * g.val + i)) = stAn ∧
        t.get (PRT_STAT_CUR_MODE (8 * g.val + i)) = s.get (PRT_STAT_CUR_MODE (8 * g.val + i)) ∧
        t.get (PRT_STAT_ACT_LANES (8 * g.val + i)) = s.get (PRT_STAT_ACT_LANES (8 * g.val + i))) ∧
      (∀ h, h ≠ g.val → tget false t.sdLost h = tget false s.sdLost h) ∧ t.queues = s.queues ∧ t.str = s.str) ∧
  (∀ (g : Grp) (s : State), tget false s.sdLost g.val = false → exec (.refclkSdReturn g) s = .next s)

/-! ### Forwarding -/

/-- R74 to R77, R113: a header that a MAC takes stands open there until its end. On a port without guardian and MACsec, with `s2` the
state in which its power demand and VAR_RX are noted, and with no memory error of its pipeline or mesh link (R433, R434): a frame its
VLAN rules refuse counts in DROP_FILTER; one without stream, redundancy tag or group whose destination is known behind one other port, is stored at the end of its class's queue there, not ready yet. -/
def Obligations.FrameHeaders : Prop :=
  (∀ (p : Port) (h : RxHdr) (s : State), macUp s p.val = true → copyOf s p.val h.bytes = none → csOf s p.val h.bytes = none →
    ∃ t o, exec (.frameReceive p h) s = .next t ∧ t.arriving (rxK p.val h.preempt) = some o ∧ o.port = p.val ∧
      o.fr.len = h.len) ∧
  (∀ (p : Port) (h : RxHdr) (s : State), macUp s p.val = true → copyOf s p.val h.bytes = none → csOf s p.val h.bytes = none →
    s.arriving (rxK p.val h.preempt) = none → (h.len < 64 ∨ macControl h.bytes = true) → s.get (PRT_GRD_CTL_EN p.val) = 0 →
    ∃ t o, exec (.frameReceive p h) s = .next t ∧ t = { s with regs := t.regs, pwr := t.pwr, rxOpen := t.rxOpen } ∧
      t.arriving (rxK p.val h.preempt) = some o ∧ o.dropped = true ∧ o.fr.bytes = h.bytes ∧
      t.get (PRT_TS_VAR_VAR_RX p.val) = h.varRx % 65536 ∧
      ∀ k, k ≠ rxK p.val h.preempt → t.arriving k = s.arriving k) ∧
  (∀ (p : Port) (h : RxHdr) (s : State), macUp s p.val = true → copyOf s p.val h.bytes = none → csOf s p.val h.bytes = none →
    s.arriving (rxK p.val h.preempt) = none → 64 ≤ h.len → macControl h.bytes = false → selfFrame s h.bytes = false →
    s.get (PRT_GRD_CTL_EN p.val) = 0 → s.get (PRT_SEC_CFG_EN p.val) = 0 → s.reacting (grpK (p.val / 8)) 5 = false →
    let s2 := noteRx (demand s (portK p.val)) p.val h.varRx
    let x := parse (untagFrame s2 p.val h.bytes).bytes
    vlanAccepts s2 p.val x (classify s2 p.val x) = false →
    ∃ t o, exec (.frameReceive p h) s = .next t ∧
      t = { s with regs := t.regs, pwr := t.pwr, rxOpen := t.rxOpen, ids := s.ids + 1 } ∧
      t.arriving (rxK p.val h.preempt) = some o ∧ o.dropped = true ∧ o.vlanDrop = true ∧
      cnt64 t.regs (PRT_CNT_DROP_FILTER p.val) = (cnt64 s.regs (PRT_CNT_DROP_FILTER p.val) + 1) % 2 ^ 64) ∧
  (∀ (p : Port) (q : Nat) (h : RxHdr) (s : State), macUp s p.val = true → copyOf s p.val h.bytes = none →
    csOf s p.val h.bytes = none → s.arriving (rxK p.val h.preempt) = none → 64 ≤ h.len → macControl h.bytes = false →
    selfFrame s h.bytes = false → s.get (PRT_GRD_CTL_EN p.val) = 0 → s.get (PRT_SEC_CFG_EN p.val) = 0 →
    s.reacting (grpK (p.val / 8)) 5 = false → meshStops s p.val q = false →
    let s2 := noteRx (demand s (portK p.val)) p.val h.varRx
    let x := parse h.bytes
    let v := classify s2 p.val x
    let tc := classOf v.pcp
    vlanAccepts s2 p.val x v = true → sidOf s2 x = none → etherType h.bytes ≠ 0x88F7 → linkLocal h.bytes = false →
    untagFrame s2 p.val h.bytes = ⟨h.bytes, none, false⟩ → groupOf s2 p.val = none → groupOf s2 q = none →
    decide6 s2 (asPort s2 p.val false) v.vid x.da false = ([q], false) → s2.get (PRT_GRD_STAT_STATE q) ≠ 3 →
    isUlc s2 q = false → admits s2 q tc (cellsOf h.len) = true → cutsThrough s2 p.val q tc = false →
    ∃ t o f, exec (.frameReceive p h) s = .next t ∧
      t = { s with
        regs := t.regs, pwr := t.pwr, rxOpen := t.rxOpen, ids := s.ids + 1, queues := t.queues, claims := t.claims } ∧
      t.arriving (rxK p.val h.preempt) = some o ∧ o.dropped = false ∧ o.places = [(q, tc)] ∧ o.toHost = false ∧ o.fr.id = s.ids ∧
      t.queue q tc = s.queue q tc ++ [f] ∧ f.id = s.ids ∧ f.bytes = h.bytes ∧ f.len = h.len ∧ f.arriving = true ∧
      f.vid = v.vid ∧ f.pcp = v.pcp ∧ f.tc = tc ∧ f.handle = none ∧ f.seq = none ∧
      ∀ k, k ≠ qK q tc → tget [] t.queues k = tget [] s.queues k)

/-- R77, R98, R100, R113: a frame's end. A bad end counts and takes the frame out of every queue; a good one counts and makes it ready
in its queues; where it teaches, the entry of its source takes its port, or its group's PORT_A (R234), and is as new. R249: the good end of a blocked frame counts
nothing. An end at an idle MAC does nothing. -/
def Obligations.FrameEnds : Prop :=
  (∀ (p : Port) (pre : Bool) (e : RxEnd) (o : RxOpen) (s : State), s.fatal = false →
    s.arriving (rxK p.val pre) = some o → o.blocked = false → o.marks = [] → o.cts = [] → s.heldFrames = [] →
    ((e.frag = true ∧ pre = true) ∨ e.fcs = false ∨ s.get (PRT_STAT_LINK p.val) = 0 ∨ o.fr.len < 64) →
    let c := if e.frag && pre then PRT_CNT_FRAG_ERR p.val else PRT_CNT_RX_BAD p.val
    ∃ t, exec (.frameEnd p pre e) s = .next t ∧
      t = { s with regs := t.regs, rxOpen := t.rxOpen, queues := t.queues } ∧
      cnt64 t.regs c = (cnt64 s.regs c + 1) % 2 ^ 64 ∧
      (∀ k, k ≠ c → k ≠ c + 4 → rword t.regs k = rword s.regs k) ∧ t.arriving (rxK p.val pre) = none ∧
      (∀ k, k ≠ rxK p.val pre → t.arriving k = s.arriving k) ∧
      (∀ k, ∀ f ∈ tget [] t.queues k, f.id ≠ o.fr.id)) ∧
  (∀ (p : Port) (pre : Bool) (e : RxEnd) (o : RxOpen) (s : State), s.fatal = false →
    s.arriving (rxK p.val pre) = some o → o.blocked = false → o.dropped = false → o.late = false → o.marks = [] → o.cts = [] → o.insts = [] →
    o.handle = none → o.sec = none → o.ptp = none → o.trq = none → o.toHost = false → o.learn = false → s.heldFrames = [] →
    (e.frag && pre) = false → e.fcs = true → s.get (PRT_STAT_LINK p.val) = 1 → 64 ≤ o.fr.len →
    macControl o.fr.bytes = false → etherType o.fr.bytes ≠ 0x88F7 →
    ∃ t, exec (.frameEnd p pre e) s = .next t ∧
      t = { s with regs := t.regs, rxOpen := t.rxOpen, queues := t.queues } ∧
      cnt64 t.regs (PRT_CNT_RX_FRAMES p.val) = (cnt64 s.regs (PRT_CNT_RX_FRAMES p.val) + 1) % 2 ^ 64 ∧
      cnt64 t.regs (PRT_CNT_RX_BYTES p.val) = (cnt64 s.regs (PRT_CNT_RX_BYTES p.val) + o.fr.len) % 2 ^ 64 ∧
      t.arriving (rxK p.val pre) = none ∧
      ∀ k, tget [] t.queues k = (tget [] s.queues k).map (fun f => if f.id = o.fr.id then { f with arriving := false } else f)) ∧
  (∀ (p : Port) (pre : Bool) (e : RxEnd) (o : RxOpen) (i : Nat) (s : State), s.fatal = false →
    s.arriving (rxK p.val pre) = some o → o.blocked = false → o.dropped = false → o.late = false → o.marks = [] → o.cts = [] → o.insts = [] →
    o.handle = none → o.sec = none → o.ptp = none → o.trq = none → o.toHost = false → o.learn = true → s.heldFrames = [] →
    (e.frag && pre) = false → e.fcs = true → s.get (PRT_STAT_LINK p.val) = 1 → 64 ≤ o.fr.len →
    macControl o.fr.bytes = false → etherType o.fr.bytes ≠ 0x88F7 → learnPort s o.fr.inPort < 128 →
    fdbFind s (beField o.fr.bytes 6 6) (vlanFid s o.fr.vid) = some i → bits (s.strW 6 i 2) 30 28 = 0 →
    ∃ t, exec (.frameEnd p pre e) s = .next t ∧
      t = { s with regs := t.regs, rxOpen := t.rxOpen, queues := t.queues, str := t.str, fdbSeen := t.fdbSeen } ∧
      t.strW 6 i 2 = s.strW 6 i 2 / 65536 * 65536 + learnPort s o.fr.inPort ∧ tget 0 t.fdbSeen i = s.now + 1 ∧
      ∀ k, k ≠ entK 6 i 2 → tget (0 : Word) t.str k = tget (0 : Word) s.str k) ∧
  (∀ (p : Port) (pre : Bool) (e : RxEnd) (o : RxOpen) (s : State), s.fatal = false →
    s.arriving (rxK p.val pre) = some o → o.blocked = true → (e.frag && pre) = false → e.fcs = true →
    s.get (PRT_STAT_LINK p.val) = 1 → 64 ≤ o.fr.len →
    exec (.frameEnd p pre e) s = .next { s with rxOpen := tset none s.rxOpen (rxK p.val pre) none }) ∧
  (∀ (p : Port) (pre : Bool) (e : RxEnd) (s : State), s.arriving (rxK p.val pre) = none →
    exec (.frameEnd p pre e) s = .next s) ∧
  (∀ (i : Fin 262144) (s : State), s.fatal = false → bits (s.strW 6 i.val 2) 31 31 = 1 → bits (s.strW 6 i.val 2) 30 30 = 0 →
    s.get FWD_CFG_AGE ≠ 0 → tget 0 s.fdbSeen i.val + s.get FWD_CFG_AGE * 1000000000 ≤ s.now + 1 →
    ∃ t, exec (.ageing i) s = .next t ∧ t = { s with str := t.str, fdbSeen := t.fdbSeen } ∧
      (∀ w < 3, t.strW 6 i.val w = 0) ∧
      (∀ k, (∀ w < 3, k ≠ entK 6 i.val w) → tget (0 : Word) t.str k = tget (0 : Word) s.str k) ∧
      ∀ j, j ≠ i.val → tget 0 t.fdbSeen j = tget 0 s.fdbSeen j) ∧
  (∀ (i : Fin 262144) (s : State), (bits (s.strW 6 i.val 2) 31 31 = 0 ∨ bits (s.strW 6 i.val 2) 30 30 = 1 ∨
      s.get FWD_CFG_AGE = 0 ∨ s.now + 1 < tget 0 s.fdbSeen i.val + s.get FWD_CFG_AGE * 1000000000) →
    exec (.ageing i) s = .next s)

/-- R82, R96, R97: on an idle line the transmitter starts the frame that R82 chooses, as R77 and R222 edit it; a preempted frame is
resumed before another preemptable one; an express frame, or a hold, makes a preemptable frame yield at a permitted point: its first
fragment holds the line until it has left. A carafe copy due in this clock goes first (R114). A port that may not send, or has nothing
to send, does nothing. No launch of the timed-release queue falls due in these clocks. -/
def Obligations.TransmitSelection : Prop :=
  (∀ (p : Port) (varTx tc : Nat) (f : QFrame) (s : State), isUlc s p.val = false → macUp s p.val = true →
    (∀ f ∈ s.queue p.val 8, fallsDue (planeNs s p.val varTx) f = false) → copyDue s p.val = false →
    curPs s (portK p.val) = 0 → inFlight s p.val = none → hasWork s p.val = true →
    (expressHead s p.val = some (tc, f) ∨
      (expressHead s p.val = none ∧ held s p.val = false ∧ (s.port p.val).rest = none ∧
        (classesDown.filter (fun c => !expressTc s p.val c)).findSome? (classHead s p.val) = some (tc, f))) →
    f.host = none → (egressBytes s p.val f).length ≤ 9212 → s.get (PRT_SEC_CFG_EN p.val) = 0 →
    ∃ t x, exec (.transmitSelection p varTx) s = .next t ∧
      t = { s with regs := t.regs, queues := t.queues, ports := t.ports, out := t.out } ∧
      t.out = s.out ++ [.frame p.val (egressBytes s p.val f)] ∧ (t.port p.val).tx = some x ∧ x.id = f.id ∧ x.fr = some f ∧
      x.express = (tc == 8 || expressTc s p.val tc) ∧ x.endAt = s.now + wireNs s p.val ((egressBytes s p.val f).length + 4) ∧
      t.queue p.val tc = (s.queue p.val tc).filter (fun q => !(q.id == f.id && q.keep == f.keep)) ∧
      cnt64 t.regs (PRT_CNT_TX_FRAMES p.val) = (cnt64 s.regs (PRT_CNT_TX_FRAMES p.val) + 1) % 2 ^ 64 ∧
      cnt64 t.regs (PRT_CNT_TX_BYTES p.val) =
        (cnt64 s.regs (PRT_CNT_TX_BYTES p.val) + (egressBytes s p.val f).length + 4) % 2 ^ 64 ∧
      t.get (PRT_TS_VAR_VAR_TX p.val) = varTx % 65536 ∧
      (∀ q, q ≠ p.val → t.port q = s.port q) ∧ ∀ k, k ≠ qK p.val tc → tget [] t.queues k = tget [] s.queues k) ∧
  (∀ (p : Port) (varTx n : Nat) (f : QFrame) (s : State), isUlc s p.val = false → macUp s p.val = true →
    (∀ f ∈ s.queue p.val 8, fallsDue (planeNs s p.val varTx) f = false) → copyDue s p.val = false →
    curPs s (portK p.val) = 0 → inFlight s p.val = none → expressHead s p.val = none → held s p.val = false →
    (s.port p.val).rest = some (f, n) →
    ∃ t x, exec (.transmitSelection p varTx) s = .next t ∧ t = { s with ports := t.ports } ∧ (t.port p.val).rest = none ∧
      (t.port p.val).tx = some x ∧ x.id = f.id ∧ x.len = n ∧ x.again = true ∧ x.express = false ∧
      ∀ q, q ≠ p.val → t.port q = s.port q) ∧
  (∀ (p : Port) (varTx b : Nat) (x : TxSt) (f : QFrame) (s : State), isUlc s p.val = false → macUp s p.val = true →
    (∀ f ∈ s.queue p.val 8, fallsDue (planeNs s p.val varTx) f = false) →
    curPs s (portK p.val) = 0 → inFlight s p.val = some x → ((expressHead s p.val).isSome = true ∨ held s p.val = true) →
    yields s p.val x = true → cutPoint s p.val x = some b → x.fr = some f →
    ∃ t, exec (.transmitSelection p varTx) s = .next t ∧ t = { s with regs := t.regs, ports := t.ports } ∧
      t.port p.val = { s.port p.val with
        tx := some { x with fr := none, endAt := x.startAt + wireNs s p.val (b + 4) }, rest := some (f, x.len - b) } ∧
      (∀ q, q ≠ p.val → t.port q = s.port q) ∧
      cnt64 t.regs (PRT_CNT_PREEMPT p.val) = (cnt64 s.regs (PRT_CNT_PREEMPT p.val) + (!x.again).toNat) % 2 ^ 64) ∧
  (∀ (p : Port) (varTx : Nat) (x : TxSt) (s : State), isUlc s p.val = false → macUp s p.val = true →
    (∀ f ∈ s.queue p.val 8, fallsDue (planeNs s p.val varTx) f = false) → curPs s (portK p.val) = 0 →
    inFlight s p.val = some x → (yields s p.val x = false ∨ cutPoint s p.val x = none) →
    exec (.transmitSelection p varTx) s = .next s) ∧
  (∀ (p : Port) (varTx : Nat) (s : State), isUlc s p.val = false → macUp s p.val = true →
    (∀ f ∈ s.queue p.val 8, fallsDue (planeNs s p.val varTx) f = false) → curPs s (portK p.val) = 0 →
    inFlight s p.val = none → copyDue s p.val = true → exec (.transmitSelection p varTx) s = .next s) ∧
  (∀ (p : Port) (varTx : Nat) (s : State),
    (s.fatal = true ∨ ∀ f ∈ s.queue p.val 8, fallsDue (planeNs s p.val varTx) f = false) →
    (maySend s p.val = false ∨ (hasWork s p.val = false ∧ held s p.val = false)) →
    exec (.transmitSelection p varTx) s = .next s)

/-- R86 to R88, R96, R113: entries of the timed-release queue whose T has come fall due, and each that something holds up counts in
TRQ_SLIP while a preemptable frame in flight yields to it; with the link down they are skipped and count in TRQ_SKIP. R96, R110: a
verification attempt that finds no answer within the verify interval has failed, and the third failure is final. The latch of a
counter's high word.
R252, R254: an accepted frame that still arrives after its slot's end is truncated: it ends as one with a bad FCS, counts, and is an
event of the port's guardian source. -/
def Obligations.TimedReleaseVerifyTruncate : Prop :=
  (∀ (p : Port) (varTx : Nat) (s : State), s.fatal = false →
    let falls := fallsDue (planeNs s p.val varTx)
    let n := ((s.queue p.val 8).filter falls).length
    n ≠ 0 → s.get (PRT_STAT_LINK p.val) = 0 → (∀ f ∈ s.queue p.val 8, f.host = none) →
    ∃ t, exec (.timedReleaseLaunch p varTx) s = .next t ∧ t = { s with regs := t.regs, queues := t.queues } ∧
      t.queue p.val 8 = (s.queue p.val 8).filter (fun f => !falls f) ∧
      cnt64 t.regs (PRT_CNT_TRQ_SKIP p.val) = (cnt64 s.regs (PRT_CNT_TRQ_SKIP p.val) + n) % 2 ^ 64 ∧
      (∀ k, k ≠ PRT_CNT_TRQ_SKIP p.val → k ≠ PRT_CNT_TRQ_SKIP p.val + 4 → rword t.regs k = rword s.regs k) ∧
      ∀ k, k ≠ qK p.val 8 → tget [] t.queues k = tget [] s.queues k) ∧
  (∀ (p : Port) (varTx : Nat) (s : State), s.fatal = false →
    let falls := fallsDue (planeNs s p.val varTx)
    let n := ((s.queue p.val 8).filter falls).length
    n ≠ 0 → s.get (PRT_STAT_LINK p.val) = 1 → (trqClear s p.val = false ∨ copyDue s p.val = true) →
    (∀ x, inFlight s p.val = some x → yields s p.val x = false ∨ cutPoint s p.val x = none) →
    ∃ t, exec (.timedReleaseLaunch p varTx) s = .next t ∧ t = { s with regs := t.regs, queues := t.queues } ∧
      t.queue p.val 8 = (s.queue p.val 8).map (fun f => if falls f then { f with due := true } else f) ∧
      cnt64 t.regs (PRT_CNT_TRQ_SLIP p.val) = (cnt64 s.regs (PRT_CNT_TRQ_SLIP p.val) + n) % 2 ^ 64 ∧
      ∀ k, k ≠ qK p.val 8 → tget [] t.queues k = tget [] s.queues k) ∧
  (∀ (p : Port) (varTx b : Nat) (x : TxSt) (f : QFrame) (s : State), s.fatal = false →
    let falls := fallsDue (planeNs s p.val varTx)
    let n := ((s.queue p.val 8).filter falls).length
    n ≠ 0 → s.get (PRT_STAT_LINK p.val) = 1 → (s.port p.val).safe = false → inFlight s p.val = some x →
    yields s p.val x = true → cutPoint s p.val x = some b → x.fr = some f →
    ∃ t, exec (.timedReleaseLaunch p varTx) s = .next t ∧ t = { s with regs := t.regs, queues := t.queues, ports := t.ports } ∧
      t.queue p.val 8 = (s.queue p.val 8).map (fun f => if falls f then { f with due := true } else f) ∧
      t.port p.val = { s.port p.val with
        tx := some { x with fr := none, endAt := x.startAt + wireNs s p.val (b + 4) }, rest := some (f, x.len - b) } ∧
      cnt64 t.regs (PRT_CNT_TRQ_SLIP p.val) = (cnt64 s.regs (PRT_CNT_TRQ_SLIP p.val) + n) % 2 ^ 64 ∧
      cnt64 t.regs (PRT_CNT_PREEMPT p.val) = (cnt64 s.regs (PRT_CNT_PREEMPT p.val) + (!x.again).toNat) % 2 ^ 64) ∧
  (∀ (p : Port) (varTx : Nat) (f : QFrame) (s : State), s.fatal = false →
    let falls := fallsDue (planeNs s p.val varTx)
    let n := ((s.queue p.val 8).filter falls).length
    let g := { f with due := true }
    trqClear s p.val = true → copyDue s p.val = false → (s.queue p.val 8).find? falls = some f → isUlc s p.val = false →
    f.host = none → (egressBytes s p.val g).length ≤ 9212 → s.get (PRT_SEC_CFG_EN p.val) = 0 →
    ∃ t x, exec (.timedReleaseLaunch p varTx) s = .next t ∧
      t = { s with regs := t.regs, queues := t.queues, ports := t.ports, out := t.out } ∧
      t.out = s.out ++ [.frame p.val (egressBytes s p.val g)] ∧ (t.port p.val).tx = some x ∧ x.id = f.id ∧ x.express = true ∧
      cnt64 t.regs (PRT_CNT_TRQ_SLIP p.val) = (cnt64 s.regs (PRT_CNT_TRQ_SLIP p.val) + (n - 1)) % 2 ^ 64) ∧
  (∀ (p : Port) (varTx : Nat) (s : State),
    (s.fatal = true ∨ ∀ f ∈ s.queue p.val 8, fallsDue (planeNs s p.val varTx) f = false) →
    exec (.timedReleaseLaunch p varTx) s = .next s) ∧
  (∀ (p : Port) (s : State), s.fatal = false → s.get (PRT_MM_VSTAT p.val) = 1 → s.get (PRT_STAT_LINK p.val) = 1 →
    ∃ t, exec (.verify p true) s = .next t ∧ t = { s with regs := t.regs, ports := t.ports } ∧
      s.keepsFields t [PRT_MM_VSTAT p.val] ∧ t.get (PRT_MM_VSTAT p.val) = 2 ∧
      t.port p.val = { s.port p.val with preempt := true } ∧ ∀ q, q ≠ p.val → t.port q = s.port q) ∧
  (∀ (p : Port) (s : State), s.fatal = false → s.get (PRT_MM_VSTAT p.val) = 1 → s.get (PRT_STAT_LINK p.val) = 1 →
    (s.port p.val).verAt + 1000000 * (if s.get (PRT_MM_VTIME p.val) ∈ List.range' 1 128 then s.get (PRT_MM_VTIME p.val) else 10)
      ≤ s.now →
    ∃ t, exec (.verify p false) s = .next t ∧ t = { s with regs := t.regs, ports := t.ports } ∧
      s.keepsFields t [PRT_MM_VSTAT p.val] ∧ t.get (PRT_MM_VSTAT p.val) = (if 2 ≤ (s.port p.val).tries then 3 else 1) ∧
      (t.port p.val).tries = min 3 ((s.port p.val).tries + 1) ∧ (t.port p.val).preempt = (s.port p.val).preempt ∧
      ((s.port p.val).tries < 2 → (t.port p.val).verAt = s.now) ∧ ∀ q, q ≠ p.val → t.port q = s.port q) ∧
  (∀ (p : Port) (s : State), s.now < (s.port p.val).verAt + verifyTime s p.val → exec (.verify p false) s = .next s) ∧
  (∀ (p : Port) (ok : Bool) (s : State), s.get (PRT_MM_VSTAT p.val) ≠ 1 → exec (.verify p ok) s = .next s) ∧
  (∀ (p : Port) (c : Fin 15) (s : State), ∃ t, exec (.portCounterLowRead p c) s = .next t ∧ t = { s with ctrHi := t.ctrHi } ∧
    tget 0 t.ctrHi (p.val * 16 + c.val) = (rword s.regs (PRT_CNT_RX_FRAMES p.val + 8 * c.val + 4)).toNat ∧
    ∀ k, k ≠ p.val * 16 + c.val → tget 0 t.ctrHi k = tget 0 s.ctrHi k) ∧
  (∀ (p : Port) (pre : Bool) (c : Nat) (o : RxOpen) (s : State), s.fatal = false →
    s.arriving (rxK p.val pre) = some o → o.blocked = false → o.cut = some c → 0 < diff48 (s.tbStamp 8) c →
    (∀ o', s.arriving (rxK p.val (!pre)) = some o' → o'.blocked = true ∨ grdOver s o'.cut = false) →
    (∀ d x, tget none s.copies (copyK p.val d) = some x → grdOver s x.cut = false) →
    o.marks = [] → o.cts = [] → s.heldFrames = [] → s.countsBelow (portK p.val) 4 2 p.val →
    ∃ t, exec (.truncation p) s = .next t ∧
      t = { s with
        regs := t.regs, rxOpen := t.rxOpen, queues := t.queues, watch := t.watch, srcs := t.srcs, evAt := t.evAt,
        vecs := t.vecs, out := t.out } ∧
      t.get (PRT_GRD_CNT1_TRUNC p.val) = min (s.get (PRT_GRD_CNT1_TRUNC p.val) + 1) 65535 ∧
      cnt64 t.regs (PRT_CNT_RX_BAD p.val) = (cnt64 s.regs (PRT_CNT_RX_BAD p.val) + 1) % 2 ^ 64 ∧
      t.arriving (rxK p.val pre) = none ∧ (∀ k, k ≠ rxK p.val pre → t.arriving k = s.arriving k) ∧
      (∀ j, ∀ f ∈ tget [] t.queues j, f.id ≠ o.fr.id) ∧ t.src (portK p.val) 4 = .corr) ∧
  (∀ (p : Port) (s : State),
    (∀ pre o, s.arriving (rxK p.val pre) = some o → o.blocked = true ∨ grdOver s o.cut = false) →
    (∀ d x, tget none s.copies (copyK p.val d) = some x → grdOver s x.cut = false) →
    exec (.truncation p) s = .next s)

/-! ### Table windows and recovery timers -/

/-- R102: an access through the forwarding-table window shows its table and index; a read brings the entry's words into STR_DATA; an
accepted write stores them all, but for the bits that hardware owns, and leaves every other entry; a refused access sets ERR alone.
R226, R236, R239: the redundancy-table window: reads; writes of bindings, generators, an instance (which begins as of new: TAKE_ANY,
counters zero, PATH_OK as its ports are, R231) and a proxy node (number kept, IDLE zero), which leave every other entry; refusals. -/
def Obligations.TableAccesses : Prop :=
  (∀ (tb : Fin 16) (i : Fin 262144) (s : State), s.fatal = false → i.val < strSize tb.val →
    ∃ t, exec (.strTableRead tb i) s = .next t ∧
      s.onlyFields t ([STR_ACC_TABLE, STR_ACC_INDEX, STR_ACC_ERR, STR_ACC_BUSY] ++
        (List.range (strWords tb.val)).map STR_DATA_DATA) ∧
      t.get STR_ACC_ERR = 0 ∧ t.get STR_ACC_BUSY = 0 ∧ t.get STR_ACC_TABLE = tb.val ∧ t.get STR_ACC_INDEX = i.val ∧
      ∀ k < strWords tb.val, t.get (STR_DATA_DATA k) = s.strW tb.val i.val k) ∧
  (∀ (tb : Fin 16) (i : Fin 262144) (s : State), s.fatal = false → strSize tb.val ≤ i.val →
    ∃ t, exec (.strTableRead tb i) s = .next t ∧
      s.onlyFields t [STR_ACC_TABLE, STR_ACC_INDEX, STR_ACC_ERR, STR_ACC_BUSY] ∧ t.get STR_ACC_ERR = 1) ∧
  (∀ (tb : Fin 16) (i : Fin 262144) (s : State), s.fatal = false →
    strWriteOk tb.val i.val (fun k => s.get (STR_DATA_DATA k)) = true →
    ∃ t, exec (.strTableWrite tb i) s = .next t ∧
      t = { s with regs := t.regs, str := t.str, meters := t.meters, fdbSeen := t.fdbSeen } ∧
      s.keepsFields t [STR_ACC_TABLE, STR_ACC_INDEX, STR_ACC_ERR, STR_ACC_BUSY] ∧ t.get STR_ACC_ERR = 0 ∧
      (∀ k < strWords tb.val, (tb.val, k) ∉ [(0, 15), (1, 2), (2, 2), (3, 0)] →
        t.strW tb.val i.val k = s.get (STR_DATA_DATA k)) ∧
      (tb.val = 0 → t.strW 0 i.val 15 = 0) ∧
      (tb.val = 1 → bits (t.strW 1 i.val 2) 0 0 = 0 ∧ bits (t.strW 1 i.val 2) 31 1 = bits (s.get (STR_DATA_DATA 2)) 31 1 ∧
        ∀ k < 10, t.strW 4 i.val k = 0) ∧
      (tb.val = 2 → bits (t.strW 2 i.val 2) 3 3 = 0 ∧ bits (t.strW 2 i.val 2) 31 4 = bits (s.get (STR_DATA_DATA 2)) 31 4 ∧
        tget none t.meters i.val = some ⟨s.get (STR_DATA_DATA 2) / 256 * 8000000, s.get (STR_DATA_DATA 3) / 256 * 8000000, s.now⟩) ∧
      (tb.val = 3 → bits (t.strW 3 i.val 0) 31 31 = bits (s.strW 3 i.val 0) 31 31 ∧ bits (t.strW 3 i.val 0) 27 27 = 0 ∧
        bits (t.strW 3 i.val 0) 30 28 = bits (s.get (STR_DATA_DATA 0)) 30 28 ∧
        bits (t.strW 3 i.val 0) 26 0 = bits (s.get (STR_DATA_DATA 0)) 26 0) ∧
      (tb.val = 6 → tget 0 t.fdbSeen i.val = if bits (s.get (STR_DATA_DATA 2)) 31 31 = 1 then s.now + 1 else 0) ∧
      ∀ (b j k : Nat), b < 16 → j < 262144 → k < 16 → ¬ (j = i.val ∧ (b = tb.val ∨ (tb.val = 1 ∧ b = 4))) →
        t.strW b j k = s.strW b j k) ∧
  (∀ (tb : Fin 16) (i : Fin 262144) (s : State), s.fatal = false →
    strWriteOk tb.val i.val (fun k => s.get (STR_DATA_DATA k)) = false →
    ∃ t, exec (.strTableWrite tb i) s = .next t ∧
      s.onlyFields t [STR_ACC_TABLE, STR_ACC_INDEX, STR_ACC_ERR, STR_ACC_BUSY] ∧ t.get STR_ACC_ERR = 1) ∧
  (∀ (tb : Fin 16) (i : Fin 262144) (s : State), s.fatal = true →
    exec (.strTableRead tb i) s = .next s ∧ exec (.strTableWrite tb i) s = .next s) ∧
  (∀ (tb : Fin 16) (i : Fin 65536) (s : State), s.fatal = false → i.val < frSize tb.val →
    ∃ t, exec (.frerTableRead tb i) s = .next t ∧
      s.onlyFields t ([FRER_ACC_TABLE, FRER_ACC_INDEX, FRER_ACC_ERR, FRER_ACC_BUSY] ++
        (List.range (frWords tb.val)).map FRER_DATA_DATA) ∧
      t.get FRER_ACC_ERR = 0 ∧ ∀ k < frWords tb.val, ¬ (tb.val = 4 ∧ k = 3) →
        t.get (FRER_DATA_DATA k) = s.frW tb.val i.val k) ∧
  (∀ (tb : Fin 16) (i : Fin 65536) (s : State), s.fatal = false → frSize tb.val ≤ i.val →
    ∃ t, exec (.frerTableRead tb i) s = .next t ∧
      s.onlyFields t [FRER_ACC_TABLE, FRER_ACC_INDEX, FRER_ACC_ERR, FRER_ACC_BUSY] ∧ t.get FRER_ACC_ERR = 1) ∧
  (∀ (tb : Fin 16) (i : Fin 65536) (s : State), s.fatal = false → (tb.val = 0 ∨ tb.val = 1) →
    frWriteOk s tb.val i.val (fun k => s.get (FRER_DATA_DATA k)) = true →
    ∃ t, exec (.frerTableWrite tb i) s = .next t ∧ t = { s with regs := t.regs, frer := t.frer, given := t.given } ∧
      s.keepsFields t [FRER_ACC_TABLE, FRER_ACC_INDEX, FRER_ACC_ERR, FRER_ACC_BUSY] ∧ t.get FRER_ACC_ERR = 0 ∧
      (∀ k < frWords tb.val, t.frW tb.val i.val k = s.get (FRER_DATA_DATA k)) ∧
      ∀ j, j / 16 ≠ tb.val * 2 ^ 20 + i.val → tget (0 : Word) t.frer j = tget (0 : Word) s.frer j) ∧
  (∀ (i : Fin 65536) (s : State), s.fatal = false →
    frWriteOk s 2 i.val (fun k => s.get (FRER_DATA_DATA k)) = true → s.heldFrames = [] →
    let up := if bits (s.get (FRER_DATA_DATA 2)) 28 16 ≠ 0 then 0
      else ((List.range (bits (s.get (FRER_DATA_DATA 2)) 31 29)).map (fun k =>
        if s.get (PRT_STAT_STATE (bits (s.get (FRER_DATA_DATA 1)) (30 - 8 * k) (24 - 8 * k))) = stUp then 2 ^ k else 0)).sum
    ∃ t, exec (.frerTableWrite 2 i) s = .next t ∧
      t = { s with
        regs := t.regs, frer := t.frer, recs := t.recs, rxOpen := t.rxOpen, rings := t.rings, hostMem := t.hostMem, srcs := t.srcs,
        evAt := t.evAt, vecs := t.vecs, out := t.out } ∧
      (popCount up = popCount (instPathOk s i.val) →
        t = { s with regs := t.regs, frer := t.frer, recs := t.recs, rxOpen := t.rxOpen } ∧ t.get FRER_ACC_ERR = 0) ∧
      (popCount up < popCount (instPathOk s i.val) → s.records 0 12 → t.src 0 12 = .corr) ∧
      (∀ k < 4, t.frW 2 i.val k = s.get (FRER_DATA_DATA k)) ∧ instPathOk t i.val = up ∧
      bits (t.frW 2 i.val 4) 14 12 = popCount up ∧ bits (t.frW 2 i.val 4) 15 15 = 1 ∧
      bits (t.frW 2 i.val 4) 31 16 = 0 ∧ (∀ k < 10, t.frW 3 i.val k = 0) ∧ (t.rec_ i.val).pend = [] ∧
      (t.rec_ i.val).lastPass = s.now ∧ (∀ j, j ≠ i.val → t.rec_ j = s.rec_ j) ∧
      ∀ j, j / 16 ≠ 2 * 2 ^ 20 + i.val → j / 16 ≠ 3 * 2 ^ 20 + i.val → tget (0 : Word) t.frer j = tget (0 : Word) s.frer j) ∧
  (∀ (i : Fin 65536) (s : State), s.fatal = false →
    frWriteOk s 4 i.val (fun k => s.get (FRER_DATA_DATA k)) = true → remoteEntry (s.frW 4 i.val 1) = false →
    remoteEntry (s.get (FRER_DATA_DATA 1)) = false →
    ∃ t, exec (.frerTableWrite 4 i) s = .next t ∧ t = { s with regs := t.regs, frer := t.frer, nodeSeen := t.nodeSeen } ∧
      t.get FRER_ACC_ERR = 0 ∧ t.frW 4 i.val 0 = s.get (FRER_DATA_DATA 0) ∧ t.frW 4 i.val 1 = s.get (FRER_DATA_DATA 1) ∧
      t.frW 4 i.val 2 = s.get (FRER_DATA_DATA 2) / 65536 * 65536 ∧ t.frW 4 i.val 3 = 0 ∧
      tget 0 t.nodeSeen i.val = s.now ∧
      ∀ j, j / 16 ≠ 4 * 2 ^ 20 + i.val → tget (0 : Word) t.frer j = tget (0 : Word) s.frer j) ∧
  (∀ (tb : Fin 16) (i : Fin 65536) (s : State), s.fatal = false →
    frWriteOk s tb.val i.val (fun k => s.get (FRER_DATA_DATA k)) = false →
    ∃ t, exec (.frerTableWrite tb i) s = .next t ∧
      s.onlyFields t [FRER_ACC_TABLE, FRER_ACC_INDEX, FRER_ACC_ERR, FRER_ACC_BUSY] ∧ t.get FRER_ACC_ERR = 1)

/-- R228, R231, R232, R236: the timers of recovery instances and nodes. A silent instance takes any number and counts the reset; a
silent path loses its PATH_OK bit, HEALTH falls, and the device's PATH event is recorded; the latent-error period starts anew and its test
stands at the end of the clock (R248), where beyond its limit it counts and takes new bases; a node not refreshed for long enough is forgotten. Before their times they do nothing. -/
def Obligations.RecoveryTimers : Prop :=
  (∀ (i : Fin 16384) (s : State), s.fatal = false → instValid s i.val = true → bits (s.frW 2 i.val 0) 15 0 ≠ 0 →
    (s.rec_ i.val).wasReset = false → (s.rec_ i.val).lastPass + bits (s.frW 2 i.val 0) 15 0 * 1000000 < s.now →
    ∃ t, exec (.recoveryReset i) s = .next t ∧ t = { s with frer := t.frer, recs := t.recs } ∧ instAny t i.val = true ∧
      t.rec_ i.val = { s.rec_ i.val with wasReset := true } ∧ (∀ j, j ≠ i.val → t.rec_ j = s.rec_ j) ∧
      instSeq t i.val = instSeq s i.val ∧ t.frW 3 i.val 6 = (s.frW 3 i.val 6 + 1) % 2 ^ 32 ∧
      ∀ j, j ≠ entK 2 i.val 4 → j ≠ entK 3 i.val 6 → tget (0 : Word) t.frer j = tget (0 : Word) s.frer j) ∧
  (∀ (i : Fin 16384) (s : State),
    (instValid s i.val = false ∨ bits (s.frW 2 i.val 0) 15 0 = 0 ∨ (s.rec_ i.val).wasReset = true ∨
      s.now ≤ (s.rec_ i.val).lastPass + bits (s.frW 2 i.val 0) 15 0 * 1000000) →
    exec (.recoveryReset i) s = .next s) ∧
  (∀ (i : Fin 16384) (k : Fin 4) (s : State), s.fatal = false → instValid s i.val = true → instLossTmo s i.val ≠ 0 →
    (instPathOk s i.val).testBit k.val = true →
    (∀ b, (s.rec_ i.val).good.getD k.val none = some b → b + instLossTmo s i.val * 1000000 ≤ s.now) → s.records 0 12 →
    ∃ t, exec (.lossTmo i k) s = .next t ∧
      t = { s with
        regs := t.regs, frer := t.frer, rings := t.rings, hostMem := t.hostMem, srcs := t.srcs, evAt := t.evAt, vecs := t.vecs,
        out := t.out } ∧
      instPathOk t i.val = instPathOk s i.val - 2 ^ k.val ∧
      bits (t.frW 2 i.val 4) 14 12 = popCount (instPathOk s i.val - 2 ^ k.val) ∧ instSeq t i.val = instSeq s i.val ∧
      t.src 0 12 = .corr ∧ ∀ j, j ≠ entK 2 i.val 4 → tget (0 : Word) t.frer j = tget (0 : Word) s.frer j) ∧
  (∀ (i : Fin 16384) (k : Fin 4) (s : State),
    (instLossTmo s i.val = 0 ∨ (instPathOk s i.val).testBit k.val = false ∨
      ∃ b, (s.rec_ i.val).good.getD k.val none = some b ∧ s.now < b + instLossTmo s i.val * 1000000) →
    exec (.lossTmo i k) s = .next s) ∧
  (∀ (i : Fin 16384) (s : State), s.fatal = false → instValid s i.val = true → bits (s.frW 2 i.val 0) 28 28 = 1 →
    bits (s.frW 2 i.val 3) 31 16 ≠ 0 → (s.rec_ i.val).perAt + bits (s.frW 2 i.val 3) 31 16 * 1000000 ≤ s.now →
    ∃ t, exec (.laerrPeriod i) s = .next t ∧ t = { s with recs := t.recs, laerrs := s.laerrs ++ [i.val] } ∧
      t.rec_ i.val = { s.rec_ i.val with perAt := s.now } ∧ ∀ j, j ≠ i.val → t.rec_ j = s.rec_ j) ∧
  (∀ (i : Nat) (s : State), s.laerrs = [i] → latentDiff s i ≤ bits (s.frW 2 i 2) 15 0 →
    laerrEnd s = { s with laerrs := [] }) ∧
  (∀ (i : Fin 16384) (s : State), s.laerrs = [i.val] → instValid s i.val = true →
    (bits (s.frW 2 i.val 2) 15 0 : Int) < latentDiff s i.val → s.records 0 12 →
    let t := laerrEnd s
    t = { s with
        regs := t.regs, frer := t.frer, recs := t.recs, rings := t.rings, hostMem := t.hostMem, srcs := t.srcs, evAt := t.evAt,
        vecs := t.vecs, out := t.out, laerrs := [] } ∧
      t.rec_ i.val = { s.rec_ i.val with baseP := s.frW 3 i.val 0, baseD := s.frW 3 i.val 1, resetAt := s.now } ∧
      t.frW 3 i.val 7 = (s.frW 3 i.val 7 + 1) % 2 ^ 32 ∧ t.src 0 12 = .corr) ∧
  (∀ (i : Fin 16384) (s : State), s.fatal = false → instValid s i.val = true → bits (s.frW 2 i.val 0) 28 28 = 1 →
    (s.rec_ i.val).resetAt + bits (s.frW 2 i.val 3) 15 0 * 1000000 ≤ s.now →
    ∃ t, exec (.laerrReset i) s = .next t ∧ t = { s with recs := t.recs } ∧
      t.rec_ i.val = { s.rec_ i.val with baseP := s.frW 3 i.val 0, baseD := s.frW 3 i.val 1, resetAt := s.now } ∧
      ∀ j, j ≠ i.val → t.rec_ j = s.rec_ j) ∧
  (∀ (e : Fin 4096) (s : State), s.fatal = false → bits (s.frW 4 e.val 1) 15 15 = 1 → bits (s.frW 4 e.val 1) 13 13 = 0 →
    tget 0 s.nodeSeen e.val + 1000 * max 1 (s.get DUP_CFG_NODE_FORGET) * 1000000 ≤ s.now →
    ∃ t, exec (.nodeForget e) s = .next t ∧
      t = { s with frer := t.frer, fwdHist := t.fwdHist, nodeSeen := t.nodeSeen } ∧
      (∀ k < 4, t.frW 4 e.val k = 0) ∧
      (remoteEntry (s.frW 4 e.val 1) = true → instValid t (bits (s.frW 4 e.val 2) 13 0) = false) ∧
      (remoteEntry (s.frW 4 e.val 1) = false →
        ∀ j, j / 16 ≠ 4 * 2 ^ 20 + e.val → tget (0 : Word) t.frer j = tget (0 : Word) s.frer j)) ∧
  (∀ (e : Fin 4096) (s : State), (bits (s.frW 4 e.val 1) 15 15 = 0 ∨ bits (s.frW 4 e.val 1) 13 13 = 1 ∨
      s.now < tget 0 s.nodeSeen e.val + 1000 * max 1 (s.get DUP_CFG_NODE_FORGET) * 1000000) →
    exec (.nodeForget e) s = .next s)

/-! ### Carafes -/

/-- R187, R195, R201: a head entry launches its image as both copies, each with its DIR and the ORIGIN of its own SFD; a ring port that
is down drops its copy and counts it; one whose transmitter is busy makes it wait, as one that is not in PS0 would. Before its instant, or without an image, the launch
does nothing.
R188, R189, R201, R204: a copy whose header arrives outside its window is dropped and counted; one that is accepted, on a port without
guardian and MACsec, shows in group 10, gets the block's counts and pours, and goes on 38 ns later, when it adds its residence to LOOP;
with the egress link down it is dropped there and counted. -/
def Obligations.CarafeSends : Prop :=
  (∀ (c : Fin 64) (varA varB : Nat) (img : Bytes) (s : State), s.fatal = false → (s.car c.val).image = some img →
    s.crf.win = true →
    let pa := s.get (CRF_CAR_RING_A_OUT c.val)
    let pb := s.get (CRF_CAR_RING_B_OUT c.val)
    0 ≤ sinceWin s (s.get (CRF_CAR_LOFS_LOFS c.val)) + max (txCorr s pa varA) (txCorr s pb varB) →
    0 ≤ launchLate s c.val pa varA → 0 ≤ launchLate s c.val pb varB → pa ≠ pb →
    (∀ p ∈ [pa, pb], s.get (PRT_STAT_LINK p) = 1 ∧ (s.port p).memHalt = false ∧ s.get (PRT_SEC_CFG_EN p) = 0 ∧
      inFlight s p = none ∧ curPs s (portK p) = 0 ∧ (s.port p).jobs = []) →
    ∃ t, exec (.carafeLaunch c varA varB) s = .next t ∧
      t = { s with regs := t.regs, cars := t.cars, ports := t.ports, out := t.out } ∧ (t.car c.val).image = none ∧
      t.out = s.out ++
        [.frame pa (spliceAt (spliceAt img 20 [b8 (beField img 20 1), b8 16]) 26 (beBytes 6 (t.car c.val).origA)),
         .frame pb (spliceAt (spliceAt img 20 [b8 (beField img 20 1), b8 24]) 26 (beBytes 6 (t.car c.val).origB))] ∧
      (t.car c.val).origA = txStamp s pa (sfdOn s pa varA) s.tickTb 0 ∧
      (t.car c.val).origB = txStamp s pb (sfdOn s pb varB) s.tickTb 0 ∧
      (∀ p ∈ [pa, pb], cnt64 t.regs (PRT_CNT_TX_FRAMES p) = (cnt64 s.regs (PRT_CNT_TX_FRAMES p) + 1) % 2 ^ 64) ∧
      ∀ d, d ≠ c.val → t.car d = s.car d) ∧
  (∀ (c : Fin 64) (varA varB : Nat) (img : Bytes) (s : State), s.fatal = false → (s.car c.val).image = some img →
    s.crf.win = true →
    let pa := s.get (CRF_CAR_RING_A_OUT c.val)
    let pb := s.get (CRF_CAR_RING_B_OUT c.val)
    0 ≤ sinceWin s (s.get (CRF_CAR_LOFS_LOFS c.val)) + max (txCorr s pa varA) (txCorr s pb varB) →
    0 ≤ launchLate s c.val pa varA → 0 ≤ launchLate s c.val pb varB →
    (∀ p ∈ [pa, pb], s.get (PRT_STAT_LINK p) = 0 ∧ inFlight s p = none ∧ (s.port p).jobs = []) →
    ∃ t, exec (.carafeLaunch c varA varB) s = .next t ∧ t = { s with regs := t.regs, cars := t.cars, ports := t.ports } ∧
      s.keepsFields t [CRF_CAR_CNT1_DROP_LINK c.val] ∧
      t.get (CRF_CAR_CNT1_DROP_LINK c.val) = min (s.get (CRF_CAR_CNT1_DROP_LINK c.val) + 2) 65535 ∧
      t.car c.val = { s.car c.val with image := none } ∧ ∀ p, t.port p = s.port p) ∧
  (∀ (c : Fin 64) (varA varB : Nat) (img : Bytes) (xa xb : TxSt) (s : State), s.fatal = false →
    (s.car c.val).image = some img → s.crf.win = true →
    let pa := s.get (CRF_CAR_RING_A_OUT c.val)
    let pb := s.get (CRF_CAR_RING_B_OUT c.val)
    0 ≤ sinceWin s (s.get (CRF_CAR_LOFS_LOFS c.val)) + max (txCorr s pa varA) (txCorr s pb varB) → pa ≠ pb →
    inFlight s pa = some xa → yields s pa xa = false → inFlight s pb = some xb → yields s pb xb = false →
    (s.port pa).jobs = [] → (s.port pb).jobs = [] → curPs s (portK pa) = 0 → curPs s (portK pb) = 0 →
    ∃ t, exec (.carafeLaunch c varA varB) s = .next t ∧ t = { s with cars := t.cars, ports := t.ports } ∧
      t.car c.val = { s.car c.val with image := none } ∧
      t.port pa = { s.port pa with jobs := [⟨.head c.val false img, s.now + launchIn s c.val pa varA, varA⟩] } ∧
      t.port pb = { s.port pb with jobs := [⟨.head c.val true img, s.now + launchIn s c.val pb varB, varB⟩] }) ∧
  (∀ (c : Fin 64) (varA varB : Nat) (s : State), ((s.car c.val).image = none ∨ s.crf.win = false ∨
      sinceWin s (s.get (CRF_CAR_LOFS_LOFS c.val)) +
        max (txCorr s (s.get (CRF_CAR_RING_A_OUT c.val)) varA) (txCorr s (s.get (CRF_CAR_RING_B_OUT c.val)) varB) < 0) →
    exec (.carafeLaunch c varA varB) s = .next s) ∧
  (∀ (p : Port) (h : RxHdr) (varTx c : Nat) (dirB : Bool) (s : State), macUp s p.val = true → dueParts s = s →
    copyOf s p.val h.bytes = some (c, dirB) → s.get (PRT_GRD_CTL_EN p.val) = 0 → s.get (PRT_SEC_CFG_EN p.val) = 0 →
    (s.crf.win = false ∨ s.crf.tick ≠ beField h.bytes 16 4) →
    ∃ t x, exec (.copyReceive p h varTx) s = .next t ∧ t = { s with regs := t.regs, copies := t.copies, ids := s.ids + 1 } ∧
      s.keepsFields t [CRF_CAR_CNT0_DROP_TICK c, PRT_TS_VAR_VAR_RX p.val] ∧
      t.get (CRF_CAR_CNT0_DROP_TICK c) = min (s.get (CRF_CAR_CNT0_DROP_TICK c) + 1) 65535 ∧
      tget none t.copies (copyK p.val dirB) = some x ∧ x.fate = .dropped ∧ x.car = c) ∧
  (∀ (p : Port) (h : RxHdr) (varTx c : Nat) (dirB : Bool) (s : State), macUp s p.val = true → dueParts s = s →
    copyOf s p.val h.bytes = some (c, dirB) → s.get (CRF_CAR_CFG_HEAD c) = 0 → s.get (PRT_GRD_CTL_EN p.val) = 0 →
    s.get (PRT_SEC_CFG_EN p.val) = 0 →
    s.crf.win = true → s.crf.tick = beField h.bytes 16 4 → copyChecks s c dirB h.bytes = true →
    let o := s.get (if dirB then CRF_CAR_RING_B_OUT c else CRF_CAR_RING_A_OUT c)
    s.get (PRT_SEC_CFG_EN o) = 0 → inFlight s o = none → (s.port o).jobs = [] →
    freshLink s p.val = false → freshLink s o = false →
    ∃ t x, exec (.copyReceive p h varTx) s = .next t ∧
      t = { s with regs := t.regs, ports := t.ports, copies := t.copies, ids := s.ids + 1 } ∧
      tget none t.copies (copyK p.val dirB) = some x ∧ x.id = s.ids ∧ x.car = c ∧ x.fate = .taken ∧ x.sent = true ∧
      x.loop = none ∧ x.mism = false ∧ x.uif = copyUif h.bytes ∧ x.tick = s.crf.tick ∧ x.bytes = fillBlock s c h.bytes ∧
      t.port o = { s.port o with
        jobs := [⟨.copy s.ids c dirB h.len (fillBlock s c h.bytes) (rxStamp s p.val h.varRx s.tickTb) true none, s.now + 38,
          varTx⟩] } ∧
      t.get (PRT_TS_VAR_VAR_RX p.val) = h.varRx % 65536 ∧ ∀ st ∈ stationsOf s c, t.get (CRF_ST_STAT_ARRIVED st) = 1) ∧
  (∀ (p : Port) (h : RxHdr) (varTx c : Nat) (dirB : Bool) (s : State), macUp s p.val = true → dueParts s = s →
    copyOf s p.val h.bytes = some (c, dirB) → s.get (CRF_CAR_CFG_HEAD c) = 1 → s.get (PRT_GRD_CTL_EN p.val) = 0 →
    s.get (PRT_SEC_CFG_EN p.val) = 0 →
    s.crf.win = true → s.crf.tick = beField h.bytes 16 4 → copyChecks s c dirB h.bytes = true →
    ∃ t x, exec (.copyReceive p h varTx) s = .next t ∧ t = { s with regs := t.regs, copies := t.copies, ids := s.ids + 1 } ∧
      tget none t.copies (copyK p.val dirB) = some x ∧ x.fate = .taken ∧ x.mism = false ∧ x.sent = false ∧ x.bytes = h.bytes ∧
      ∀ st ∈ stationsOf s c, t.get (CRF_ST_STAT_ARRIVED st) = 1) ∧
  (∀ (p c id len rx r var k : Nat) (dirB : Bool) (b : Bytes) (x : CopySt) (s : State), canSend s p = true →
    inFlight s p = none → curPs s (portK p) = 0 → s.get (PRT_SEC_CFG_EN p) = 0 →
    (s.port p).jobs = [⟨.copy id c dirB len b rx true none, r, var⟩] → r ≤ s.now → freshLink s p = false →
    freshLink s (s.get (if dirB then CRF_CAR_RING_B_IN c else CRF_CAR_RING_A_IN c)) = false →
    tget none s.copies k = some x → x.id = id →
    let t := runJobs s p
    tget none t.copies k = some { x with
      loop := some ((beField b 32 6 + (txStamp s p var s.tickTb 0 + 2 ^ 48 - rx)) % 2 ^ 48), sa := none } ∧
      t = { s with regs := t.regs, ports := t.ports, copies := t.copies } ∧ (t.port p).jobs = [] ∧
      cnt64 t.regs (PRT_CNT_TX_FRAMES p) = (cnt64 s.regs (PRT_CNT_TX_FRAMES p) + 1) % 2 ^ 64 ∧
      t.get (CRF_CAR_CNT1_SLIP c) = min (s.get (CRF_CAR_CNT1_SLIP c) + (decide (r < s.now)).toNat) 65535) ∧
  (∀ (p c id len rx r var k : Nat) (dirB : Bool) (b : Bytes) (x : CopySt) (s : State), s.get (PRT_STAT_LINK p) = 0 →
    inFlight s p = none → (s.port p).jobs = [⟨.copy id c dirB len b rx true none, r, var⟩] → r ≤ s.now →
    tget none s.copies k = some x → x.id = id →
    let t := runJobs s p
    tget none t.copies k = some { x with sent := false } ∧ t = { s with regs := t.regs, ports := t.ports, copies := t.copies } ∧
      t.port p = { s.port p with jobs := [] } ∧
      t.get (CRF_CAR_CNT1_DROP_LINK c) = min (s.get (CRF_CAR_CNT1_DROP_LINK c) + 1) 65535) ∧
  (∀ (p : Port) (h : RxHdr) (varTx : Nat) (s : State), copyOf s p.val h.bytes = none →
    exec (.copyReceive p h varTx) s = .next s)

/-- R182, R193, R198, R199: a copy's end. A pass-through device sends it on as it is, or with UIF set where its own link failed it; at a
station of the window's tick a valid copy counts for its direction and settles the ranges fresh in it with AGE 0, a failed one shows
integrity fail and counts, and one after the sip cut counts as late; a copy dropped at its header only counts at its port, and one that
a guardian blocked counts nowhere.
R188, R193, R196, R197, R202: at the head a return whose header came outside the window is dropped and counted; the first valid return, on a port without
MACsec, becomes the merge image; one whose header came in its window and whose end comes behind it counts as late; GIVEUP settles what
waits from the first valid copy; a return still missing at the deadline is lost. -/
def Obligations.CarafeCopiesEnd : Prop :=
  (∀ (p : Port) (dirB : Bool) (e : RxEnd) (rxLen : Nat) (x : CopySt) (s : State), s.fatal = false →
    tget none s.copies (copyK p.val dirB) = some x → x.fate = .dropped → s.get (CRF_CAR_CFG_HEAD x.car) = 0 →
    s.get (PRT_STAT_LINK p.val) = 1 → (s.port p.val).memHalt = false → s.get (PRT_SEC_CFG_EN p.val) = 0 → e.fcs = true →
    ∃ t, exec (.copyVerify p dirB e rxLen) s = .next t ∧ t = { s with regs := t.regs, copies := t.copies } ∧
      tget none t.copies (copyK p.val dirB) = none ∧
      cnt64 t.regs (PRT_CNT_RX_FRAMES p.val) = (cnt64 s.regs (PRT_CNT_RX_FRAMES p.val) + 1) % 2 ^ 64 ∧
      cnt64 t.regs (PRT_CNT_RX_BYTES p.val) = (cnt64 s.regs (PRT_CNT_RX_BYTES p.val) + rxLen) % 2 ^ 64) ∧
  (∀ (p : Port) (dirB : Bool) (e : RxEnd) (rxLen : Nat) (x : CopySt) (s : State), s.fatal = false →
    tget none s.copies (copyK p.val dirB) = some x → s.get (CRF_CAR_CFG_HEAD x.car) = 0 →
    (x.fate = .cut ∨ (x.fate = .blocked ∧ e.fcs = true ∧ s.get (PRT_STAT_LINK p.val) = 1 ∧ (s.port p.val).memHalt = false)) →
    exec (.copyVerify p dirB e rxLen) s = .next { s with copies := tset none s.copies (copyK p.val dirB) none }) ∧
  (∀ (p : Port) (dirB : Bool) (e : RxEnd) (rxLen : Nat) (s : State), tget none s.copies (copyK p.val dirB) = none →
    exec (.copyVerify p dirB e rxLen) s = .next s) ∧
  (∀ (p : Port) (dirB : Bool) (e : RxEnd) (rxLen l : Nat) (x : CopySt) (s : State), s.fatal = false →
    tget none s.copies (copyK p.val dirB) = some x → x.fate = .taken → s.get (CRF_CAR_CFG_HEAD x.car) = 0 → x.sec = none →
    x.uif = false → x.mism = false → x.sent = true → x.loop = some l → x.broken = false → x.sa = none →
    rxLen = carLen s x.car → stationsOf s x.car = [] → cutDue s = false → s.get (PRT_STAT_LINK p.val) = 1 → (s.port p.val).memHalt = false →
    let o := s.get (if dirB then CRF_CAR_RING_B_OUT x.car else CRF_CAR_RING_A_OUT x.car)
    ∃ t, exec (.copyVerify p dirB e rxLen) s = .next t ∧ t = { s with regs := t.regs, copies := t.copies, out := t.out } ∧
      tget none t.copies (copyK p.val dirB) = none ∧
      t.out = s.out ++ [.frame o (spliceAt (if e.fcs then x.bytes else
        spliceAt x.bytes (x.bytes.length - 4) [b8 (128 + beField x.bytes (x.bytes.length - 4) 1 % 128)]) 32 (beBytes 6 l))]) ∧
  (∀ (p : Port) (dirB : Bool) (e : RxEnd) (rxLen : Nat) (x : CopySt) (s : State), s.fatal = false →
    tget none s.copies (copyK p.val dirB) = some x → x.fate = .taken → s.get (CRF_CAR_CFG_HEAD x.car) = 0 → x.sec = none →
    x.uif = false → x.mism = false → e.fcs = true → s.get (PRT_STAT_LINK p.val) = 1 → (s.port p.val).memHalt = false →
    rxLen = carLen s x.car → s.crf.win = true → s.crf.tick = x.tick → s.crf.cut = false → cutDue s = false →
    (∀ st ∈ stationsOf s x.car, giveupDue s st = false) →
    ∃ t, exec (.copyVerify p dirB e rxLen) s = .next t ∧
      ∀ st ∈ stationsOf s x.car, (if dirB then (t.stn st).bOk else (t.stn st).aOk) = true ∧
        ∀ k ∈ rangesOf s st, (s.stn st).age.length = 4 → freshIn s x.car st k dirB = true →
          (s.stn st).age.getD k none = none → (t.stn st).age.getD k none = some 0) ∧
  (∀ (p : Port) (dirB : Bool) (e : RxEnd) (rxLen : Nat) (x : CopySt) (s : State), s.fatal = false →
    tget none s.copies (copyK p.val dirB) = some x → x.fate = .taken → s.get (CRF_CAR_CFG_HEAD x.car) = 0 → x.sec = none →
    e.fcs = false → s.crf.win = true → s.crf.tick = x.tick → s.crf.cut = false → cutDue s = false →
    (∀ st ∈ stationsOf s x.car, giveupDue s st = false) →
    ∃ t, exec (.copyVerify p dirB e rxLen) s = .next t ∧
      t = { s with
        regs := t.regs, copies := t.copies, ports := t.ports, out := t.out, stns := t.stns, srcs := t.srcs, evAt := t.evAt,
        vecs := t.vecs } ∧
      ∀ st ∈ stationsOf s x.car, t.stn st = { s.stn st with bad := true } ∧ t.get (CRF_ST_STAT_INTEG st) = 1 ∧
        t.get (CRF_ST_CNT0_FAIL st) = min (s.get (CRF_ST_CNT0_FAIL st) + 1) 65535) ∧
  (∀ (p : Port) (dirB : Bool) (e : RxEnd) (rxLen : Nat) (x : CopySt) (s : State), s.fatal = false →
    tget none s.copies (copyK p.val dirB) = some x → x.fate = .taken → s.get (CRF_CAR_CFG_HEAD x.car) = 0 → x.sec = none →
    x.uif = false → x.mism = false → e.fcs = true → s.get (PRT_STAT_LINK p.val) = 1 → (s.port p.val).memHalt = false →
    rxLen = carLen s x.car → s.crf.cut = true →
    ∃ t, exec (.copyVerify p dirB e rxLen) s = .next t ∧
      t = { s with regs := t.regs, copies := t.copies, ports := t.ports, out := t.out } ∧
      ∀ st ∈ stationsOf s x.car, t.get (CRF_ST_CNT1_LATE st) = min (s.get (CRF_ST_CNT1_LATE st) + 1) 65535) ∧
  (∀ (p : Port) (h : RxHdr) (e : RxEnd) (c : Nat) (dirB : Bool) (s : State), macUp s p.val = true → dueParts s = s →
    copyOf s p.val h.bytes = some (c, dirB) → s.get (CRF_CAR_CFG_HEAD c) = 1 → tget none s.copies (copyK p.val dirB) = none →
    s.get (PRT_GRD_CTL_EN p.val) = 0 → s.get (PRT_SEC_CFG_EN p.val) = 0 →
    (∀ w, windowAt s (h.len * 8 * 65536 / max 1 (portSpeed s p.val)) = some w → w.1 ≠ beField h.bytes 16 4) →
    ∃ t, exec (.carafeReturn p h e) s = .next t ∧ t = { s with regs := t.regs, copies := t.copies, ids := s.ids + 1 } ∧
      (∀ k, tget none t.copies k = tget none s.copies k) ∧
      t.get (CRF_CAR_CNT0_DROP_TICK c) = min (s.get (CRF_CAR_CNT0_DROP_TICK c) + 1) 65535) ∧
  (∀ (p : Port) (h : RxHdr) (e : RxEnd) (c : Nat) (dirB : Bool) (s : State), macUp s p.val = true → dueParts s = s →
    copyOf s p.val h.bytes = some (c, dirB) → s.get (CRF_CAR_CFG_HEAD c) = 1 → tget none s.copies (copyK p.val dirB) = none →
    s.get (PRT_GRD_CTL_EN p.val) = 0 → s.get (PRT_SEC_CFG_EN p.val) = 0 →
    s.crf.win = true → s.crf.cut = false → cutDue s = false → (∀ st ∈ stationsOf s c, giveupDue s st = false) →
    windowAt s (h.len * 8 * 65536 / max 1 (portSpeed s p.val)) = some (s.crf.tick, true) →
    s.crf.tick = beField h.bytes 16 4 → copyChecks s c dirB h.bytes = true →
    e.fcs = true → copyUif h.bytes = false → h.len = carLen s c → sinceWin s (s.get (CRF_CAR_RDL_RDL c)) ≤ 0 →
    (s.car c).retA = none → (s.car c).retB = none → (s.car c).first = none →
    let area := (h.bytes.drop (carData s c)).take (s.get (CRF_CAR_CFG_DLEN c))
    ∃ t, exec (.carafeReturn p h e) s = .next t ∧ (t.car c).first = some dirB ∧ (t.car c).area = area ∧
      (if dirB then (t.car c).retB else (t.car c).retA).isSome = true ∧ (t.car c).wkc.isSome =
        ((s.car c).wkc.isSome || (wkcFault s c h.bytes).isSome) ∧
      (∀ i (hi : i < area.length), t.mem.get (mergeA c + i) = area[i]) ∧
      (∀ st ∈ stationsOf s c, t.get (CRF_ST_STAT_ARRIVED st) = 1) ∧ ∀ d, d ≠ c → t.car d = s.car d) ∧
  (∀ (p : Port) (h : RxHdr) (e : RxEnd) (c : Nat) (dirB : Bool) (x : CopySt) (s : State), s.fatal = false →
    copyOf s p.val h.bytes = some (c, dirB) → s.get (CRF_CAR_CFG_HEAD c) = 1 → tget none s.copies (copyK p.val dirB) = some x →
    x.car = c → x.fate = .taken → x.sec = none → x.uif = false → x.mism = false → e.fcs = true →
    s.get (PRT_STAT_LINK p.val) = 1 → (s.port p.val).memHalt = false → h.len = carLen s c → inWindow s x = true → cutDue s = false →
    (∀ st ∈ stationsOf s c, giveupDue s st = false) → sinceWin s (s.get (CRF_CAR_RDL_RDL c)) ≤ 0 →
    (s.car c).retA = none → (s.car c).retB = none → (s.car c).first = none →
    let area := (h.bytes.drop (carData s c)).take (s.get (CRF_CAR_CFG_DLEN c))
    ∃ t, exec (.carafeReturn p h e) s = .next t ∧ (t.car c).first = some dirB ∧ (t.car c).area = area ∧
      (if dirB then (t.car c).retB else (t.car c).retA) = some (x.rx, beField h.bytes 32 6) ∧
      (∀ i (hi : i < area.length), t.mem.get (mergeA c + i) = area[i]) ∧ ∀ d, d ≠ c → t.car d = s.car d) ∧
  (∀ (p : Port) (h : RxHdr) (e : RxEnd) (c : Nat) (dirB : Bool) (x : CopySt) (s : State), s.fatal = false →
    copyOf s p.val h.bytes = some (c, dirB) → s.get (CRF_CAR_CFG_HEAD c) = 1 → tget none s.copies (copyK p.val dirB) = some x →
    x.car = c → x.fate = .taken → x.sec = none → x.uif = false → x.mism = false → e.fcs = true →
    s.get (PRT_STAT_LINK p.val) = 1 → (s.port p.val).memHalt = false → h.len = carLen s c → inWindow s x = false → cutDue s = false →
    (∀ st ∈ stationsOf s c, giveupDue s st = false) →
    ∃ t, exec (.carafeReturn p h e) s = .next t ∧ t = { s with regs := t.regs, copies := t.copies } ∧
      ∀ st ∈ stationsOf s c, t.get (CRF_ST_CNT1_LATE st) = min (s.get (CRF_ST_CNT1_LATE st) + 1) 65535) ∧
  (∀ (st : Fin 64) (data : Bytes) (reuse : Bool) (s : State), s.fatal = false → inRing s st.val = true → s.crf.win = true →
    s.crf.cut = false → s.get (CRF_ST_GIVEUP_GIVEUP st.val) ≠ 0 → (s.stn st.val).gpass = false →
    0 ≤ sinceWin s (s.get (CRF_ST_GIVEUP_GIVEUP st.val)) → (s.stn st.val).first = some (data, reuse) →
    (s.stn st.val).age.length = 4 → rangesOf s st.val ≠ [] →
    ∃ t, exec (.giveup st) s = .next t ∧ (t.stn st.val).gpass = true ∧ t.get (CRF_ST_STAT_READY st.val) = 1 ∧
      (∀ k ∈ rangesOf s st.val, (t.stn st.val).age.getD k none =
        if ((s.stn st.val).age.getD k none).isSome then (s.stn st.val).age.getD k none
        else some (if reuse then 2 else 1)) ∧
      ∀ j, j ≠ st.val → t.stn j = s.stn j) ∧
  (∀ (st : Fin 64) (s : State), s.fatal = false → inRing s st.val = true → s.crf.win = true →
    s.crf.cut = false → s.get (CRF_ST_GIVEUP_GIVEUP st.val) ≠ 0 → (s.stn st.val).gpass = false →
    0 ≤ sinceWin s (s.get (CRF_ST_GIVEUP_GIVEUP st.val)) → (s.stn st.val).first = none →
    ∃ t, exec (.giveup st) s = .next t ∧ t = { s with stns := t.stns } ∧
      t.stn st.val = { s.stn st.val with gpass := true } ∧ ∀ j, j ≠ st.val → t.stn j = s.stn j) ∧
  (∀ (st : Fin 64) (s : State), s.get (CRF_ST_GIVEUP_GIVEUP st.val) = 0 → exec (.giveup st) s = .next s) ∧
  (∀ (c : Fin 64) (s : State), s.fatal = false → s.crf.win = true → s.crf.cut = false → s.get (CRF_CAR_CFG_EN c.val) = 1 →
    s.get (CRF_CAR_CFG_HEAD c.val) = 1 → 0 ≤ sinceWin s (s.get (CRF_CAR_RDL_RDL c.val)) →
    ∃ t, exec (.returnDeadline c) s = .next t ∧
      t = { s with regs := t.regs, cars := t.cars, srcs := t.srcs, evAt := t.evAt, vecs := t.vecs, out := t.out } ∧
      t.car c.val = { s.car c.val with
        lostA := (s.car c.val).lostA || (s.car c.val).retA.isNone, lostB := (s.car c.val).lostB || (s.car c.val).retB.isNone } ∧
      (s.records 0 11 → t.car c.val ≠ s.car c.val → t.src 0 11 = .corr) ∧ ∀ d, d ≠ c.val → t.car d = s.car d) ∧
  (∀ (c : Fin 64) (s : State), s.get (CRF_CAR_CFG_HEAD c.val) = 0 → exec (.returnDeadline c) s = .next s)

/-- R187, R193, R196, R204, R505: at the sip cut every range still unsettled takes AGE 3 and every station of the device's rings is
sip-ready, and each head publishes which of its returns came. A station served by another member sends its pour data, and takes what
comes for it. -/
def Obligations.SipCutAndRemoteStations : Prop :=
  (∀ s : State, s.fatal = false → s.tick.run = true → 0 ≤ diff48 (s.tbStamp s.tickTb) (s.tick.next + 2 ^ 48 - 6553600) →
    s.crf.win = true → s.crf.cut = false → s.crf.start ≠ s.tick.next →
    ∃ t, exec .sipCut s = .next t ∧ t.crf = { s.crf with cut := true } ∧
      (∀ st < 64, inRing s st = true → t.get (CRF_ST_STAT_READY st) = 1 ∧
        ∀ k ∈ rangesOf s st, (s.stn st).age.length = 4 →
          (t.stn st).age.getD k none =
            if ((s.stn st).age.getD k none).isSome then (s.stn st).age.getD k none else some 3) ∧
      (∀ c < 64, s.get (CRF_CAR_CFG_EN c) = 1 → s.get (CRF_CAR_CFG_HEAD c) = 1 →
        t.get (CRF_HD_STAT_VALID_A c) = (s.car c).retA.isSome.toNat ∧
        t.get (CRF_HD_STAT_VALID_B c) = (s.car c).retB.isSome.toNat ∧
        t.get (CRF_HD_STAT_DIVERGE c) = (s.car c).div.toNat ∧ t.get (CRF_HD_STAT_TICK c) = s.crf.tick % 65536 ∧
        (t.car c).prev = ((s.car c).retA.isSome || (s.car c).retB.isSome)) ∧
      t.queues = s.queues ∧ t.str = s.str) ∧
  (∀ s : State, (s.tick.run = false ∨ diff48 (s.tbStamp s.tickTb) (s.tick.next + 2 ^ 48 - 6553600) < 0) →
    exec .sipCut s = .next s) ∧
  (∀ (st : Fin 64) (s : State), s.fatal = false → s.get CRF_CTL_RUN = 1 → s.get (CRF_ST_CFG_EN st.val) = 1 →
    servesRemote s st.val = true → 0 ≤ diff48 (s.tbStamp s.tickTb) (s.tick.next + 2 ^ 48 - 65536 * 2030) →
    s.get (CRF_ST_CFG_HOSTB st.val) = 0 → (s.stn st.val).rtick ≠ s.tick.idx + 1 →
    let sp := s.sp (s.get (CRF_ST_CFG_SP st.val))
    ∃ t, exec (.remotePourLatch st) s = .next t ∧ t = { s with regs := t.regs, out := t.out, stns := t.stns } ∧
      t.stn st.val = { s.stn st.val with rtick := s.tick.idx + 1 } ∧ (∀ j, j ≠ st.val → t.stn j = s.stn j) ∧
      s.keepsFields t [CRF_ST_STAT_STALE st.val, CRF_ST_STAT_POUR_OPEN st.val] ∧
      t.get (CRF_ST_STAT_STALE st.val) = s.get (CRF_ST_STAT_POUR_OPEN st.val) ∧ t.get (CRF_ST_STAT_POUR_OPEN st.val) = 1 ∧
      t.out = s.out ++ [.ulicon 128 3 ([st.val, s.get (CRF_ST_STAT_POUR_OPEN st.val) +
        2 * (sp.cut || decide (sp.run = .mck) || decide (sp.run = .reload)).toNat] ++
        (s.bytes (pourA st.val) 1024).map (·.toNat))]) ∧
  (∀ (st : Fin 64) (age : Fin 4) (data : Bytes) (s : State), s.fatal = false → s.get (CRF_ST_CFG_EN st.val) = 1 →
    s.get (CRF_ST_REMOTE_EN st.val) = 1 → servesRemote s st.val = false →
    ∃ t, exec (.remoteStationData st none age data) s = .next t ∧
      t = { s with regs := t.regs, mem := t.mem, stns := t.stns } ∧ s.keepsFields t [CRF_ST_STAT_POUR_OPEN st.val] ∧
      t.get (CRF_ST_STAT_POUR_OPEN st.val) = 0 ∧ t.stn st.val = { s.stn st.val with rflags := age.val } ∧
      (∀ i (hi : i < data.length), i < 1024 → t.mem.get (pourA st.val + i) = data[i]) ∧
      ∀ a, a < pourA st.val ∨ pourA st.val + 1024 ≤ a → t.mem.get a = s.mem.get a) ∧
  (∀ (st : Fin 64) (k age : Fin 4) (data : Bytes) (s : State), s.fatal = false → s.get (CRF_ST_CFG_EN st.val) = 1 →
    s.get (CRF_ST_REMOTE_EN st.val) = 1 → servesRemote s st.val = true → s.crf.win = true → s.crf.cut = false →
    beField data 2 1 % 2 = 0 →
    ∃ t, exec (.remoteStationData st (some k) age data) s = .next t ∧
      t = { s with regs := t.regs, mem := t.mem, stns := t.stns } ∧ s.keepsFields t [CRF_ST_STAT_ARRIVED st.val] ∧
      t.get (CRF_ST_STAT_ARRIVED st.val) = 1 ∧
      t.stn st.val = { s.stn st.val with
        age := (s.stn st.val).age.set k.val (some age.val), known := (t.stn st.val).known, olds := (t.stn st.val).olds } ∧
      k.val ∈ (t.stn st.val).known ∧
      ∀ a, a < sipA st.val ∨ sipA st.val + 2048 ≤ a → t.mem.get a = s.mem.get a)

/-! ### Cold start -/

/-- R256 to R259, R271: what the state sequence does with a cold-start frame that its port takes (no guardian, no MACsec) and that is not
relayed (HOPS at most 1): off, it only counts; in Listen a SYNC frame begins Integrate; in Coldstart a frame within SLOT of an own one
collides; in Integrate a consistent second frame joins: Sync is entered, and the step to the sender's time waits for the end of the base clock.
R256 to R258, R268, R271: the timers of the cold-start sequence, what a node sends, and RESTART. -/
def Obligations.ColdStart : Prop :=
  (∀ (n : TbIx) (p : Port) (h : RxHdr) (varTx : TxSfds) (s : State), macUp s p.val = true → csOf s p.val h.bytes = some n.val →
    s.get (PRT_GRD_CTL_EN p.val) = 0 → s.get (PRT_SEC_CFG_EN p.val) = 0 → beField h.bytes 17 1 ≤ 1 → csState s n.val = 0 →
    ∃ t, exec (.coldStartFrame n p h varTx) s = .next t ∧ t = { s with regs := t.regs, pwr := t.pwr } ∧
      cnt64 t.regs (PRT_CNT_RX_FRAMES p.val) = (cnt64 s.regs (PRT_CNT_RX_FRAMES p.val) + 1) % 2 ^ 64 ∧
      cnt64 t.regs (PRT_CNT_RX_BYTES p.val) = (cnt64 s.regs (PRT_CNT_RX_BYTES p.val) + h.len) % 2 ^ 64) ∧
  (∀ (n : TbIx) (p : Port) (h : RxHdr) (varTx : TxSfds) (s : State), macUp s p.val = true → csOf s p.val h.bytes = some n.val →
    s.get (PRT_GRD_CTL_EN p.val) = 0 → s.get (PRT_SEC_CFG_EN p.val) = 0 → beField h.bytes 17 1 ≤ 1 → csState s n.val = 1 →
    beField h.bytes 16 1 ≠ s.get (SYN_CS_CTL_ID n.val) → beField h.bytes 14 1 % 2 = 1 → csWas s n.val = none →
    ∃ t f, exec (.coldStartFrame n p h varTx) s = .next t ∧ t = { s with regs := t.regs, pwr := t.pwr, csts := t.csts } ∧ csState t n.val = 4 ∧
      (t.cst n.val).first = some f ∧ f.sender = beField h.bytes 16 1 ∧ f.sync = 1 ∧ f.seq = beField h.bytes 18 2 ∧
      f.time = (beField h.bytes 20 6 + beField h.bytes 26 6 + 65536 * s.get (PRT_CS_DLY_DLY p.val)) % 2 ^ 48 ∧
      (t.cst n.val).timer = s.now + csPeriod s n.val + s.get (SYN_CS_PER_TOL n.val)) ∧
  (∀ (n : TbIx) (p : Port) (h : RxHdr) (varTx : TxSfds) (t0 : Nat) (s : State), macUp s p.val = true →
    csOf s p.val h.bytes = some n.val → s.get (PRT_GRD_CTL_EN p.val) = 0 → s.get (PRT_SEC_CFG_EN p.val) = 0 →
    beField h.bytes 17 1 ≤ 1 → csState s n.val = 2 → beField h.bytes 16 1 ≠ s.get (SYN_CS_CTL_ID n.val) →
    beField h.bytes 14 1 % 2 = 0 → (s.cst n.val).lastSend = some t0 → s.now - t0 < csSlot s n.val → csWas s n.val = none →
    ∃ t, exec (.coldStartFrame n p h varTx) s = .next t ∧ t = { s with regs := t.regs, pwr := t.pwr, csts := t.csts } ∧ csState t n.val = 3 ∧
      t.get (SYN_CS_CNT_COLL n.val) = min (s.get (SYN_CS_CNT_COLL n.val) + 1) 65535 ∧
      (t.cst n.val).lastRx = (beField h.bytes 16 1, s.now) :: (s.cst n.val).lastRx.filter
        (fun x => x.1 != beField h.bytes 16 1 && decide (s.now - x.2 < csSlot s n.val)) ∧
      (t.cst n.val).timer = t0 + 1000 * (s.get (SYN_CS_SLOT_BACKOFF n.val) +
        s.get (SYN_CS_CTL_ID n.val) * s.get (SYN_CS_SLOT_SLOT n.val))) ∧
  (∀ (n : TbIx) (p : Port) (h : RxHdr) (varTx : TxSfds) (a : CsFirst) (s : State), macUp s p.val = true →
    csOf s p.val h.bytes = some n.val → s.get (PRT_GRD_CTL_EN p.val) = 0 → s.get (PRT_SEC_CFG_EN p.val) = 0 →
    beField h.bytes 17 1 ≤ 1 → csState s n.val = 4 → beField h.bytes 16 1 ≠ s.get (SYN_CS_CTL_ID n.val) →
    beField h.bytes 14 1 % 2 = 1 → (s.cst n.val).first = some a →
    (∀ x, (s.cst n.val).lastAny = some x → x.2 ≠ s.now) →
    let var := sfdOn s p.val h.varRx
    let time := (beField h.bytes 20 6 + beField h.bytes 26 6 + 65536 * s.get (PRT_CS_DLY_DLY p.val)) % 2 ^ 48
    let f : CsFirst := ⟨beField h.bytes 16 1, 1, beField h.bytes 18 2, time, rxStamp s p.val var 8⟩
    csConsistent s n.val a f = true →
    ∃ t, exec (.coldStartFrame n p h varTx) s = .next t ∧
      t = { s with regs := t.regs, pwr := t.pwr, csts := t.csts, steps := t.steps } ∧ csState t n.val = 5 ∧
      t.get (SYN_CS_STAT_FROM n.val) = beField h.bytes 16 1 ∧ (t.cst n.val).first = none ∧
      (t.cst n.val).timer = s.now + csPeriod s n.val ∧
      t.get (SYN_CS_CNT_INTEG n.val) = min (s.get (SYN_CS_CNT_INTEG n.val) + 1) 65535 ∧
      t.steps = s.steps ++ [StepDue.mk n.val (diff48 time (rxStamp s p.val var n.val)) none
        (if n.val = s.tickTb ∧ s.tick.run = true then
          some ((beField h.bytes 20 6 + 2 ^ 48 - 65536 * beField h.bytes 36 4) % 2 ^ 48, beField h.bytes 32 4) else none)
        none true]) ∧
  (∀ (n : TbIx) (s : State), s.fatal = false → csState s n.val = 1 → (s.cst n.val).timer ≤ s.now →
    ∃ t, exec (.listenTimeout n) s = .next t ∧ t = { s with regs := t.regs, csts := t.csts } ∧
      s.keepsFields t [SYN_CS_STAT_STATE n.val] ∧ csState t n.val = 2 ∧
      t.cst n.val = { s.cst n.val with
        timer := s.now, sent := 0, undo := some ⟨s.now, 1, (s.cst n.val).timer, (s.cst n.val).first, false,
          s.get (SYN_CS_STEP_STEP n.val), s.get (SYN_CS_CNT_INTEG n.val), s.get (SYN_CS_STAT_FROM n.val)⟩ } ∧
      ∀ m, m ≠ n.val → t.cst m = s.cst m) ∧
  (∀ (n : TbIx) (s : State), s.fatal = false → csState s n.val = 3 → (s.cst n.val).timer ≤ s.now →
    ∃ t, exec (.backoffEnd n) s = .next t ∧ t = { s with regs := t.regs, csts := t.csts } ∧
      s.keepsFields t [SYN_CS_STAT_STATE n.val] ∧ csState t n.val = 2 ∧
      t.cst n.val = { s.cst n.val with timer := s.now, sent := 0 } ∧ ∀ m, m ≠ n.val → t.cst m = s.cst m) ∧
  (∀ (n : TbIx) (s : State), s.fatal = false → csState s n.val = 4 → (s.cst n.val).timer ≤ s.now →
    ∃ t, exec (.integrateTimeout n) s = .next t ∧ t = { s with regs := t.regs, csts := t.csts } ∧
      s.keepsFields t [SYN_CS_STAT_STATE n.val] ∧ csState t n.val = 1 ∧
      t.cst n.val = { s.cst n.val with
        timer := s.now + 1000 * (s.get (SYN_CS_WAIT_WAIT n.val) + s.get (SYN_CS_CTL_ID n.val) * s.get (SYN_CS_SLOT_SLOT n.val)),
        sent := 0, first := none, undo := some ⟨s.now, 4, (s.cst n.val).timer, (s.cst n.val).first, false,
          s.get (SYN_CS_STEP_STEP n.val), s.get (SYN_CS_CNT_INTEG n.val), s.get (SYN_CS_STAT_FROM n.val)⟩ } ∧
      ∀ m, m ≠ n.val → t.cst m = s.cst m) ∧
  (∀ (n : TbIx) (s : State), s.fatal = false → csState s n.val = 2 → 2 ≤ (s.cst n.val).sent →
    (s.cst n.val).lastSend.getD s.now + csSlot s n.val ≤ s.now →
    ∃ t, exec (.coldstartSync n) s = .next t ∧ s.onlyFields t [SYN_CS_STAT_STATE n.val, SYN_CS_STAT_FROM n.val] ∧
      csState t n.val = 5 ∧ t.get (SYN_CS_STAT_FROM n.val) = s.get (SYN_CS_CTL_ID n.val)) ∧
  (∀ (n : TbIx) (s : State),
    (csState s n.val ≠ 1 → exec (.listenTimeout n) s = .next s) ∧ (csState s n.val ≠ 3 → exec (.backoffEnd n) s = .next s) ∧
    (csState s n.val ≠ 4 → exec (.integrateTimeout n) s = .next s) ∧
    (s.now < (s.cst n.val).timer → exec (.listenTimeout n) s = .next s ∧ exec (.backoffEnd n) s = .next s ∧
      exec (.integrateTimeout n) s = .next s ∧ ∀ varTx, exec (.coldStartSend ⟨n, varTx⟩) s = .next s)) ∧
  (∀ (n : TbIx) (s : State), s.fatal = false → csOn s n.val = true → csState s n.val ≠ 0 →
    ∃ t, exec (.synCsRestart n) s = .next t ∧ csState t n.val = 1 ∧ (t.cst n.val).sent = 0 ∧ (t.cst n.val).first = none ∧
      (csState s n.val = 5 → t.get (SYN_STAT_SYNC n.val) = 0 ∧ (t.syn n.val).begun = false ∧ (t.syn n.val).due = false) ∧
      (csState s n.val ≠ 5 → t = { s with regs := t.regs, csts := t.csts } ∧ s.keepsFields t [SYN_CS_STAT_STATE n.val])) ∧
  (∀ (n : TbIx) (varTx : TxSfds) (s : State), s.fatal = false → (csState s n.val = 2 ∨ csState s n.val = 5) →
    (s.cst n.val).timer ≤ s.now → (s.cst n.val).lastRx = [] → csPorts s n.val = [] →
    ∃ t, exec (.coldStartSend ⟨n, varTx⟩) s = .next t ∧ t = { s with csts := t.csts } ∧
      t.cst n.val = { s.cst n.val with
        timer := s.now + csPeriod s n.val, sent := (s.cst n.val).sent + 1, lastSend := some s.now,
        seq := ((s.cst n.val).seq + 1) % 65536 }) ∧
  (∀ (n : TbIx) (varTx : TxSfds) (p : Nat) (s : State), s.fatal = false → (csState s n.val = 2 ∨ csState s n.val = 5) →
    (s.cst n.val).timer ≤ s.now → (s.cst n.val).lastRx = [] → csPorts s n.val = [p] → s.get (PRT_STAT_LINK p) = 1 →
    (s.port p).memHalt = false → s.get (PRT_SEC_CFG_EN p) = 0 → curPs s (portK p) = 0 → inFlight s p = none →
    (s.port p).jobs = [] →
    let tx := txStamp s p (sfdOn s p (tget 0 varTx p)) n.val 0
    ∃ t, exec (.coldStartSend ⟨n, varTx⟩) s = .next t ∧
      t = { s with regs := t.regs, csts := t.csts, ports := t.ports, out := t.out } ∧
      t.out = s.out ++ [.frame p (padFrame (csFrame s n.val (s.cst n.val).seq tx (csState s n.val == 5)))] ∧
      (t.cst n.val).sent = (s.cst n.val).sent + 1 ∧ (t.cst n.val).lastSend = some s.now ∧ (t.port p).jobs = [] ∧
      cnt64 t.regs (PRT_CNT_TX_FRAMES p) = (cnt64 s.regs (PRT_CNT_TX_FRAMES p) + 1) % 2 ^ 64)

/-! ### Time bases -/

/-- R274, R276, R278, R282: one base clock (with which a step with nothing waiting begins, log entry 3): TBL advances by 1 ns, every time base by
its increment plus servo term, held to the range of R278, where a clamp latches CLAMPED; a carry out of the ns part is a wrap to come.
R279, R282, R288 to R290, R435: the increment written through TB_INC_HI; a counter's wrap; the fraction latched by a read of ns; the
snapshot of all nine counters in one clock; the loss and the return of the time reference. -/
def Obligations.TimeBases : Prop :=
  (∀ s : State, let t := baseClock s
    t = { s with regs := t.regs, tbs := t.tbs, now := s.now + 1 } ∧
    s.keepsFields t ((List.range 8).map TB_STAT_CLAMPED) ∧
    (t.tb 8).acc = ((s.tb 8).acc + 2 ^ 40) % 2 ^ 72 ∧
    (∀ n < 8, ((t.tb n).acc : Int) =
      ((s.tb n).acc + max 0x0FFC0000000 (min (((s.tb n).inc : Int) + (s.tb n).servo) 0x10040000000)) % 2 ^ 72) ∧
    (∀ n < 9, (t.tb n).inc = (s.tb n).inc ∧ (t.tb n).servo = (s.tb n).servo) ∧
    (∀ n < 8, t.get (TB_STAT_CLAMPED n) =
      if ((s.tb n).inc : Int) + (s.tb n).servo < 0x0FFC0000000 ∨ 0x10040000000 < ((s.tb n).inc : Int) + (s.tb n).servo then 1
      else s.get (TB_STAT_CLAMPED n)) ∧
    (∀ n < 8, (t.tb n).wrapDue = ((s.tb n).wrapDue ||
      decide (2 ^ 72 ≤ ((s.tb n).acc : Int) + max 0x0FFC0000000 (min (((s.tb n).inc : Int) + (s.tb n).servo) 0x10040000000))))) ∧
  (∀ (n : TbIx) (v : Word) (s : State), s.fatal = false → ∃ t, exec (.tbIncHi n v) s = .next t ∧
    t = { s with regs := t.regs, tbs := t.tbs } ∧ s.keepsFields t [TB_INC_HI_INC_HI n.val] ∧
    t.get (TB_INC_HI_INC_HI n.val) = v.toNat % 65536 ∧
    t.tb n.val = { s.tb n.val with inc := s.get (TB_INC_LO_INC_LO n.val) + 2 ^ 32 * (v.toNat % 65536) } ∧
    ∀ m, m ≠ n.val → t.tb m = s.tb m) ∧
  (∀ (n : Fin 9) (s : State), (s.tb n.val).wrapDue = true → ∃ t, exec (.wrap n) s = .next t ∧
    t = { s with regs := t.regs, tbs := t.tbs, rings := t.rings, hostMem := t.hostMem } ∧
    t.get (TB_STAT_WRAPS n.val) = (s.get (TB_STAT_WRAPS n.val) + 1) % 65536 ∧
    t.tb n.val = { s.tb n.val with wrapDue := false } ∧ ∀ m, m ≠ n.val → t.tb m = s.tb m) ∧
  (∀ (n : Fin 9) (s : State), (s.tb n.val).wrapDue = false → exec (.wrap n) s = .next s) ∧
  (∀ (n : Fin 9) (wide : Bool) (s : State), ∃ t, exec (.tbNsRead n wide) s = .next t ∧ s.onlyFields t [TB_FRAC_FRAC n.val] ∧
    t.get (TB_FRAC_FRAC n.val) = s.tbStamp n.val % 65536) ∧
  (∀ s : State, s.fatal = false → ∃ t, exec .snapshot s = .next t ∧
    s.onlyFields t (TB_SNAP_SEQ :: (List.range 9).flatMap (fun n => [TB_SNAP_NS_NS n, TB_SNAP_FR_FRAC n])) ∧
    t.get TB_SNAP_SEQ = (s.get TB_SNAP_SEQ + 1) % 65536 ∧
    ∀ n < 9, t.get (TB_SNAP_NS_NS n) = s.tbNs n ∧ t.get (TB_SNAP_FR_FRAC n) = s.tbStamp n % 65536) ∧
  (∀ s : State, s.records 0 7 → ∃ t, exec .refLost s = .next t ∧
    t = { s with regs := t.regs, srcs := t.srcs, evAt := t.evAt, vecs := t.vecs, out := t.out } ∧
    s.keepsButEvents t [TB_CLK_STAT_REF_LOST, SHELL_LIVE_LIVE (shellBase 0)] ∧ t.get TB_CLK_STAT_REF_LOST = 1 ∧
    (t.get (SHELL_LIVE_LIVE (shellBase 0))).testBit 7 = true ∧ t.src 0 7 = .corr) ∧
  (∀ s : State, ∃ t, exec .refReturn s = .next t ∧ t = { s with regs := t.regs, free := t.free } ∧
    s.keepsFields t [TB_CLK_STAT_REF_LOST, TB_CLK_STAT_REF, SHELL_LIVE_LIVE (shellBase 0)] ∧ t.get TB_CLK_STAT_REF_LOST = 0 ∧
    (s.get TB_CLK_STAT_REF ≠ 0 → t.get TB_CLK_STAT_REF = s.get TB_CLK_STAT_REF ∧ t.free = s.free) ∧
    (s.get TB_CLK_STAT_REF = 0 → t.get TB_CLK_STAT_REF = 1 ∨ t.get TB_CLK_STAT_REF = 2) ∧
    (t.get (SHELL_LIVE_LIVE (shellBase 0))).testBit 7 = false ∧ t.src 0 7 = s.src 0 7)

/-- R280, R281, R323, R324, R333, R338: a step within JUMP_LIMIT waits for the end of its base clock; one beyond it changes no counter and
becomes the pending value, which a grant with its SEQ applies at the end of the clock; a grant that does not match sets MISS, and so does
one in whose clock the value is replaced. The end of the clock adds the step to its time base and notes it (on the running tick's base
this says so of a step back: one forward also runs what it passes of the boundary sequence). -/
def Obligations.StepsAndGrants : Prop :=
  (∀ (n : TbIx) (ns : Word) (s : State), s.fatal = false →
    let d := toInt 32 ns.toNat * 65536 + (s.get (TB_STEP_FRAC_FRAC n.val) : Int)
    d.natAbs ≤ 65536 * max 1 (s.get (SYN_LIMIT_JUMP_LIMIT n.val)) →
    exec (.step n ns) s = .next { s with steps := s.steps ++ [StepDue.mk n.val d none none none false] }) ∧
  (∀ (n : TbIx) (d : Int) (g : Option Nat) (j : Bool) (s : State), s.steps = [StepDue.mk n.val d none none g j] →
    (n.val ≠ s.tickTb ∨ s.tick.run = false ∨ d < 0) →
    let t := applySteps s
    t = { s with regs := t.regs, tbs := t.tbs, rings := t.rings, hostMem := t.hostMem, steps := [] } ∧
      t.get (TB_STAT_STEPPED n.val) = 1 ∧
      (t.tb n.val).acc = ((((s.tb n.val).acc : Int) + d * 2 ^ 24) % 2 ^ 72).toNat ∧
      (∀ m, m ≠ n.val → t.tb m = s.tb m) ∧
      (n.val = s.tickTb → s.tick.run = true → ∀ g < 16, t.get (SP_TRAP_PEND g) = s.get (SP_TRAP_PEND g) ||| 2 ^ 8)) ∧
  (∀ (n : TbIx) (ns : Word) (s : State), s.fatal = false →
    let d := toInt 32 ns.toNat * 65536 + (s.get (TB_STEP_FRAC_FRAC n.val) : Int)
    65536 * max 1 (s.get (SYN_LIMIT_JUMP_LIMIT n.val)) < d.natAbs →
    ∃ t, exec (.step n ns) s = .next t ∧
      t = { s with regs := t.regs, rings := t.rings, hostMem := t.hostMem, steps := t.steps } ∧
      t.steps = s.steps.filter (fun e => !(e.n == n.val && e.grant.isSome)) ∧
      t.get SYN_GRANT_MISS = (if s.steps.any (fun e => e.n == n.val && e.grant.isSome) then 1 else s.get SYN_GRANT_MISS) ∧
      t.get (SYN_PEND_NS_NS n.val) = ns.toNat ∧ t.get (SYN_PEND_CTL_FRAC n.val) = s.get (TB_STEP_FRAC_FRAC n.val) ∧
      t.get (SYN_PEND_CTL_VALID n.val) = 1 ∧ t.get (SYN_PEND_CTL_SRC n.val) = 2 ∧
      t.get (SYN_PEND_CTL_SEQ n.val) = (s.get (SYN_PEND_CTL_SEQ n.val) + 1) % 256 ∧
      t.get (SYN_STAT_STEP_REFUSED n.val) = 1 ∧
      t.get (SYN_CNT_REFUSED_N n.val) = min (s.get (SYN_CNT_REFUSED_N n.val) + 1) 65535) ∧
  (∀ (v : Word) (s : State), s.fatal = false → v.msb = true →
    let n := getField v 16 3
    s.get (SYN_PEND_CTL_VALID n) = 1 → s.get (SYN_PEND_CTL_SEQ n) = getField v 0 8 →
    let d := toInt 32 (s.get (SYN_PEND_NS_NS n)) * 65536 + (s.get (SYN_PEND_CTL_FRAC n) : Int)
    ∃ t, exec (.stepGrant v) s = .next t ∧ t.get SYN_GRANT_MISS = 0 ∧ t.get (SYN_PEND_CTL_VALID n) = 0 ∧
      t.steps = s.steps ++ [StepDue.mk n d none none (some (getField v 0 8)) false] ∧
      t = { s with regs := t.regs, steps := t.steps } ∧
      s.keepsFields t [SYN_GRANT_TB, SYN_GRANT_SEQ, SYN_GRANT_MISS, SYN_PEND_CTL_VALID n]) ∧
  (∀ (v : Word) (s : State), s.fatal = false → v.msb = true →
    (s.get (SYN_PEND_CTL_VALID (getField v 16 3)) = 0 ∨ s.get (SYN_PEND_CTL_SEQ (getField v 16 3)) ≠ getField v 0 8) →
    ∃ t, exec (.stepGrant v) s = .next t ∧ s.onlyFields t [SYN_GRANT_TB, SYN_GRANT_SEQ, SYN_GRANT_MISS] ∧
      t.get SYN_GRANT_MISS = 1)

/-- R291 to R297: an edge at least 100 ns after the last accepted one (counted in the stamp's own units of 125 ps) enters its input's
store with its stamp, a missed one counts, a read of STAMP1 removes the head; a pulse rises at NEXT, and falls after its width, when NEXT moves to the first target in the future; a host comparator counts, and re-arms or
stops. -/
def Obligations.StampsAndPulses : Prop :=
  (∀ (i : Fin 12) (falling : Bool) (sub : Fin 8) (s : State), s.fatal = false → s.get (TB_EVIN_CTL_EN i.val) = 1 →
    (s.get (TB_EVIN_CTL_EDGE i.val) = 2 ∨ (s.get (TB_EVIN_CTL_EDGE i.val) = 1 ∧ falling = true) ∨
      (s.get (TB_EVIN_CTL_EDGE i.val) = 0 ∧ falling = false)) →
    (∀ t, (s.input i.val).last = some t → t + 800 ≤ 8 * s.now + sub.val) → (s.input i.val).store.length < 16 →
    let st := tbStampIn s (s.get (TB_EVIN_CTL_TB i.val)) (32 * sub.val)
    ∃ t, exec (.inputStamp i ⟨falling, sub⟩) s = .next t ∧
      t = { s with regs := t.regs, evin := t.evin, rings := t.rings, hostMem := t.hostMem } ∧
      t.input i.val = ⟨(s.input i.val).store ++ [(st, s.tbNs 8)], some (8 * s.now + sub.val)⟩ ∧
      t.get (TB_EVIN_STAMP1_LEVEL i.val) = (s.input i.val).store.length + 1 ∧
      ((s.input i.val).store = [] → t.get (TB_EVIN_STAMP1_VALID i.val) = 1 ∧ t.get (TB_EVIN_STAMP0_NS i.val) = st / 65536 ∧
        t.get (TB_EVIN_STAMP1_FRAC i.val) = st % 65536 ∧ t.get (TB_EVIN_STAMP2_TBL_NS i.val) = s.tbNs 8) ∧
      ∀ j, j ≠ i.val → t.input j = s.input j) ∧
  (∀ (i : Fin 12) (falling : Bool) (sub : Fin 8) (s : State), s.fatal = false → s.get (TB_EVIN_CTL_EN i.val) = 1 →
    (s.get (TB_EVIN_CTL_EDGE i.val) = 2 ∨ (s.get (TB_EVIN_CTL_EDGE i.val) = 1 ∧ falling = true) ∨
      (s.get (TB_EVIN_CTL_EDGE i.val) = 0 ∧ falling = false)) →
    ((∃ t, (s.input i.val).last = some t ∧ 8 * s.now + sub.val < t + 800) ∨ 16 ≤ (s.input i.val).store.length) →
    ∃ t, exec (.inputStamp i ⟨falling, sub⟩) s = .next t ∧ s.onlyFields t [TB_EVIN_CTL_MISSED i.val] ∧
      t.get (TB_EVIN_CTL_MISSED i.val) = min (s.get (TB_EVIN_CTL_MISSED i.val) + 1) 65535) ∧
  (∀ (i : Fin 12) (falling : Bool) (sub : Fin 8) (s : State), s.get (TB_EVIN_CTL_EN i.val) = 0 →
    exec (.inputStamp i ⟨falling, sub⟩) s = .next s) ∧
  (∀ (i : Fin 12) (a b : Nat × Nat) (r : List (Nat × Nat)) (s : State), (s.input i.val).store = a :: b :: r →
    ∃ t, exec (.evinStamp1Read i) s = .next t ∧ t = { s with regs := t.regs, evin := t.evin } ∧
      t.input i.val = ⟨b :: r, (s.input i.val).last⟩ ∧ t.get (TB_EVIN_STAMP1_VALID i.val) = 1 ∧
      t.get (TB_EVIN_STAMP1_LEVEL i.val) = (r.length + 1) % 32 ∧ t.get (TB_EVIN_STAMP0_NS i.val) = b.1 / 65536 % 2 ^ 32 ∧
      t.get (TB_EVIN_STAMP1_FRAC i.val) = b.1 % 65536 ∧ t.get (TB_EVIN_STAMP2_TBL_NS i.val) = b.2 % 2 ^ 32) ∧
  (∀ (i : Fin 12) (a : Nat × Nat) (s : State), (s.input i.val).store = [a] →
    ∃ t, exec (.evinStamp1Read i) s = .next t ∧ t = { s with regs := t.regs, evin := t.evin, free := t.free } ∧
      t.input i.val = ⟨[], (s.input i.val).last⟩ ∧ t.get (TB_EVIN_STAMP1_VALID i.val) = 0 ∧
      t.get (TB_EVIN_STAMP1_LEVEL i.val) = 0) ∧
  (∀ (i : Fin 12) (s : State), (s.input i.val).store = [] → exec (.evinStamp1Read i) s = .next s) ∧
  (∀ (j : Fin 4) (s : State), s.fatal = false → s.get (TB_PPSO_CTL_EN j.val) = 1 → tget 0 s.ppsHigh j.val = 0 →
    isPast (s.get (TB_PPSO_NEXT_NEXT j.val)) (s.tbNs (s.get (TB_PPSO_CTL_TB j.val))) = true →
    ∃ t, exec (.ppsPulse j) s = .next t ∧
      t = { s with regs := t.regs, targetLate := t.targetLate, ppsHigh := t.ppsHigh, out := s.out ++ [.pps j.val true] } ∧
      s.keepsFields t [TB_PPSO_CTL_LATE j.val] ∧ tget 0 t.ppsHigh j.val = s.now + 1 ∧
      ∀ i, i ≠ j.val → tget 0 t.ppsHigh i = tget 0 s.ppsHigh i) ∧
  (∀ (j : Fin 4) (s : State), (s.get (TB_PPSO_CTL_EN j.val) = 0 ∨ tget 0 s.ppsHigh j.val ≠ 0 ∨
      isPast (s.get (TB_PPSO_NEXT_NEXT j.val)) (s.tbNs (s.get (TB_PPSO_CTL_TB j.val))) = false) →
    exec (.ppsPulse j) s = .next s) ∧
  (∀ (j : Fin 4) (s : State), tget 0 s.ppsHigh j.val ≠ 0 → ppsOver s j.val = true →
    let now := s.tbNs (s.get (TB_PPSO_CTL_TB j.val))
    let per := ppsPeriod s j.val
    ∃ t k, exec (.ppsPulseEnd j) s = .next t ∧
      t = { s with regs := t.regs, ppsHigh := t.ppsHigh, out := s.out ++ [.pps j.val false] } ∧
      s.keepsFields t [TB_PPSO_NEXT_NEXT j.val] ∧ 1 ≤ k ∧
      t.get (TB_PPSO_NEXT_NEXT j.val) = (s.get (TB_PPSO_NEXT_NEXT j.val) + k * per) % 2 ^ 32 ∧
      (isPast (s.get (TB_PPSO_NEXT_NEXT j.val)) now = true →
        isPast (t.get (TB_PPSO_NEXT_NEXT j.val)) now = false ∧
        isPast ((t.get (TB_PPSO_NEXT_NEXT j.val) + 2 ^ 32 - per) % 2 ^ 32) now = true) ∧
      tget 0 t.ppsHigh j.val = 0 ∧ ∀ i, i ≠ j.val → tget 0 t.ppsHigh i = tget 0 s.ppsHigh i) ∧
  (∀ (j : Fin 4) (s : State), tget 0 s.ppsHigh j.val = 0 ∨ ppsOver s j.val = false → exec (.ppsPulseEnd j) s = .next s) ∧
  (∀ (j : Fin 4) (s : State), ppsWidth s j.val < ppsPeriod s j.val →
    ppsOver s j.val = decide (tget 0 s.ppsHigh j.val + ppsWidth s j.val ≤ s.now + 1)) ∧
  (∀ (k : Fin 16) (s : State), s.fatal = false → s.get (TB_CMP_CTL_EN k.val) = 1 →
    isPast (s.get (TB_CMP_TARGET_TARGET k.val)) (s.tbNs (s.get (TB_CMP_CTL_TB k.val))) = true →
    ∃ t, exec (.tcmpHFire k) s = .next t ∧ t.get (TB_CMP_CNT_CNT k.val) = (s.get (TB_CMP_CNT_CNT k.val) + 1) % 2 ^ 32 ∧
      t.get (TB_CMP_CTL_EN k.val) = (if s.get (TB_CMP_PER_PER k.val) = 0 then 0 else 1) ∧
      t.get (TB_CMP_TARGET_TARGET k.val) = (if s.get (TB_CMP_PER_PER k.val) = 0 then s.get (TB_CMP_TARGET_TARGET k.val)
        else nextTarget (s.get (TB_CMP_TARGET_TARGET k.val)) (max 1000 (s.get (TB_CMP_PER_PER k.val)))
          (s.tbNs (s.get (TB_CMP_CTL_TB k.val)))) ∧
      t.tbs = s.tbs ∧ t.mem = s.mem ∧ t.queues = s.queues) ∧
  (∀ (k : Fin 16) (s : State), (s.get (TB_CMP_CTL_EN k.val) = 0 ∨
      isPast (s.get (TB_CMP_TARGET_TARGET k.val)) (s.tbNs (s.get (TB_CMP_CTL_TB k.val))) = false) →
    exec (.tcmpHFire k) s = .next s)

/-! ### Synchronisation -/

/-- R313 to R318, R326, R327, R334, R335: a round that ends closes, and its measurements wait for the load, which takes the offset into
the servo, or, where the round is thin, holds over; the holdoff of a frozen path ends in a return or in an offer; ACC takes an offer,
DLY gives a delay; a write of NODE_CTL begins the node anew, one of NODE_SOFS its tracking; ACCEPT ends a suspicion. -/
def Obligations.RoundsAndNodes : Prop :=
  (∀ (n : TbIx) (s : State), withinSeq s (60 * 65536) = true → roundDue s n.val = true →
    ∃ t, exec (.syncRoundEnd n) s = .next t ∧ t = { s with nodes := t.nodes, syns := t.syns } ∧
      t.syn n.val = { s.syn n.val with closed := true, due := true } ∧ (∀ m, m ≠ n.val → t.syn m = s.syn m) ∧
      (∀ j < 16, (t.node n.val j).meas = 0 ∧ (t.node n.val j).shut = (s.node n.val j).meas ∧ ∀ p < 2,
        (t.path n.val j p).devs = [] ∧ (t.path n.val j p).shut = (s.path n.val j p).devs ∧
        (t.path n.val j p).dly = toInt 32 (s.get (NODE_DLY_DLY n.val j p))) ∧
      ((∀ j < 16, partakes s n.val j = false) →
        (s.get (SYN_CTL_SELF n.val) = 0 → (roundOffset t n.val).1 = none) ∧
        (s.get (SYN_CTL_SELF n.val) = 1 → s.get (SYN_CTL_K n.val) = 0 → roundOffset t n.val = (some 0, 1, [])))) ∧
  (∀ (n : TbIx) (s : State), (withinSeq s (60 * 65536) = false ∨ roundDue s n.val = false) →
    exec (.syncRoundEnd n) s = .next s) ∧
  (∀ (n : TbIx) (s : State), (s.syn n.val).due = true → (∀ j < 16, partakes s n.val j = false) →
    let t := servoLoad s n.val
    (s.get (SYN_CTL_SELF n.val) = 1 → s.get (SYN_CTL_K n.val) = 0 →
      (t.syn n.val).due = false ∧ (t.syn n.val).thin = 0 ∧ t.get (SYN_STAT_SYNC n.val) = 1 ∧ t.get (SYN_STAT_THIN n.val) = 0 ∧
      t.get (SYN_STAT_USED n.val) = 1 ∧ t.get (SYN_OFS_O n.val) = 0 ∧
      (t.syn n.val).rate = max (-(rateLimit s n.val)) (min (rateLimit s n.val) (s.syn n.val).rate) ∧
      (t.tb n.val).servo = (t.syn n.val).rate ∧ (t.tb n.val).acc = (s.tb n.val).acc) ∧
    (s.get (SYN_CTL_SELF n.val) = 0 →
      t.get (SYN_STAT_THIN n.val) = 1 ∧ t.get (SYN_CNT_THIN_N n.val) = min (s.get (SYN_CNT_THIN_N n.val) + 1) 65535 ∧
      (t.tb n.val).servo = (s.syn n.val).rate ∧ (t.tb n.val).acc = (s.tb n.val).acc)) ∧
  (∀ (n : TbIx) (s : State), (s.syn n.val).due = false → servoLoad s n.val = s) ∧
  (∀ (n : TbIx) (j : Fin 16) (p : Fin 2) (r : Int) (s : State), let y := s.path n.val j.val p.val
    y.frozen = true → y.offered = false → y.rejoin = false → y.hold = 0 → y.now = some r →
    ((r - y.base).natAbs ≤ (pathJump s n.val).natAbs →
      ∃ t, exec (.holdoffEnd n j p) s = .next t ∧ t = { s with regs := t.regs, nodes := t.nodes } ∧
        s.keepsFields t [fBit n.val j.val p.val] ∧ t.get (fBit n.val j.val p.val) = 0 ∧
        t.path n.val j.val p.val = { y with frozen := false, last := some r, now := none }) ∧
    ((pathJump s n.val).natAbs < (r - y.base).natAbs →
      ∃ t, exec (.holdoffEnd n j p) s = .next t ∧
        t = { s with regs := t.regs, nodes := t.nodes, rings := t.rings, hostMem := t.hostMem } ∧
        t.path n.val j.val p.val = { y with offered := true } ∧
        t.get (NODE_EST_EST n.val j.val p.val) = ofInt 32 (divNear (y.base - r) 256) ∧
        t.get (cBit n.val j.val p.val) = 1 ∧ t.get (SYN_STAT_PATH_CHANGED n.val) = 1)) ∧
  (∀ (n : TbIx) (j : Fin 16) (p : Fin 2) (s : State), ((s.path n.val j.val p.val).frozen = false ∨
      (s.path n.val j.val p.val).offered = true ∨ (s.path n.val j.val p.val).hold ≠ 0) →
    exec (.holdoffEnd n j p) s = .next s) ∧
  (∀ (n : TbIx) (j : Fin 16) (p : Fin 2) (v : Word) (s : State), s.fatal = false → getField v p.val 1 = 1 →
    getField v (1 - p.val) 1 = 0 →
    (s.get (cBit n.val j.val p.val) = 0 → exec (.nodeAcc n j v) s = .next s) ∧
    (s.get (cBit n.val j.val p.val) = 1 → ∃ t, exec (.nodeAcc n j v) s = .next t ∧
      t = { s with regs := t.regs, nodes := t.nodes } ∧
      s.keepsFields t [NODE_DLY_DLY n.val j.val p.val, cBit n.val j.val p.val] ∧
      t.get (NODE_DLY_DLY n.val j.val p.val) =
        (s.get (NODE_DLY_DLY n.val j.val p.val) + s.get (NODE_EST_EST n.val j.val p.val)) % 2 ^ 32 ∧
      t.get (cBit n.val j.val p.val) = 0 ∧
      t.path n.val j.val p.val = { s.path n.val j.val p.val with
        rejoin := true, offered := false
        dly := if (s.syn n.val).closed then toInt 32 (t.get (NODE_DLY_DLY n.val j.val p.val)) else (s.path n.val j.val p.val).dly })) ∧
  (∀ (n : TbIx) (j : Fin 16) (p : Fin 2) (v : Word) (s : State), s.fatal = false →
    ∃ t, exec (.nodeDly n j p v) s = .next t ∧ t = { s with regs := t.regs, nodes := t.nodes } ∧
      s.keepsFields t [NODE_DLY_DLY n.val j.val p.val, cBit n.val j.val p.val] ∧
      t.get (NODE_DLY_DLY n.val j.val p.val) = v.toNat ∧ t.get (cBit n.val j.val p.val) = 0 ∧
      t.path n.val j.val p.val = { s.path n.val j.val p.val with
        rejoin := true, offered := false
        dly := if (s.syn n.val).closed then toInt 32 v.toNat else (s.path n.val j.val p.val).dly }) ∧
  (∀ (n : TbIx) (j : Fin 16) (v : Word) (s : State), s.fatal = false →
    ∃ t, exec (.nodeCtl n j v) s = .next t ∧ t = { s with regs := t.regs, nodes := t.nodes } ∧
      rword t.regs (NODE_CTL n.val j.val) = v &&& 0xE000FFFF ∧
      rword t.regs (NODE_STAT n.val j.val) = rword s.regs (NODE_STAT n.val j.val) &&& 0xFFFF ∧
      t.get (NODE_EST_EST n.val j.val 0) = 0 ∧ t.get (NODE_EST_EST n.val j.val 1) = 0 ∧
      t.node n.val j.val = { NodeSt.rst with
        eLast := s.get (NODE_SOFS_SOFS n.val j.val)
        p0 := { PathSt.rst with dly := toInt 32 (s.get (NODE_DLY_DLY n.val j.val 0)) }
        p1 := { PathSt.rst with dly := toInt 32 (s.get (NODE_DLY_DLY n.val j.val 1)) } }) ∧
  (∀ (n : TbIx) (j : Fin 16) (v : Word) (s : State), s.fatal = false →
    ∃ t, exec (.nodeSofs n j v) s = .next t ∧ t = { s with regs := t.regs, nodes := t.nodes } ∧
      s.keepsFields t [NODE_SOFS_SOFS n.val j.val, NODE_STAT_LOST_TRK n.val j.val] ∧
      t.get (NODE_SOFS_SOFS n.val j.val) = v.toNat ∧ t.get (NODE_STAT_LOST_TRK n.val j.val) = 0 ∧
      t.node n.val j.val = { s.node n.val j.val with eLast := v.toNat }) ∧
  (∀ (n : TbIx) (w : Fin 4) (s : State), s.fatal = false →
    ∃ t, exec (.aswAccept n w) s = .next t ∧
      t = { s with regs := t.regs, nodes := t.nodes, ptps := t.ptps, asws := t.asws } ∧
      t.get (SYN_STAT_ASYM_SUSPECT n.val) = 0 ∧ t.get (ASW_EST_EST n.val w.val) = 0 ∧ t.asw n.val w.val = AswSt.rst ∧
      t.get (ASW_BASE_BASE n.val w.val) = s.get (CRF_HD_ASYM_ASYM (s.get (ASW_CTL_CAR n.val w.val))) ∧
      ∀ i ∈ (s.asw n.val w.val).froze,
        (i < 32 → (s.path n.val (i / 2) (i % 2)).frozen = true → (t.path n.val (i / 2) (i % 2)).rejoin = true) ∧
        (32 ≤ i → i < 34 → (t.ptp n.val (i - 32)).frozen = false))

/-- R312, R319, R320, R322, R328, R415: which messages reach a domain and may be used; Sync and Follow_Up on a slave port, what the first
offset of the one slave port in use does, the port's meanLinkDelay, its timeout, and the acceptance of an offered asymmetry.
R319, R321, R322, R412: what a domain's ports send. At a sync interval a master port sends the domain's last Sync on (two messages, or one
with ONESTEP), its correction grown by the slave port's meanLinkDelay and the residence time on TBL, which the rate ratio to the
grandmaster scales (log entry 61); a port requests delay measurements, answers them, and takes their results; each message carries the
domain's AUTHENTICATION TLV and leaves under the port's transmit association. A port that may not send, and one before its interval, does
nothing. -/
def Obligations.PtpFollower : Prop :=
  (∀ (n : TbIx) (p : Port) (m : PtpMsg) (varRx : Nat) (s : State), s.fatal = false → ptpMode s n.val = true →
    s.get (PRT_STAT_LINK p.val) = 1 → (s.port p.val).memHalt = false → s.reacting (grpK (p.val / 8)) 5 = false →
    s.get (PRT_GRD_CTL_EN p.val) = 0 → s.get (PRT_SEC_CFG_EN p.val) = 0 →
    (∀ b o, s.arriving (rxK p.val b) = some o → o.blocked = false) →
    ∃ u, (u = s ∨ u = demand s (portK p.val)) ∧
      (s.get (PTP_CTL_AUTH_EN n.val) = 0 → s.get (PTP_CTL_AUTH_REQ n.val) = 0 →
        ptpHears s n.val p.val varRx m = (true, u)) ∧
      (((s.get (PTP_CTL_AUTH_EN n.val) = 1 ∧ ((s.key p.val).cak = none ∨ ∃ x, m.tlv = some x ∧ x.ok = false)) ∨
          (s.get (PTP_CTL_AUTH_REQ n.val) = 1 ∧ m.tlv = none)) →
        ∃ w, ptpHears s n.val p.val varRx m = (false, w) ∧ u.onlyFields w [PTP_CNT_AUTH_FAIL n.val] ∧
          w.get (PTP_CNT_AUTH_FAIL n.val) = min (s.get (PTP_CNT_AUTH_FAIL n.val) + 1) 65535)) ∧
  (∀ (n : TbIx) (p : Port) (m : PtpMsg) (varRx : Nat) (s : State), (s.fatal = true ∨ ptpMode s n.val = false ∨
      s.get (PRT_STAT_LINK p.val) = 0 ∨ (s.port p.val).memHalt = true ∨ s.reacting (grpK (p.val / 8)) 5 = true) →
    ptpHears s n.val p.val varRx m = (false, s)) ∧
  (∀ (n : TbIx) (p : Port) (m : PtpMsg) (stamped : Bool) (varRx : Nat) (s u : State),
    ptpHears s n.val p.val varRx m = (false, u) →
    exec (.syncMessage n p m stamped varRx) s = .next u ∧ exec (.followUp n p ⟨m, varRx⟩) s = .next u) ∧
  (∀ (n : TbIx) (p : Port) (m : PtpMsg) (varRx b : Nat) (s u : State), ptpHears s n.val p.val varRx m = (true, u) →
    slaveOf s n.val p.val = some b → m.oneStep = false → freshLink s p.val = false →
    (∃ t, exec (.syncMessage n p m true varRx) s = .next t ∧ t = { u with regs := t.regs, ptps := t.ptps, syns := t.syns } ∧
      t.syn n.val = { u.syn n.val with was := none } ∧ (∀ d, d ≠ n.val → t.syn d = u.syn d) ∧
      u.keepsFields t [liveBit n.val b] ∧ t.get (liveBit n.val b) = 1 ∧
      t.ptp n.val b = { u.ptp n.val b with
        liveAt := s.now, sync := some (m.corr, rxStamp s p.val varRx n.val, rxStamp s p.val varRx 8) }) ∧
    (∃ t, exec (.syncMessage n p m false varRx) s = .next t ∧ u.onlyFields t [PTP_CNT_NO_STAMP n.val] ∧
      t.get (PTP_CNT_NO_STAMP n.val) = min (u.get (PTP_CNT_NO_STAMP n.val) + 1) 65535)) ∧
  (∀ (n : TbIx) (p : Port) (m : PtpMsg) (b : Fin 2) (corr : Int) (rx rxL varRx : Nat) (s u : State),
    ptpHears s n.val p.val varRx m = (true, u) → slaveOf s n.val p.val = some b.val → slavePort u n.val (1 - b.val) = none →
    (u.ptp n.val b.val).sync = some (corr, rx, rxL) → (u.ptp n.val b.val).frozen = false →
    (u.ptp n.val b.val).last = none → (u.ptp n.val b.val).delta = none → u.get (liveBit n.val b.val) = 1 →
    (slavePort u n.val b.val).isSome = true →
    let o := 256 * toInt 40 (ofInt 40 (m.origin + (corr + m.corr) + slaveMld u n.val b.val +
      toInt 32 (u.get (asymReg n.val b.val)) - divNear (rx : Int) 256))
    o.natAbs ≤ 65536 * max 1 (u.get (SYN_LIMIT_JUMP_LIMIT n.val)) →
    ∃ t, exec (.followUp n p ⟨m, varRx⟩) s = .next t ∧
      t = { u with regs := t.regs, ptps := t.ptps, doms := t.doms, syns := t.syns, tbs := t.tbs } ∧
      (t.ptp n.val b.val).sync = none ∧ (t.ptp n.val b.val).last = some o ∧
      tget DomSt.rst t.doms n.val = ⟨m.origin, corr + m.corr, rxL, b.val, m.cum⟩ ∧
      t.get (PTP_OFS_O n.val) = ofInt 32 (divNear o 256) ∧ t.get (SYN_OFS_O n.val) = ofInt 32 (divNear o 256) ∧
      t.get (SYN_STAT_SYNC n.val) = 1 ∧ (t.tb n.val).acc = (u.tb n.val).acc ∧
      (t.tb n.val).servo = (servoTerms u n.val o (65536 * syncInterval u n.val)).2 ∧
      (t.syn n.val).rate = (servoTerms u n.val o (65536 * syncInterval u n.val)).1) ∧
  (∀ (n : TbIx) (p : Port) (t2 t3 : Int) (m : PtpMsg) (varRx t1 : Nat) (s u : State),
    ptpHears s n.val p.val varRx m = (true, u) →
    domainPort s n.val p.val = true → (u.pd p.val).sent = some t1 → freshLink u p.val = false → tget none u.mlds p.val = none →
    let t4 := rxStamp u p.val varRx 8
    let res := pdResult u (u.pd p.val) t1 t4 t2 t3
    ∃ t, exec (.pdelayResp n p ⟨t2, t3⟩ ⟨m, varRx⟩) s = .next t ∧ t = { u with regs := t.regs, mlds := t.mlds, pds := t.pds } ∧
      tget none t.mlds p.val = some res.2 ∧ (∀ q, q ≠ p.val → tget none t.mlds q = tget none u.mlds q) ∧
      t.pd p.val = { u.pd p.val with sent := none, last := some (ofInt 48 (256 * t3), t4, u.now), ratio := res.1 } ∧
      (∀ q, q ≠ p.val → t.pd q = u.pd q) ∧
      ∀ d < 8, ∀ b < 2, t.get (PTP_MLD_MLD d b) =
        if ptpMode u d = true ∧ slavePort u d b = some p.val then ofInt 32 res.2 else u.get (PTP_MLD_MLD d b)) ∧
  (∀ (n : TbIx) (p : Port) (t2 t3 : Int) (m : PtpMsg) (varRx : Nat) (s u : State),
    ptpHears s n.val p.val varRx m = (true, u) → domainPort s n.val p.val = true → (u.pd p.val).sent = none →
    exec (.pdelayResp n p ⟨t2, t3⟩ ⟨m, varRx⟩) s = .next u) ∧
  (∀ (n : TbIx) (b : Fin 2) (s : State), s.fatal = false → s.get (liveBit n.val b.val) = 1 →
    s.get (liveBit n.val (1 - b.val)) = 0 → 3 * syncInterval s n.val ≤ s.now - (s.ptp n.val b.val).liveAt →
    ∃ t, exec (.slavePortTimeout n b) s = .next t ∧
      t = { s with regs := t.regs, ptps := t.ptps, syns := t.syns, tbs := t.tbs, rings := t.rings, hostMem := t.hostMem } ∧
      t.get (liveBit n.val b.val) = 0 ∧ t.get (SYN_STAT_SYNC n.val) = 0 ∧ (t.ptp n.val b.val).sync = none ∧
      (t.tb n.val).servo = (s.syn n.val).rate ∧ (t.tb n.val).acc = (s.tb n.val).acc) ∧
  (∀ (n : TbIx) (b : Fin 2) (s : State), (s.get (liveBit n.val b.val) = 0 ∨
      s.now - (s.ptp n.val b.val).liveAt < 3 * syncInterval s n.val) → exec (.slavePortTimeout n b) s = .next s) ∧
  (∀ (n : TbIx) (b : Fin 2) (s : State), s.fatal = false → (s.ptp n.val b.val).offered = true →
    ∃ t, exec (.ptpAcc n b) s = .next t ∧ t = { s with regs := t.regs, ptps := t.ptps } ∧
      s.keepsFields t [asymReg n.val b.val, frzBit n.val b.val] ∧
      t.get (asymReg n.val b.val) = (s.get (asymReg n.val b.val) + s.get (PTP_EST_EST n.val b.val)) % 2 ^ 32 ∧
      t.get (frzBit n.val b.val) = 0 ∧ (t.ptp n.val b.val).frozen = false ∧ (t.ptp n.val b.val).offered = false ∧
      (t.ptp n.val b.val).last = none) ∧
  (∀ (n : TbIx) (b : Fin 2) (s : State), (s.ptp n.val b.val).offered = false → exec (.ptpAcc n b) s = .next s) ∧
  (∀ (n : TbIx) (p : Port) (varTx : Nat) (s : State), ptpMode s n.val = true → masterPort s n.val p.val = true →
    ptpMaySend s n.val p.val = true → (s.get (PTP_STAT_A_LIVE n.val) = 1 ∨ s.get (PTP_STAT_B_LIVE n.val) = 1) →
    (∀ t, tget none s.syncNext (n.val * 128 + p.val) = some t → t ≤ s.now) → curPs s (portK p.val) = 0 →
    inFlight s p.val = none → (s.port p.val).jobs = [] →
    let d := tget DomSt.rst s.doms n.val
    let tx := txStamp s p.val (sfdOn s p.val varTx) 8 0
    let corr := d.corr + slaveMld s n.val d.slave + residence s n.val tx d.at_
    let sent : List Int → Emit := fun f => .ptp p.val 0 f (ownTlv s n.val p.val 0 f)
      ((secTxOf s p.val ptpHead).map (fun x => (x.sci, x.an, x.pn)))
    ∃ t, exec (.syncTransmit n p varTx) s = .next t ∧
      t = { s with regs := t.regs, ports := t.ports, txPn := t.txPn, syncNext := t.syncNext, out := t.out } ∧
      tget none t.syncNext (n.val * 128 + p.val) = some (s.now + syncInterval s n.val) ∧
      (secTxOk s p.val ptpHead = false → t.out = s.out ∧ (t.port p.val).jobs = []) ∧
      (secTxOk s p.val ptpHead = true →
        (s.get (PTP_CTL_ONESTEP n.val) = 1 → t.out = s.out ++ [sent [d.origin, corr]] ∧ (t.port p.val).jobs = []) ∧
        (s.get (PTP_CTL_ONESTEP n.val) = 0 → t.out = s.out ++ [sent [0, 0]] ∧
          (t.port p.val).jobs = [⟨.ptp n.val 1 false d.origin corr 0, s.now, varTx⟩]) ∧
        cnt64 t.regs (PRT_CNT_TX_FRAMES p.val) = (cnt64 s.regs (PRT_CNT_TX_FRAMES p.val) + 1) % 2 ^ 64)) ∧
  (∀ (n p ready var : Nat) (a b : Int) (s : State), canSend s p = true → curPs s (portK p) = 0 → secTxOk s p ptpHead = true →
    inFlight s p = none → ready ≤ s.now → (s.port p).jobs = [⟨.ptp n 1 false a b 0, ready, var⟩] →
    (runJobs s p).out = s.out ++ [.ptp p 1 [a, b] (ownTlv s n p 1 [a, b])
      ((secTxOf s p ptpHead).map (fun x => (x.sci, x.an, x.pn)))] ∧ ((runJobs s p).port p).jobs = []) ∧
  (∀ (n : TbIx) (p : Port) (varTx k : Nat) (s : State), tget none s.syncNext (n.val * 128 + p.val) = some k → s.now < k →
    exec (.syncTransmit n p varTx) s = .next s) ∧
  (∀ (n : TbIx) (p : Port) (varTx : Nat) (s : State), ptpMode s n.val = true → domainPort s n.val p.val = true →
    ptpMaySend s n.val p.val = true → (s.pd p.val).next ≤ s.now → curPs s (portK p.val) = 0 →
    secTxOk s p.val ptpHead = true → inFlight s p.val = none → (s.port p.val).jobs = [] →
    let tx := txStamp s p.val (sfdOn s p.val varTx) 8 0
    ∃ t, exec (.pdelayReq n p varTx) s = .next t ∧
      t = { s with regs := t.regs, ports := t.ports, txPn := t.txPn, pds := t.pds, out := t.out } ∧
      t.out = s.out ++ [.ptp p.val 2 [(tx : Int)] (ownTlv s n.val p.val 2 [(tx : Int)])
        ((secTxOf s p.val ptpHead).map (fun x => (x.sci, x.an, x.pn)))] ∧
      t.pd p.val = { s.pd p.val with
        next := s.now + intervalNs (toInt 4 (s.get (PTP_CTL_LOGPD n.val))), sent := some tx } ∧
      cnt64 t.regs (PRT_CNT_TX_FRAMES p.val) = (cnt64 s.regs (PRT_CNT_TX_FRAMES p.val) + 1) % 2 ^ 64) ∧
  (∀ (n : TbIx) (p : Port) (m : PtpMsg) (varRx varTx : Nat) (s u : State), ptpHears s n.val p.val varRx m = (true, u) →
    domainPort s n.val p.val = true → ptpMaySend u n.val p.val = true → curPs u (portK p.val) = 0 →
    secTxOk u p.val ptpHead = true → inFlight u p.val = none → (u.port p.val).jobs = [] →
    let tx := txStamp u p.val (sfdOn u p.val varTx) 8 0
    let rx := rxStamp u p.val (sfdOn u p.val varRx) 8
    ∃ t, exec (.pdelayReqReceive n p ⟨m, varRx, varTx⟩) s = .next t ∧
      t = { u with regs := t.regs, ports := t.ports, txPn := t.txPn, out := t.out } ∧
      t.out = u.out ++ [.ptp p.val 3 [(rx : Int)] (ownTlv u n.val p.val 3 [(rx : Int)])
        ((secTxOf u p.val ptpHead).map (fun x => (x.sci, x.an, x.pn)))] ∧
      (t.port p.val).jobs = [⟨.ptp n.val 4 false (tx : Int) 0 0, s.now, varTx⟩] ∧
      cnt64 t.regs (PRT_CNT_TX_FRAMES p.val) = (cnt64 u.regs (PRT_CNT_TX_FRAMES p.val) + 1) % 2 ^ 64) ∧
  (∀ (n : TbIx) (p : Port) (varTx : Nat) (s : State), (ptpMode s n.val = false ∨ ptpMaySend s n.val p.val = false) →
    exec (.syncTransmit n p varTx) s = .next s ∧ exec (.pdelayReq n p varTx) s = .next s)

/-! ### Rings -/

/-- R345, R346, R357, R361, R366, R371: a doorbell takes the writes the host has made visible, then its tail, and holds what it newly
covers; one that names no ring, or laps the head, halts the host interface, and where the publication of what is done would change that verdict
it waits for the end of its clock; after the clock of a halt it does nothing else. A head doorbell frees an
event ring's space, which the overflow marker takes first. DB_CMD_CFG creates or removes a command ring. -/
def Obligations.Doorbells : Prop :=
  (∀ (f : Fn) (v : Word) (hw : HostWrites) (err : Option Nat) (s : State),
    (s.fatal = true ∨ (s.halted = true ∧ s.now ≠ s.haltAt)) →
    exec (.dbTx f v ⟨hw, err⟩) s = .next (s.hostWrites hw) ∧ exec (.dbRx f v ⟨hw, err⟩) s = .next (s.hostWrites hw) ∧
    exec (.dbJob f v ⟨hw, err⟩) s = .next (s.hostWrites hw) ∧ exec (.dbCmd f v ⟨hw, err⟩) s = .next (s.hostWrites hw) ∧
    exec (.dbEvt f v) s = .next s) ∧
  (∀ (f : Fn) (v : Word) (hw : HostWrites) (err : Option Nat) (s : State) (kind g : Nat) (c : Instr),
    (c = .dbTx f v ⟨hw, err⟩ ∧ kind = 0) ∨ (c = .dbRx f v ⟨hw, err⟩ ∧ kind = 1) ∨ (c = .dbJob f v ⟨hw, err⟩ ∧ kind = 2) →
    s.fatal = false → s.halted = false → ringOf s kind f.val (getField v 0 12) = some g →
    let r := s.ring kind g
    let tail := getField v 16 16
    r.destroying = false → r.laps tail r.head = false → r.laps tail (headAfter r.done.length r r.head) = false →
    (∀ b ∈ s.bells, (b.1, b.2.1, b.2.2.1) ≠ (kind, f.val, getField v 0 12)) →
    (kind = 1 → s.rxHold = [] ∧ s.holdGone.1 ≠ s.now) →
    ∃ t, exec c s = .next t ∧
      t = { s with
        regs := t.regs, rings := t.rings, hostMem := t.hostMem, vecs := t.vecs, out := t.out, free := t.free,
        haltAt := t.haltAt } ∧
      (t.ring kind g).tail = tail ∧ (t.ring kind g).head = r.head ∧ (t.ring kind g).next = r.next ∧
      (t.ring kind g).pub = r.pub ∧ (t.ring kind g).done = r.done ∧
      ∀ k < (tail + 65536 - r.head % 65536) % 65536 - r.started, r.copy ((r.next + k) % 65536) = none →
        (t.ring kind g).copy ((r.next + k) % 65536) =
          some (hostEntry (s.hostWrites hw) (r.slot ((r.next + k) % 65536)))) ∧
  (∀ (f : Fn) (v : Word) (hw : HostWrites) (err : Option Nat) (s : State) (kind : Nat) (c : Instr),
    (c = .dbTx f v ⟨hw, err⟩ ∧ kind = 0) ∨ (c = .dbRx f v ⟨hw, err⟩ ∧ kind = 1) ∨ (c = .dbJob f v ⟨hw, err⟩ ∧ kind = 2) →
    s.fatal = false → s.halted = false →
    (∀ cause, (ringOf s kind f.val (getField v 0 12) = none ∧ cause = 6) ∨
        (∃ g, ringOf s kind f.val (getField v 0 12) = some g ∧ (s.ring kind g).destroying = false ∧ cause = 5 ∧
          (s.ring kind g).laps (getField v 16 16) (s.ring kind g).head = true ∧
          (s.ring kind g).laps (getField v 16 16) (headAfter (s.ring kind g).done.length (s.ring kind g) (s.ring kind g).head) = true ∧
          ∀ b ∈ s.bells, (b.1, b.2.1, b.2.2.1) ≠ (kind, f.val, getField v 0 12)) →
      ∃ t, exec c s = .next t ∧
        t = { s with
          regs := t.regs, hostMem := (s.hostWrites hw).hostMem, vecs := t.vecs, out := t.out, haltAt := s.now } ∧
        t.halted = true ∧
        rword t.regs BOOT_HALT0 = w32 (cause * 2 ^ 28 + kind * 2 ^ 24 + f.val * 65536 + getField v 0 12) ∧
        rword t.regs BOOT_HALT1 = w32 (getField v 16 16))) ∧
  (∀ (f : Fn) (v : Word) (hw : HostWrites) (err : Option Nat) (s : State) (kind g : Nat) (c : Instr),
    (c = .dbTx f v ⟨hw, err⟩ ∧ kind = 0) ∨ (c = .dbRx f v ⟨hw, err⟩ ∧ kind = 1) ∨ (c = .dbJob f v ⟨hw, err⟩ ∧ kind = 2) →
    s.fatal = false → s.halted = false → ringOf s kind f.val (getField v 0 12) = some g →
    let r := s.ring kind g
    let tail := getField v 16 16
    r.destroying = false → (r.laps tail r.head ≠ r.laps tail (headAfter r.done.length r r.head) ∨
      ∃ b ∈ s.bells, (b.1, b.2.1, b.2.2.1) = (kind, f.val, getField v 0 12)) →
    (kind = 1 → s.rxHold = [] ∧ s.holdGone.1 ≠ s.now) →
    exec c s = .next { s.hostWrites hw with bells := s.bells ++ [(kind, f.val, getField v 0 12, tail, err)] }) ∧
  (∀ (s : State) (kind f loc tail g : Nat) (err : Option Nat), s.bells = [(kind, f, loc, tail, err)] → s.fatal = false →
    s.halted = false → kind < 3 → ringOf s kind f loc = some g →
    let r := s.ring kind g
    r.destroying = false →
    (r.laps tail r.head = true → (bellsEnd s).halted = true ∧ (bellsEnd s).get BOOT_HALT0_CAUSE = 5 ∧
      (bellsEnd s).rings = s.rings) ∧
    (r.laps tail r.head = false → (kind = 1 → s.rxHold = [] ∧ s.holdGone.1 ≠ s.now) →
      ((bellsEnd s).ring kind g).tail = tail ∧ ((bellsEnd s).ring kind g).head = r.head ∧ (bellsEnd s).bells = [])) ∧
  (∀ (f : Fn) (v : Word) (s : State) (g : Nat), s.fatal = false → s.halted = false →
    ringOf s 3 f.val (getField v 0 12) = some g →
    let r := s.ring 3 g
    let hd := getField v 16 16
    r.destroying = false → (r.tail + 65536 - hd) % 65536 ≤ (r.tail + 65536 - r.head) % 65536 →
    (r.marker = 0 → ∃ t, exec (.dbEvt f v) s = .next t ∧ t = { s with rings := t.rings } ∧
      t.ring 3 g = { r with head := hd }) ∧
    (r.marker ≠ 0 → (r.tail + 65536 - hd) % 65536 < r.size → ∃ t, exec (.dbEvt f v) s = .next t ∧
      t = { s with rings := t.rings, hostMem := t.hostMem } ∧
      t.ring 3 g = { r with
        head := hd, tail := (r.tail + 1) % 65536, seq := (r.seq + 1) % 65536, marker := 0 } ∧
      t.hostMem.getBytes (r.slot r.tail) 32 = recordBytes 0x5000 0 r.marker (s.tbStamp r.tb / 65536)
        (s.tbStamp r.tb % 65536) 0 (s.tbNs 8) r.seq 0 ∧
      ∀ a, a < r.slot r.tail ∨ r.slot r.tail + 32 ≤ a → t.hostMem.get a = s.hostMem.get a)) ∧
  (∀ (f : Fn) (v : Word) (s : State), s.fatal = false → s.halted = false → ringOf s 3 f.val (getField v 0 12) = none →
    ∃ t, exec (.dbEvt f v) s = .next t ∧ t = { s with regs := t.regs, vecs := t.vecs, out := t.out, haltAt := s.now } ∧
      t.halted = true) ∧
  (∀ (f : Fn) (v : Word) (hw : HostWrites) (err : Option Nat) (s : State), s.fatal = false → s.halted = false →
    let r := s.ring 4 f.val
    let tail := getField v 16 16
    (r.created = true → r.destroying = false → r.laps tail r.head = false →
      r.laps tail (headAfter r.done.length r r.head) = false →
      (∀ b ∈ s.bells, (b.1, b.2.1, b.2.2.1) ≠ (4, f.val, 0)) →
      ∃ t, exec (.dbCmd f v ⟨hw, err⟩) s = .next t ∧ (t.ring 4 f.val).tail = tail ∧ (t.ring 4 f.val).head = r.head ∧
        (t.ring 4 f.val).next = r.next ∧ t.mem = s.mem ∧ t.tbs = s.tbs) ∧
    (r.created = false → ∃ t, exec (.dbCmd f v ⟨hw, err⟩) s = .next t ∧ t.halted = true ∧
      rword t.regs BOOT_HALT0 = w32 (6 * 2 ^ 28 + 4 * 2 ^ 24 + f.val * 65536))) ∧
  (∀ (f : Fn) (v : Word) (s : State), s.fatal = false →
    let base := (rword s.regs (DB_CMD_BASE_LO f.val)).toNat + 2 ^ 32 * (rword s.regs (DB_CMD_BASE_HI f.val)).toNat
    let shd := (rword s.regs (DB_CMD_SHD_LO f.val)).toNat + 2 ^ 32 * (rword s.regs (DB_CMD_SHD_HI f.val)).toNat
    ∃ t, exec (.dbCmdCfg f v) s = .next t ∧ t = { s with regs := t.regs, rings := t.rings } ∧
      s.keepsFields t [DB_CMD_CFG_VEC f.val, DB_CMD_CFG_LOG2SIZE f.val, DB_CMD_CFG_EN f.val, DB_CMD_CFG_CFG_ERR f.val] ∧
      (∀ k g, (k, g) ≠ (4, f.val) → g < 4096 → t.ring k g = s.ring k g) ∧
      (v.msb = false → t.ring 4 f.val = Ring.none ∧ t.get (DB_CMD_CFG_EN f.val) = 0) ∧
      (v.msb = true → base % 4096 = 0 → shd % 8 = 0 → 6 ≤ getField v 0 4 → hasVec s f.val (getField v 8 11) = true →
        t.get (DB_CMD_CFG_EN f.val) = 1 ∧ t.get (DB_CMD_CFG_CFG_ERR f.val) = 0 ∧
        t.ring 4 f.val = { Ring.none with
          created := true, fn := f.val, log2 := getField v 0 4, base := base, shadow := shd,
          vec := s.get (GLB_FN_VEC_VBASE f.val) + getField v 8 11 }) ∧
      (v.msb = true → (base % 4096 ≠ 0 ∨ shd % 8 ≠ 0 ∨ getField v 0 4 < 6 ∨ hasVec s f.val (getField v 8 11) = false) →
        t.get (DB_CMD_CFG_CFG_ERR f.val) = 1 ∧ t.rings = s.rings))

/-- R351, R358, R359, R371: the commands of a command ring, each with the STATUS it ends with: NOP and codes that are not listed,
RING_CREATE, RING_DESTROY (of a ring with nothing in progress at once, of another when that has ended; frames held for it count in
DROP_HOLD), STEER. -/
def Obligations.RingCommands : Prop :=
  (∀ (f : Fn) (s : State), nextCmd s f.val = none →
    exec (.commandNop f) s = .next s ∧ exec (.ringCreate f) s = .next s ∧ exec (.ringDestroy f) s = .next s ∧
    exec (.steer f) s = .next s) ∧
  (∀ (f : Fn) (e : List Nat) (s : State), nextCmd s f.val = some e →
    let op := bits (entryWord e 0) 31 24
    (op = 0 ∨ 3 < op → ∃ t, exec (.commandNop f) s = .next t ∧ t = { s with rings := t.rings } ∧
      s.commandResult t f.val (if op = 0 then 0 else 1)) ∧
    (1 ≤ op → op ≤ 3 → exec (.commandNop f) s = .next s) ∧
    (op ≠ 1 → exec (.ringCreate f) s = .next s) ∧ (op ≠ 2 → exec (.ringDestroy f) s = .next s) ∧
    (op ≠ 3 → exec (.steer f) s = .next s)) ∧
  (∀ (f : Fn) (e : List Nat) (s : State), nextCmd s f.val = some e → bits (entryWord e 0) 31 24 = 1 →
    let kind := bits (entryWord e 0) 18 16
    let loc := bits (entryWord e 0) 11 0
    let bad := 3 < kind ∨ bits (entryWord e 5) 3 0 < 6 ∨ hasVec s f.val (bits (entryWord e 5) 18 8) = false
    (∀ g, ¬ bad → globalRing s kind f.val loc = some g → (s.ring kind g).created = false → entryAddr e 1 % 4096 = 0 →
      entryAddr e 3 % 8 = 0 → ∃ t, exec (.ringCreate f) s = .next t ∧ t = { s with rings := t.rings } ∧
        s.commandResult t f.val 0 ∧
        t.ring kind g = { Ring.none with
          created := true, fn := f.val, loc := loc, log2 := bits (entryWord e 5) 3 0, base := entryAddr e 1
          shadow := entryAddr e 3, vec := s.get (GLB_FN_VEC_VBASE f.val) + bits (entryWord e 5) 18 8
          mod := bits (entryWord e 6) 15 0, tb := bits (entryWord e 5) 6 4, rxHold := bits (entryWord e 6) 31 24
          sched := bits (entryWord e 6) 23 16 }) ∧
    (∀ st, (bad ∧ st = 1) ∨ (¬ bad ∧ globalRing s kind f.val loc = none ∧ st = 2) ∨
        (∃ g, ¬ bad ∧ globalRing s kind f.val loc = some g ∧
          (((s.ring kind g).created = true ∧ st = 4) ∨
           ((s.ring kind g).created = false ∧ (entryAddr e 1 % 4096 ≠ 0 ∨ entryAddr e 3 % 8 ≠ 0) ∧ st = 5))) →
      ∃ t, exec (.ringCreate f) s = .next t ∧ t = { s with rings := t.rings } ∧ s.commandResult t f.val st ∧
        ∀ k g, k < 4 → g < 4096 → t.ring k g = s.ring k g)) ∧
  (∀ (f : Fn) (e : List Nat) (s : State), nextCmd s f.val = some e → bits (entryWord e 0) 31 24 = 2 →
    let kind := bits (entryWord e 0) 18 16
    let loc := bits (entryWord e 0) 11 0
    (∀ g, kind ≤ 3 → ringOf s kind f.val loc = some g → (s.ring kind g).fn = f.val → (s.ring kind g).done = [] →
      (if kind = 3 then (s.ring kind g).tail else (s.ring kind g).head) = (s.ring kind g).pub → g < 4096 →
      ((kind = 3 ∨ (s.ring kind g).next = (s.ring kind g).head) →
        ∃ t, exec (.ringDestroy f) s = .next t ∧ t = { s with rings := t.rings, rxHold := t.rxHold } ∧
          t.ring kind g = { Ring.none with
            fn := f.val, loc := (s.ring kind g).loc, cntA := (s.ring kind g).cntA
            cntB := min 65535 ((s.ring kind g).cntB + (s.rxHold.filter (fun x => kind == 1 && x.1 == g)).length)
            cntC := (s.ring kind g).cntC } ∧
          s.commandResult t f.val 0 ∧ t.rxHold = s.rxHold.filter (fun x => !(kind == 1 && x.1 == g))) ∧
      (kind ≠ 3 → (s.ring kind g).next ≠ (s.ring kind g).head →
        ∃ t, exec (.ringDestroy f) s = .next t ∧ t = { s with rings := t.rings } ∧
          t.ring kind g = { s.ring kind g with destroying := true, seq := (s.ring 4 f.val).next } ∧
          t.ring 4 f.val = { s.ring 4 f.val with next := ((s.ring 4 f.val).next + 1) % 65536 })) ∧
    (kind ≤ 3 → ringOf s kind f.val loc = none → ∃ t, exec (.ringDestroy f) s = .next t ∧ t = { s with rings := t.rings } ∧
      s.commandResult t f.val (if (globalRing s kind f.val loc).isNone then 2 else 4)) ∧
    (3 < kind → ∃ t, exec (.ringDestroy f) s = .next t ∧ t = { s with rings := t.rings } ∧
      s.commandResult t f.val 1)) ∧
  (∀ (f : Fn) (e : List Nat) (s : State), nextCmd s f.val = some e → bits (entryWord e 0) 31 24 = 3 →
    let skind := bits (entryWord e 5) 29 28
    let key := bits (entryWord e 6) 15 0
    let k := steerK skind (if skind = 0 then key % 128 + key / 256 % 8 * 256 else if skind = 1 then key else key % 8)
    (skind < 3 → f.val = 0 → ∃ t, exec (.steer f) s = .next t ∧ t = { s with rings := t.rings, steer := t.steer } ∧
      s.commandResult t 0 0 ∧
      tget none t.steer k = (if bits (entryWord e 5) 31 31 = 1 then some (bits (entryWord e 5) 11 0) else none) ∧
      ∀ x, x ≠ k → tget none t.steer x = tget none s.steer x) ∧
    (skind = 3 ∨ f.val ≠ 0 → ∃ t, exec (.steer f) s = .next t ∧ t = { s with rings := t.rings } ∧
      s.commandResult t f.val (if skind = 3 then 1 else 3)))

/-- R285, R347 to R349, R352, R360, R361: a transmit descriptor's frame enters its port's queue, or completes with the STATUS that says
why not, and a read error halts; a completed entry is written, then the head (an event ring's tail) is published and its message sent, one message for the
rings on a vector that publish in one clock; one message ends a moderation; an unmasked vector sends what it owes; frames held too long are dropped. -/
def Obligations.RingProgress : Prop :=
  (∀ (g : Fin 4096) (e : List Nat) (s : State), s.fatal = false → s.halted = false → (s.ring 0 g.val).ready = some e →
    let r := s.ring 0 g.val
    let p := bits (entryWord e 3) 6 0
    let f := hostQFrame s (gather s (buffer s e)) g.val r.next e
    (∃ t, exec (.transmitDescriptor g true) s = .next t ∧
      t = { s with regs := t.regs, vecs := t.vecs, out := t.out, haltAt := s.now } ∧
      t.halted = true ∧ rword t.regs BOOT_HALT0 = w32 (7 * 2 ^ 28 + r.fn * 65536 + r.loc % 4096)) ∧
    (bits (entryWord e 3) 30 30 = 0 → (s.get (PRT_STAT_STATE p) = stOff ∨ s.get (PRT_STAT_STATE p) = stRetired) →
      ∃ t, exec (.transmitDescriptor g false) s = .next t ∧ t = { s with rings := t.rings, ids := t.ids } ∧
        t.ring 0 g.val = { r with
          next := (r.next + 1) % 65536, done := r.done ++ [(r.next, [(6, 0), (7, 3 * 2 ^ 26)])] }) ∧
    (bits (entryWord e 3) 30 29 = 0 → s.get (PRT_STAT_STATE p) ≠ stOff → s.get (PRT_STAT_STATE p) ≠ stRetired →
      s.get (PRT_GRD_STAT_STATE p) ≠ 3 →
      ∃ t, exec (.transmitDescriptor g false) s = .next t ∧
        t = { s with regs := t.regs, rings := t.rings, ids := t.ids, pwr := t.pwr, queues := t.queues } ∧
        (admits s p f.tc (cellsOf f.len) = true → t.queue p f.tc = s.queue p f.tc ++ [f] ∧
          t.ring 0 g.val = { r with next := (r.next + 1) % 65536 }) ∧
        (admits s p f.tc (cellsOf f.len) = false → t.queues = s.queues ∧
          t.ring 0 g.val = { r with
            next := (r.next + 1) % 65536, done := r.done ++ [(r.next, [(6, 0), (7, 2 ^ 26)])] }))) ∧
  (∀ (g : Fin 4096) (x : Bool) (s : State), (s.ring 0 g.val).ready = none → exec (.transmitDescriptor g x) s = .next s) ∧
  (∀ (kind : Fin 5) (g : Fin 4096) (ws : List (Nat × Nat)) (b : Nat) (s : State), s.fatal = false → s.halted = false →
    kind.val ≠ 3 →
    let r := s.ring kind.val g.val
    r.created = true → r.destroying = false → r.done = [(r.head, ws ++ [(7, b)])] → (∀ w ∈ ws, w.1 < 7) →
    (r.shadow + 4 ≤ r.slot r.head ∨ r.slot r.head + 32 ≤ r.shadow) →
    ∃ t, exec (.completion kind g) s = .next t ∧
      t = { s with
        regs := t.regs, rings := t.rings, hostMem := t.hostMem, vecs := t.vecs, out := t.out, shadowWas := t.shadowWas } ∧
      t.hostWord (r.slot r.head + 28) = b % 2 ^ 32 ∧ t.hostWord r.shadow = (r.head + 1) % 65536 ∧
      (∀ a, (a < r.slot r.head ∨ r.slot r.head + 32 ≤ a) → (a < r.shadow ∨ r.shadow + 4 ≤ a) →
        t.hostMem.get a = s.hostMem.get a) ∧
      (t.ring kind.val g.val).head = (r.head + 1) % 65536 ∧ (t.ring kind.val g.val).pub = (r.head + 1) % 65536 ∧
      (t.ring kind.val g.val).done = [] ∧
      (r.modEnd ≤ s.now → s.msixOn r.fn = true → (s.vec r.vec).masked = false → (s.vec r.vec).ringAt ≠ s.now + 1 →
        t.out = s.out ++ [.msix r.vec]) ∧
      (r.modEnd ≤ s.now → (s.vec r.vec).ringAt = s.now + 1 → t.out = s.out) ∧
      (s.now < r.modEnd → t.out = s.out ∧ (t.ring kind.val g.val).owed = true)) ∧
  (∀ (kind : Fin 5) (g : Fin 4096) (s : State), kind.val ≠ 3 → (s.ring kind.val g.val).done = [] →
    (s.ring kind.val g.val).destroying = false → exec (.completion kind g) s = .next s) ∧
  (∀ (kind : Fin 5) (g : Fin 4096) (s : State), kind.val = 3 → s.fatal = false → s.halted = false →
    let r := s.ring kind.val g.val
    r.created = true →
    (r.tail = r.pub → exec (.completion kind g) s = .next s) ∧
    (r.tail ≠ r.pub → ∃ t, exec (.completion kind g) s = .next t ∧
      t = { s with
        regs := t.regs, rings := t.rings, hostMem := t.hostMem, vecs := t.vecs, out := t.out, shadowWas := t.shadowWas } ∧
      t.hostWord r.shadow = r.tail % 65536 ∧ (t.ring kind.val g.val).pub = r.tail % 65536 ∧
      (t.ring kind.val g.val).tail = r.tail ∧ (t.ring kind.val g.val).head = r.head)) ∧
  (∀ (kind : Fin 5) (g : Fin 4096) (s : State), s.fatal = false → s.halted = false →
    let r := s.ring kind.val g.val
    r.owed = true → r.modEnd ≤ s.now →
    ∃ t, exec (.moderationEnd kind g) s = .next t ∧
      t = { s with regs := t.regs, rings := t.rings, vecs := t.vecs, out := t.out } ∧
      t.ring kind.val g.val = { r with owed := false, modEnd := if r.mod = 0 then r.modEnd else s.now + 1000 * r.mod } ∧
      ((s.vec r.vec).ringAt = s.now + 1 → t.out = s.out) ∧ ((s.vec r.vec).ringAt ≠ s.now + 1 → s.msixOn r.fn = true →
        ((s.vec r.vec).masked = false → t.out = s.out ++ [.msix r.vec]) ∧
        ((s.vec r.vec).masked = true → t.out = s.out ∧ (t.vec r.vec).pend = true))) ∧
  (∀ (kind : Fin 5) (g : Fin 4096) (s : State),
    ((s.ring kind.val g.val).owed = false ∨ s.now < (s.ring kind.val g.val).modEnd) →
    exec (.moderationEnd kind g) s = .next s) ∧
  (∀ (v : Fin 2048) (s : State), s.fatal = false → s.halted = false → (s.vec v.val).pend = true →
    ∃ t, exec (.vectorUnmask v) s = .next t ∧ t = { s with regs := t.regs, vecs := t.vecs, out := s.out ++ [.msix v.val] } ∧
      s.keepsFields t [TB_VLAT_NS_NS v.val, TB_VLAT_TBL_TBL_NS v.val, TB_VLAT_CTL_CNT v.val] ∧
      t.vec v.val = { s.vec v.val with masked := false, pend := false } ∧ (∀ x, x ≠ v.val → t.vec x = s.vec x) ∧
      t.get (TB_VLAT_NS_NS v.val) = s.tbNs (s.get (TB_VLAT_CTL_TB v.val)) ∧ t.get (TB_VLAT_TBL_TBL_NS v.val) = s.tbNs 8) ∧
  (∀ (v : Fin 2048) (s : State), (s.vec v.val).pend = false →
    ∃ t, exec (.vectorUnmask v) s = .next t ∧ t = { s with vecs := t.vecs } ∧ t.vec v.val = { s.vec v.val with masked := false } ∧
      ∀ x, x ≠ v.val → t.vec x = s.vec x) ∧
  (∀ (g : Fin 4096) (s : State), s.fatal = false → s.halted = false →
    let r := s.ring 1 g.val
    let keep := s.rxHold.filter (fun e => !(e.1 == g.val && decide (8000 * r.rxHold ≤ s.now - e.2.since)))
    (keep.length < s.rxHold.length → ∃ t, exec (.rxHold g) s = .next t ∧
      t = { s with rings := t.rings, rxHold := keep, holdGone := t.holdGone } ∧
      t.ring 1 g.val = { r with cntB := min (r.cntB + (s.rxHold.length - keep.length)) 65535 }) ∧
    (keep.length = s.rxHold.length → exec (.rxHold g) s = .next s))

/-! ### DMA -/

/-- R372, R376, R377, R379, R381 to R383: a burst of a plain copy in host memory (no fragments, no chain) is read in full, then written in
full, and nothing else changes in host memory (a device that is not in PS0 first wakes); a job with its request withdrawn waits; at the
commit point a job completes with STATUS 0, an abort ends it with STATUS 1 (but not before its first burst), a missed tick with STATUS 2;
an abort after the commit point marks ABORT_LATE; a kick waits for the next park, or reads the parked element again, and halts where that
read fails or finds a reserved bit set. An abort given before a commit point of its own clock comes late (R394). -/
def Obligations.DmaJobs : Prop :=
  (∀ (c : Fin 64) (dreq : Bool) (s : State), s.fatal = false → s.halted = false → curPs s 0 = 0 →
    let b := s.get (DMA_CH_CFG_RSEL c.val) % 8
    let s0 : State := { s with dreq := putBits s.dreq b b dreq.toNat }
    let x := s.ch c.val
    let n := burstLen s0 c.val
    let src := entryAddr x.words 0
    let dst := entryAddr x.words 2
    x.job = true → x.chain = false → bits (entryWord x.words 4) 31 24 = 0 → x.pos < x.len →
    dmaChoice s0 = some c.val → requested s0 c.val = true → staging s0 + stageNeed s0 c.val n ≤ 2 ^ 22 →
    ∃ t, exec (.burst c dreq false) s = .next t ∧
      t = { s0 with regs := t.regs, hostMem := t.hostMem, dma := t.dma, dmaLast := c.val } ∧
      s.keepsFields t [DMA_CH_STAT_REQ_WITHDRAWN c.val, DMA_CH_BYTES_BYTES c.val] ∧
      (∀ k < n, t.hostMem.get (dst + x.pos + k) = s.hostMem.get (src + x.pos + k)) ∧
      (∀ a, a < dst + x.pos ∨ dst + x.pos + n ≤ a → t.hostMem.get a = s.hostMem.get a) ∧
      t.get (DMA_CH_BYTES_BYTES c.val) = (s.get (DMA_CH_BYTES_BYTES c.val) + n) % 2 ^ 32 ∧
      (t.ch c.val).pos = x.pos + n ∧ (t.ch c.val).commit = (decide (x.len ≤ x.pos + n) || x.commit) ∧
      (t.ch c.val).issued = true ∧ ∀ d, d ≠ c.val → t.ch d = s.ch d) ∧
  (∀ (c : Fin 64) (dreq x : Bool) (s : State), curPs s 0 ≠ 0 → exec (.burst c dreq x) s = .next (demand s 0)) ∧
  (∀ (c : Fin 64) (x : Bool) (s : State), s.fatal = false → s.halted = false → curPs s 0 = 0 → (s.ch c.val).job = true →
    rkind s c.val = 1 → (s.ch c.val).parked = false → (s.ch c.val).commit = false → (s.ch c.val).issued = true →
    ∃ t, exec (.burst c false x) s = .next t ∧ t = { s with regs := t.regs, dma := t.dma, dreq := t.dreq } ∧
      t.ch c.val = { s.ch c.val with withdrawn := true, wdrawn := true } ∧
      s.keepsFields t [DMA_CH_STAT_REQ_WITHDRAWN c.val] ∧ t.get (DMA_CH_STAT_REQ_WITHDRAWN c.val) = 1) ∧
  (∀ (c : Fin 64) (s : State), s.fatal = false → s.halted = false → (s.ch c.val).job = true →
    let i := s.get (DMA_CH_STAT_INDEX c.val)
    let result : Nat → List (Nat × Nat) := fun st => [(6, s.get (DMA_CH_BYTES_BYTES c.val)),
      (7, st * 2 ^ 27 + (s.ch c.val).wdrawn.toNat * 2 ^ 25 + (s.ch c.val).elems % 65536)]
    let ends := fun (t : State) (st : Nat) => (∀ d, d ≠ c.val → t.ch d = s.ch d) ∧
      t.ring 2 c.val = { s.ring 2 c.val with done := (s.ring 2 c.val).done ++ [(i, result st)] }
    ((s.ch c.val).issued = false → exec (.abort c) s = .next s) ∧
    ((s.ch c.val).issued = true →
      ∃ t, exec (.abort c) s = .next t ∧ t = { s with regs := t.regs, rings := t.rings, dma := t.dma } ∧ ends t 1 ∧
        t.ch c.val = { DmaCh.idle with aborted := if (s.ch c.val).commit then s.now + 1 else 0 }) ∧
    ((s.ch c.val).commit = true → (s.ch c.val).missed.1 ≠ s.now + 1 → ∃ t, exec (.commitPoint c) s = .next t ∧
      t = { s with regs := t.regs, rings := t.rings, dma := t.dma } ∧ ends t 0 ∧ t.ch c.val = DmaCh.idle) ∧
    (inTick s (s.ch c.val) = false → s.tick.startAt < s.now → s.records 0 13 → ∃ t, exec (.tickDeadline c) s = .next t ∧
      t = { s with
        regs := t.regs, rings := t.rings, dma := t.dma, srcs := t.srcs, evAt := t.evAt, vecs := t.vecs, out := t.out } ∧
      ends t 2 ∧ t.ch c.val = DmaCh.idle ∧
      t.get (DMA_CH_CNT_LATE c.val) = min (s.get (DMA_CH_CNT_LATE c.val) + 1) 65535 ∧ t.src 0 13 = .corr)) ∧
  (∀ (c : Fin 64) (s : State),
    (((s.ch c.val).job = true ∧ (s.ch c.val).commit = false) ∨
      ((s.ch c.val).job = false ∧ (s.ch c.val).aborted ≠ s.now + 1) → exec (.commitPoint c) s = .next s) ∧
    ((s.ch c.val).job = false ∨ inTick s (s.ch c.val) = true ∨ s.now ≤ s.tick.startAt → exec (.tickDeadline c) s = .next s)) ∧
  (∀ (c : Fin 64) (w : Nat) (s : State), s.fatal = false → s.halted = false → (s.ch c.val).job = false →
    (s.ring 2 c.val).done = [(s.get (DMA_CH_STAT_INDEX c.val), [(7, w)])] →
    let late : State → Prop := fun t =>
      t.ring 2 c.val = { s.ring 2 c.val with done := [(s.get (DMA_CH_STAT_INDEX c.val), [(7, putBits w 30 26 1)])] }
    (bits w 30 27 = 0 → ∃ t, exec (.abort c) s = .next t ∧ t = { s with rings := t.rings } ∧ late t) ∧
    (bits w 30 27 = 1 → (s.ch c.val).aborted = s.now + 1 → ∃ t, exec (.commitPoint c) s = .next t ∧
      t = { s with rings := t.rings, dma := t.dma } ∧ late t ∧ t.ch c.val = DmaCh.idle)) ∧
  (∀ (c : Fin 64) (hw : HostWrites) (err : Option Nat) (s : State), s.fatal = false → s.halted = false →
    (s.ch c.val).parked = false →
    ∃ t, exec (.dmaKick c ⟨hw, err⟩) s = .next t ∧ t = { s with regs := t.regs, hostMem := (s.hostWrites hw).hostMem } ∧
      s.keepsFields t [DMA_CH_STAT_KICK_PEND c.val] ∧ t.get (DMA_CH_STAT_KICK_PEND c.val) = 1) ∧
  (∀ (c : Fin 64) (hw : HostWrites) (s : State), s.fatal = false → s.halted = false → (s.ch c.val).parked = true →
    let w7 := (s.hostWrites hw).hostWord ((s.ch c.val).elem + 28)
    let malformed : Nat → Option Nat → Prop := fun cause err => ∃ t, exec (.dmaKick c ⟨hw, err⟩) s = .next t ∧ t.halted = true ∧
      t = { s with
        regs := t.regs, hostMem := (s.hostWrites hw).hostMem, vecs := t.vecs, out := t.out, haltAt := s.now } ∧
      t.get BOOT_HALT0_CAUSE = cause
    (bits w7 29 16 ≠ 0 → malformed 1 none) ∧
    (bits w7 29 16 = 0 → bits w7 30 30 = 1 → ∃ t, exec (.dmaKick c ⟨hw, none⟩) s = .next t ∧
      t = { s with dma := t.dma, hostMem := (s.hostWrites hw).hostMem } ∧
      t.ch c.val = { s.ch c.val with commit := true, parked := false }) ∧
    (bits w7 29 16 = 0 → bits w7 30 30 = 0 → bits w7 31 31 = 1 → ∃ t, exec (.dmaKick c ⟨hw, none⟩) s = .next t ∧
      t = { s with regs := t.regs, dma := t.dma, hostMem := (s.hostWrites hw).hostMem } ∧ t.ch c.val = s.ch c.val) ∧
    ∀ k, malformed 7 (some k))

/-! ### The security processor -/

/-- R400, R404, R417, R419: what an AUTHORISE request comes to, its challenge used up in any case: RESULT 2 without a challenge or with
a block that does not verify, 3 for a slot that is not Valid, 4 for a revocation that would leave no Valid slot or a full log; else the
slot is revoked, or the debug scopes open.
R405, R416 to R419, R422, R427: the mailbox commands, run only while the mailbox holds them, end with RESULT, RLEN, their output in the
buffer and BUSY = 0; the JTAG pair SEC_CHAL and SEC_RESP does the same over the scan chain; a challenge expires after 60 s; SPDM requests
are answered over DOE, and on a port once a millisecond. -/
def Obligations.SecurityProcessor : Prop :=
  (∀ (req : Bytes) (s : State),
    let op := leNat (req.take 4)
    let arg := leNat ((req.drop 4).take 4)
    let slot := beField req 8 1
    let used : State := { s with sec := { s.sec with chal := none } }
    (challenge s = none → authorise s req = (2, used)) ∧
    (∀ nonce, challenge s = some nonce →
      let holds := blockVerifies (s.slot_ slot).hash ((req.drop 16).take 5464)
        (ascii "ZB-AUTH" ++ nonce ++ ownIdh ++ req.take 8) (ascii "ZB-AUTH")
      (slotValid s slot = false → authorise s req = (3, used)) ∧
      (slotValid s slot = true → holds = false → authorise s req = (2, used)) ∧
      (slotValid s slot = true → holds = true → op = 1 →
        ((slotValid s arg = false ∨ ∀ i < 4, i ≠ arg → slotValid s i = false) → authorise s req = (4, used)) ∧
        (slotValid s arg = true → (∃ i, i < 4 ∧ i ≠ arg ∧ slotValid s i = true) →
          ∃ t, authorise s req = (0, t) ∧ t = { s with sec := t.sec } ∧ t.sec = { s.sec with chal := none, slots := t.sec.slots } ∧
            t.slot_ arg = { s.slot_ arg with revoked := true } ∧ ∀ i, i ≠ arg → t.slot_ i = s.slot_ i)) ∧
      (slotValid s slot = true → holds = true → op ≠ 1 →
        (239 ≤ logN s → authorise s req = (4, used)) ∧
        (logN s < 239 → ∃ t, authorise s req = (0, t) ∧ t.get SEC_STAT_DBG = s.get SEC_STAT_DBG ||| arg % 8 ∧
          t.sec.log = s.sec.log ++ [⟨9, arg, req⟩] ∧ t.sec.chal = none ∧
          (arg / 4 % 2 = 0 → t.sec.hsOff = s.sec.hsOff ∧ t.keys = s.keys ∧ s.keepsFields t [SEC_STAT_DBG]) ∧
          (arg / 4 % 2 = 1 → t.sec.hsOff = true ∧ t.get SEC_STAT_KEYS_ZEROED = 1 ∧
            ∀ p < 128, t.key p = KeySt.rst ∧ t.sas p = []))))) ∧
  (let ended : State → State → Nat → Bytes → Prop := fun s t result outp =>
    s.keepsFields t [SEC_MB_STAT_RESULT, SEC_MB_STAT_RLEN, SEC_MB_STAT_BUSY] ∧ t.get SEC_MB_STAT_RESULT = result ∧
    t.get SEC_MB_STAT_RLEN = outp.length % 65536 ∧ t.get SEC_MB_STAT_BUSY = 0 ∧ t.bytes mboxA outp.length = outp ∧
    ∀ a, a < mboxA ∨ mboxA + outp.length ≤ a → t.mem.get a = s.mem.get a
  (∀ s : State, mboxRuns s 1 = true → ∃ t, exec .getCert s = .next t ∧ t = { s with regs := t.regs, mem := t.mem } ∧
    ended s t 0 (Config.cert (leNat (mboxIn s)))) ∧
  (∀ s : State, mboxRuns s 2 = true →
    let body := mboxIn s ++ logDigest s ++ leBytes 4 (logN s) ++ leBytes 4 (s.tbNs 8) ++ ownIdh ++ (logAll s).flatten
    ∃ t sig n, exec .attest s = .next t ∧ sig = ownSigns (ascii "ZB-ATTEST") body n ∧ sig.length = 3405 ∧
      t = { s with regs := t.regs, mem := t.mem, free := t.free } ∧ ended s t 0 (body ++ sig)) ∧
  (∀ s : State, mboxRuns s 3 = true → ∃ t nonce, exec .challenge s = .next t ∧ nonce.length = 32 ∧
    t = { s with regs := t.regs, mem := t.mem, free := t.free, sec := { s.sec with chal := some (nonce, s.now) } } ∧
    ended s t 0 (nonce ++ ownIdh)) ∧
  (∀ (s : State) (c : Instr) (op : Nat), (c = .revoke ∧ op = 1) ∨ (c = .debug ∧ op = 2) → mboxRuns s 4 = true →
    leNat (s.bytes mboxA 4) = op →
    let a := authorise s (mboxIn s)
    ∃ t, exec c s = .next t ∧ t = { a.2 with regs := t.regs } ∧ ended a.2 t a.1 []) ∧
  (∀ s : State, (mboxRuns s 1 = false → exec .getCert s = .next s) ∧ (mboxRuns s 2 = false → exec .attest s = .next s) ∧
    (mboxRuns s 3 = false → exec .challenge s = .next s) ∧
    ((mboxRuns s 4 = false ∨ leNat (s.bytes mboxA 4) ≠ 1) → exec .revoke s = .next s) ∧
    ((mboxRuns s 4 = false ∨ leNat (s.bytes mboxA 4) ≠ 2) → exec .debug s = .next s)) ∧
  (∀ (s : State) (n : Bytes) (t0 : Nat), s.sec.chal = some (n, t0) →
    (t0 + 60000000000 ≤ s.now → exec .challengeExpiry s = .next { s with sec := { s.sec with chal := none } }) ∧
    (s.now < t0 + 60000000000 → exec .challengeExpiry s = .next s)) ∧
  (∀ s : State, ∃ t nonce, exec .secChal s = .next t ∧ nonce.length = 32 ∧
    t = { s with
      free := t.free, sec := { s.sec with chal := some (nonce, s.now) }, jtag := { s.jtag with ir := 0x40 }
      out := s.out ++ [.reply 201 (nonce ++ ownIdh)] }) ∧
  (∀ (req : Bytes) (s : State),
    ((req.length ≠ 5480 ∨ ¬ (leNat (req.take 4) = 1 ∨ leNat (req.take 4) = 2)) →
      exec (.secResp req) s = .next { s with jtag := { s.jtag with ir := 0x41 }, out := s.out ++ [.reply 201 [1]] }) ∧
    (req.length = 5480 → (leNat (req.take 4) = 1 ∨ leNat (req.take 4) = 2) →
      let a := authorise s req
      exec (.secResp req) s =
        .next { a.2 with jtag := { s.jtag with ir := 0x41 }, out := s.out ++ [.reply 201 [b8 a.1]] })) ∧
  (∀ (req : Bytes) (s : State), s.fatal = false → req.length ≤ 4096 →
    let a := spdmAnswer s (s.spdm 0) req (Config.freeNat s.free)
    ∃ t, exec (.spdmRequest none req) s = .next t ∧
      t = { s with
        regs := t.regs, pwr := t.pwr, free := s.free + 1, sec := { s.sec with spdm := t.sec.spdm }
        out := s.out ++ [.reply 202 (spdmFit a.1)] } ∧
      t.spdm 0 = a.2 ∧ ∀ c, c ≠ 0 → t.spdm c = s.spdm c) ∧
  (∀ (q : SpdmFrom) (req : Bytes) (s u : State), let p := q.port.val
    req.length ≤ 4096 → macUp s p = true → q.ver = 1 → timeLeader s = true →
    lineTakes s p (typedHead 0x88B6 [1, 1]) q.varRx q.sec = (true, u) →
    ((u.port p).spdmAt = 0 ∨ (u.port p).spdmAt + 1000000 ≤ s.now + 1) → canSend u p = true → curPs u (portK p) = 0 →
    inFlight u p = none → (u.port p).jobs = [] →
    let a := spdmAnswer s (s.spdm (p + 1)) req (Config.freeNat u.free)
    let f := padFrame (secFrame u q.sa.toNat 1 (spdmFit a.1))
    secTxOk u p f = true →
    ∃ t, exec (.spdmRequest (some q) req) s = .next t ∧
      t = { u with
        regs := t.regs, free := u.free + 2, ports := t.ports, txPn := t.txPn, sec := { u.sec with spdm := t.sec.spdm }
        out := u.out ++ [.frame p (protect (secTxOf u p f) f)] } ∧
      t.spdm (p + 1) = a.2 ∧ (t.port p).spdmAt = s.now + 1 ∧ ∀ j, j ≠ p → t.port j = u.port j) ∧
  (∀ (q : SpdmFrom) (req : Bytes) (s : State), let p := q.port.val
    (q.ver ≠ 1 → exec (.spdmRequest (some q) req) s = .next s) ∧
    (macUp s p = true → q.ver = 1 → req.length ≤ 4096 → (s.port p).spdmAt ≠ 0 → s.now + 1 < (s.port p).spdmAt + 1000000 →
      exec (.spdmRequest (some q) req) s = .next (lineTakes s p (typedHead 0x88B6 [1, 1]) q.varRx q.sec).2)) ∧
  (∀ (s : State) (x : SpdmSt) (req : Bytes) (n : Nat),
    (beField req 1 1 = 0x84 → (spdmAnswer s x req n).1 = [0x10, 0x04, 0, 0, 0, 1, 0, 0x12]) ∧
    (beField req 1 1 = 0xE1 → beField req 0 1 = 0x12 → x.phase = 1 →
      leNat (((spdmAnswer s x req n).1.drop 8).take 4) = 2 + 4 + 16 ∧ (spdmAnswer s x req n).2.phase = 2) ∧
    (beField req 1 1 = 0xE0 → beField req 0 1 = 0x12 → x.phase = 3 → beField req 2 1 % 2 = 0 → beField req 3 1 = 0 →
      ((spdmAnswer s x req n).1.drop 2).take 1 = [b8 (logN s)])))

/-- R407 to R410, R425, R427: the messages of a pair handshake. One of another VER is dropped (log entry 110). One from a peer that the
trust list does not hold, and one that is not valid, counts in HS_FAIL; a valid HS1 of a lower peer gives a CAK and is answered with HS2,
one of a higher peer is ignored; the answer to the port's latest HS1 gives the lower end the CAK, an answer to one before it is discarded;
an unpaired port repeats HS1 every second, and the lower end of a paired one every 24 hours. -/
def Obligations.PairHandshake : Prop :=
  let keyed : State → State → Nat → Nat → Bytes × Bytes → Prop := fun s t p e keys =>
    t.key p = { s.key p with
      hs1 := none, hs1Old := (s.key p).hs1Old ++ (s.key p).hs1.toList, eph := ([], []), cak := some keys.1, ckn := keys.2
      cakAt := s.now, oldPtp := (s.key p).cak.map (fun old => (s.now, old, (s.key p).ckn)), peers := [] } ∧
    t.get (PRT_SEC_STAT_PEER p) = e % 256 ∧ ∀ q, q ≠ p → t.key q = s.key q
  let failed : State → State → Nat → Prop := fun s t p =>
    s.onlyFields t [PRT_SEC_KEYS_HS_FAIL p, PRT_SEC_STAT_PAIR p] ∧
    t.get (PRT_SEC_KEYS_HS_FAIL p) = min (s.get (PRT_SEC_KEYS_HS_FAIL p) + 1) 65535 ∧
    t.get (PRT_SEC_STAT_PAIR p) = if s.get (PRT_SEC_STAT_PAIR p) = 2 then 2 else 3
  let free : State → Nat → Prop := fun s p =>
    canSend s p = true ∧ curPs s (portK p) = 0 ∧ inFlight s p = none ∧ (s.port p).jobs = []
  (∀ (p : Port) (x : SecBody) (s : State), (hsUp s p.val = false ∨ x.ver ≠ 1) →
    exec (.hs1 p x) s = .next s ∧ exec (.hs2 p x) s = .next s) ∧
  (∀ (p : Port) (s : State), hsUp s p.val = false → exec (.hs1Resend p) s = .next s ∧ exec (.rehandshake p) s = .next s) ∧
  (∀ (p : Port) (x : SecBody) (pay : Bytes) (typ : Nat) (s u : State), hsTakes s p.val typ x = (some pay, u) →
    pay = x.payload.take x.len.toNat ∧ x.ver = 1) ∧
  (∀ (p : Port) (x : SecBody) (pay : Bytes) (s u : State), trustOf u p.val (hsIdh pay) = none →
    (hsTakes s p.val 2 x = (some pay, u) → ∃ t, exec (.hs1 p x) s = .next t ∧ failed u t p.val) ∧
    (hsTakes s p.val 3 x = (some pay, u) → ∃ t, exec (.hs2 p x) s = .next t ∧ failed u t p.val)) ∧
  (∀ (p : Port) (x : SecBody) (pay : Bytes) (e : Nat) (s u : State), hsTakes s p.val 2 x = (some pay, u) →
    trustOf u p.val (hsIdh pay) = some e →
    ((pay.length ≠ 6773 ∨ hsIdh pay = ownIdh ∨ hsVerifies pay (pay.take 3368) (ascii "ZB-HS1") 3368 = false) →
      ∃ t, exec (.hs1 p x) s = .next t ∧ failed u t p.val) ∧
    (pay.length = 6773 → hsIdh pay ≠ ownIdh → hsVerifies pay (pay.take 3368) (ascii "ZB-HS1") 3368 = true →
      (beNat ownIdh < beNat (hsIdh pay) → exec (.hs1 p x) s = .next u) ∧
      (beNat (hsIdh pay) ≤ beNat ownIdh → free u p.val →
        let n := Config.freeNat u.free
        ∃ t, exec (.hs1 p x) s = .next t ∧
          t = { u with
            regs := t.regs, keys := t.keys, ports := t.ports, free := t.free
            out := u.out ++ [.frame p.val (padFrame (secFrame u hsDa 3 (hs2Payload pay n)))] } ∧
          keyed u t p.val e (keysAtHigher pay n)))) ∧
  (∀ (p : Port) (x : SecBody) (pay : Bytes) (e : Nat) (s u : State), hsTakes s p.val 3 x = (some pay, u) →
    trustOf u p.val (hsIdh pay) = some e →
    (∀ h, (u.key p.val).hs1 = some h → hs2Answers pay h = true →
      (beNat (hsIdh pay) < beNat ownIdh → exec (.hs2 p x) s = .next u) ∧
      (beNat ownIdh ≤ beNat (hsIdh pay) →
        ∃ t, exec (.hs2 p x) s = .next t ∧ t = { u with regs := t.regs, keys := t.keys } ∧
          u.keepsFields t [PRT_SEC_STAT_PEER p.val] ∧ keyed u t p.val e (keysAtLower h (u.key p.val).eph pay))) ∧
    ((∀ h, (u.key p.val).hs1 = some h → hs2Answers pay h = false) →
      ((∃ h ∈ (u.key p.val).hs1Old, hs2Answers pay h = true) → exec (.hs2 p x) s = .next u) ∧
      ((∀ h ∈ (u.key p.val).hs1Old, hs2Answers pay h = false) → ∃ t, exec (.hs2 p x) s = .next t ∧ failed u t p.val))) ∧
  (∀ (p : Port) (c : Instr) (s : State), hsUp s p.val = true → free s p.val →
    (c = .hs1Resend p ∧ s.get (PRT_SEC_STAT_PAIR p.val) ≠ 2 ∧ (s.key p.val).hs1At + 1000000000 ≤ s.now) ∨
      (c = .rehandshake p ∧ s.get (PRT_SEC_STAT_PAIR p.val) = 2 ∧
        max (s.key p.val).cakAt (s.key p.val).hs1At + 86400000000000 ≤ s.now ∧
        beNat ownIdh ≤ beNat ((tget [] s.sec.trust (s.get (PRT_SEC_STAT_PEER p.val))).take 48)) →
    let n := Config.freeNat s.free
    let pay := hs1Payload n
    ∃ t, exec c s = .next t ∧
      t = { s with
        regs := t.regs, keys := t.keys, ports := t.ports, free := t.free
        out := s.out ++ [.frame p.val (padFrame (secFrame s hsDa 2 pay))] } ∧
      t.key p.val = { s.key p.val with
        hs1 := some pay, hs1Old := (s.key p.val).hs1Old ++ (s.key p.val).hs1.toList, hs1At := s.now, eph := hsSecrets n } ∧
      pay.length = 6773) ∧
  (∀ (p : Port) (s : State),
    ((s.get (PRT_SEC_STAT_PAIR p.val) = 2 ∨ s.now < (s.key p.val).hs1At + 1000000000) → exec (.hs1Resend p) s = .next s) ∧
    ((s.get (PRT_SEC_STAT_PAIR p.val) ≠ 2 ∨ s.now < max (s.key p.val).cakAt (s.key p.val).hs1At + 86400000000000) →
      exec (.rehandshake p) s = .next s))

/-- R411, R415: key agreement. An MKPDU that verifies pairs its port and makes its sender a live peer where its receive channel is free, and
may bring the key server's SAK; a hello goes out every 2 s; a peer silent for 6 s ends the association; the key server distributes a new
SAK when the packet numbers run out; 10 s after a new CAK the PTP key before it ends. -/
def Obligations.KeyAgreement : Prop :=
  (∀ (p : Port) (sc : Fin 16) (prio : Byte) (sci : Nat) (sak : Option SakIn) (x : MkaEnd) (s : State),
    (macUp s p.val = false → exec (.mkpdu p sc prio sci sak x) s = .next s) ∧
    (∀ u, lineTakes s p.val (typedHead 0x888E []) x.varRx ⟨false, 0, 0, 0⟩ = (true, u) →
      (x.icvOk = false ∨ (u.key p.val).cak = none) → macUp s p.val = true → exec (.mkpdu p sc prio sci sak x) s = .next u)) ∧
  (∀ (p : Port) (sc : Fin 16) (prio : Byte) (sci : Nat) (sak : Option SakIn) (varRx : Nat) (s u : State),
    macUp s p.val = true → lineTakes s p.val (typedHead 0x888E []) varRx ⟨false, 0, 0, 0⟩ = (true, u) →
    (u.key p.val).cak.isSome = true → (s.get (PRT_SEC_STAT_PAIR p.val) = 2 ∨ isUlc u p.val = false) →
    let k := u.key p.val
    let peers := hearPeer k.peers ⟨sc.val, prio.toNat, sci, s.now⟩
    let server := isServer (u.setKey p.val { k with peers := peers }) p.val
    (((∀ y ∈ k.peers, y.sci ≠ sci) → (∀ y ∈ k.peers, y.sc ≠ sc.val) → peers = k.peers ++ [⟨sc.val, prio.toNat, sci, s.now⟩]) ∧
      ((∀ y ∈ k.peers, y.sci ≠ sci) → (∃ y ∈ k.peers, y.sc = sc.val) → peers = k.peers)) ∧
    (((server = true ∧ peers.length = k.peers.length) ∨ (server = false ∧ sak = none) ∨
        (server = false ∧ s.get (PRT_SEC_CFG_EN p.val) = 0)) →
      ∃ t, exec (.mkpdu p sc prio sci sak ⟨true, varRx⟩) s = .next t ∧ t = { u with regs := t.regs, keys := t.keys } ∧
        u.keepsFields t [PRT_SEC_STAT_PAIR p.val] ∧ t.get (PRT_SEC_STAT_PAIR p.val) = 2 ∧
        t.key p.val = { k with peers := peers }) ∧
    (∀ y : SakIn, server = false → sak = some y → s.get (PRT_SEC_CFG_EN p.val) = 1 → u.get (PRT_SEC_STAT_TXSA p.val) = 0 →
      ∃ t, exec (.mkpdu p sc prio sci sak ⟨true, varRx⟩) s = .next t ∧
        t = { u with regs := t.regs, keys := t.keys, rxSas := t.rxSas, txPn := t.txPn } ∧
        t.key p.val = { k with peers := peers, an := y.an.val, sak := y.key } ∧
        t.sas p.val = peers.map (fun x => ⟨x.sc, y.an.val, 1⟩) ∧ tget 0 t.txPn p.val = 1 ∧
        t.get (PRT_SEC_STAT_PAIR p.val) = 2 ∧ t.get (PRT_SEC_STAT_TXSA p.val) = 1 ∧
        t.get (PRT_SEC_STAT_TXAN p.val) = y.an.val ∧
        t.get (PRT_SEC_KEYS_REKEYS p.val) = min (u.get (PRT_SEC_KEYS_REKEYS p.val) + 1) 65535)) ∧
  (∀ (p : Port) (s : State), macUp s p.val = true → (s.key p.val).cak.isSome = true →
    (s.key p.val).helloAt + 2000000000 ≤ s.now → curPs s (portK p.val) = 0 → inFlight s p.val = none → (s.port p.val).jobs = [] →
    ∃ t, exec (.mkaHello p) s = .next t ∧
      t = { s with
        regs := t.regs, keys := t.keys, ports := t.ports, free := t.free, out := s.out ++ [.mka p.val none] } ∧
      t.key p.val = { s.key p.val with helloAt := s.now }) ∧
  (∀ (p : Port) (s : State), ((s.key p.val).cak = none ∨ s.now < (s.key p.val).helloAt + 2000000000) →
    exec (.mkaHello p) s = .next s) ∧
  (∀ (p : Port) (sc : Fin 16) (x : PeerSt) (s : State), s.fatal = false →
    (s.key p.val).peers.find? (fun y => y.sc == sc.val) = some x →
    (s.now < x.heard + 6000000000 → exec (.mkaLifeTime p sc) s = .next s) ∧
    (x.heard + 6000000000 ≤ s.now → ∃ t, exec (.mkaLifeTime p sc) s = .next t ∧
      t = { s with
        regs := t.regs, keys := t.keys, rxSas := t.rxSas, txPn := t.txPn, ports := t.ports, pwr := t.pwr, out := t.out
        free := t.free } ∧
      t.sas p.val = [] ∧ tget 0 t.txPn p.val = 0 ∧ (t.key p.val).cak = none ∧ (t.key p.val).peers = [] ∧
      t.get (PRT_SEC_STAT_TXSA p.val) = 0 ∧
      ((pairs s p.val = false ∨ s.get (PRT_STAT_LINK p.val) = 0) → t.key p.val = KeySt.rst ∧ t.out = s.out))) ∧
  (∀ (p : Port) (s : State), macUp s p.val = true → s.get (PRT_SEC_CFG_EN p.val) = 1 →
    s.get (PRT_SEC_STAT_TXSA p.val) = 1 → rekeyPn s p.val ≤ tget 0 s.txPn p.val → isServer s p.val = true →
    (s.key p.val).peers ≠ [] → curPs s (portK p.val) = 0 → inFlight s p.val = none → (s.port p.val).jobs = [] →
    ∃ t, exec (.rekey p) s = .next t ∧
      t = { s with
        regs := t.regs, keys := t.keys, rxSas := t.rxSas, txPn := t.txPn, ports := t.ports, free := t.free
        out := s.out ++ [.mka p.val (some (((s.key p.val).an + 1) % 4))] } ∧
      (t.key p.val).an = ((s.key p.val).an + 1) % 4 ∧
      (t.key p.val).sak = fit (sakBytes s p.val) (Config.secretBytes 11 (Config.freeNat s.free)) ∧
      t.get (PRT_SEC_STAT_TXAN p.val) = ((s.key p.val).an + 1) % 4 ∧ tget 0 t.txPn p.val = 1 ∧
      t.get (PRT_SEC_KEYS_REKEYS p.val) = min (s.get (PRT_SEC_KEYS_REKEYS p.val) + 1) 65535) ∧
  (∀ (p : Port) (s : State), (s.get (PRT_SEC_STAT_TXSA p.val) = 0 ∨ tget 0 s.txPn p.val < rekeyPn s p.val ∨
      isServer s p.val = false) → exec (.rekey p) s = .next s) ∧
  (∀ (p : Port) (t0 : Nat) (old ckn : Bytes) (s : State), s.fatal = false →
    (s.key p.val).oldPtp = some (t0, old, ckn) →
    (t0 + 10000000000 ≤ s.now → ∃ t, exec (.ptpKeyExpiry p) s = .next t ∧ t = { s with keys := t.keys } ∧
      t.key p.val = { s.key p.val with oldPtp := none } ∧ ∀ q, q ≠ p.val → t.key q = s.key q) ∧
    (s.now < t0 + 10000000000 → exec (.ptpKeyExpiry p) s = .next s))

/-! ### Power -/

/-- R460 to R464, R466: the state chosen for a port or a unit above one is the deepest allowed; an evaluation begins the transition to it,
a wake the one to PS0 in time for the next event, or where PS0 is the choice; a complete transition is what CUR then shows, of a port with
its active lanes, no child's wake before its parent's and no parent's entry before its children's; the controller acts only from COMMIT on,
outside the fatal state and a reset of the unit. -/
def Obligations.PowerTransitions : Prop :=
  (∀ (k : Nat) (s : State), levelOf k ≠ 1 →
    (psChoice s k ≠ 0 → psAllowed s k (psChoice s k) = true) ∧ psChoice s k ≤ 4 ∧
    ∀ y, psChoice s k < y → y ≤ 4 → psAllowed s k y = false) ∧
  (∀ (u : Fin 661) (s : State), (pwrRuns s u.val = false ∨ (s.toPs u.val).getD (curPs s u.val) = psChoice (evalView s) u.val) →
    exec (.evaluation u) s = .next s) ∧
  (∀ (u : Fin 661) (s : State), pwrRuns s u.val = true → (s.toPs u.val).getD (curPs s u.val) ≠ psChoice (evalView s) u.val →
    let x := psChoice (evalView s) u.val
    ∃ t, exec (.evaluation u) s = .next t ∧ t = { s with regs := t.regs, pwr := t.pwr } ∧
      t.toPs u.val = some x ∧ t.get (SHELL_PWR_BUSY (shellBase u.val)) = 1 ∧ curPs t u.val = curPs s u.val ∧
      (curPs s u.val ≤ x → (∀ k, k ≠ u.val → t.toPs k = s.toPs k) ∧
        s.keepsFields t (SHELL_PWR_BUSY (shellBase u.val) ::
          if levelOf u.val = 2 then (activeLanes s (u.val - 21)).map (fun l => SHELL_PWR_BUSY (shellBase (laneK l))) else [])) ∧
      (levelOf u.val = 2 → 3 ≤ max x (curPs s u.val) →
        ∀ l ∈ activeLanes s (u.val - 21), t.get (SHELL_PWR_BUSY (shellBase (laneK l))) = 1)) ∧
  (∀ (k : Nat) (s : State), s.nextevWas = [] → psChoice (evalView s) k = psChoice s k) ∧
  (∀ (u : Fin 661) (s : State), pwrRuns s u.val = true → levelOf u.val ≠ 1 → curPs s u.val ≠ 0 →
    ((∃ d, unitDist s u.val = some d ∧ d ≤ s.get PWR_CTL_WAKE_MARGIN + wakeNs (curPs s u.val)) ∨ psChoice s u.val = 0) →
    ∃ t, exec (.wake u) s = .next t ∧ t = { s with regs := t.regs, pwr := t.pwr } ∧ t.toPs u.val = some 0 ∧
      t.get (SHELL_PWR_BUSY (shellBase u.val)) = 1 ∧ curPs t u.val = curPs s u.val ∧
      ∀ a ∈ [parentOf u.val, parentOf (parentOf u.val), parentOf (parentOf (parentOf u.val))],
        curPs s a ≠ 0 → t.toPs a = some 0) ∧
  (∀ (u : Fin 661) (s : State), (pwrRuns s u.val = false ∨ curPs s u.val = 0 ∨ levelOf u.val = 1 ∨
      (psChoice s u.val ≠ 0 ∧ ∀ d, unitDist s u.val = some d → s.get PWR_CTL_WAKE_MARGIN + wakeNs (curPs s u.val) < d)) →
    exec (.wake u) s = .next s) ∧
  (∀ (u : Fin 661) (x : Nat) (s : State), pwrRuns s u.val = true → s.toPs u.val = some x → x ≤ 4 →
    (x < curPs s u.val → u.val = 0 ∨ curPs s (parentOf u.val) ≤ x) →
    (curPs s u.val ≤ x → ∀ c ∈ boundKids s u.val, x ≤ curPs s c) →
    ∃ t, exec (.transitionComplete u) s = .next t ∧
      t = { s with regs := t.regs, pwr := t.pwr, quiet := t.quiet, out := t.out } ∧
      curPs t u.val = x ∧ t.get (SHELL_PWR_BUSY (shellBase u.val)) = 0 ∧ t.toPs u.val = none ∧
      (∀ k, k ≠ u.val → t.toPs k = s.toPs k) ∧
      (levelOf u.val ≠ 2 → t.quiet = s.quiet ∧ t.out = s.out ∧
        s.keepsFields t [SHELL_PWR_CUR (shellBase u.val), SHELL_PWR_BUSY (shellBase u.val)]) ∧
      (¬ (curPs s u.val = 3 ∧ x < 3 ∧ s.get (PRT_STAT_STATE (u.val - 21)) = stAn) → t.quiet = s.quiet ∧ t.out = s.out) ∧
      (levelOf u.val = 2 → ∀ l ∈ activeLanes s (u.val - 21), t.get (SHELL_PWR_BUSY (shellBase (laneK l))) = 0 ∧
        curPs t (laneK l) = if linked s (u.val - 21) = true then (if x = 3 then 3 else 0)
          else if 3 ≤ max (curPs s u.val) x then x else max x (curPs s (laneK l)))) ∧
  (∀ (u : Fin 661) (s : State), s.toPs u.val = none → exec (.transitionComplete u) s = .next s) ∧
  (∀ (u : Fin 661) (x : Nat) (s : State), s.toPs u.val = some x →
    ((x < curPs s u.val ∧ u.val ≠ 0 ∧ x < curPs s (parentOf u.val)) ∨
      (curPs s u.val ≤ x ∧ ∃ c ∈ boundKids s u.val, curPs s c < x)) →
    exec (.transitionComplete u) s = .next s)

/-! ### Side interfaces -/

/-- R531 to R533, R416, R417, R454: SMBus reads answer with data and packet error code once the collector runs, and change nothing but
FLT_VCORE; a process call whose own packet error code is wrong gets no answer; the JTAG instructions select their code, IDCODE shifts the device's
code out, BYPASS its bit, and the boundary-scan ones, which drive the pins and capture them (log entry 27), are offered until COMMIT,
after it under the debug scope BSCAN. How the packet error code is computed is presumed (log entry 26). -/
def Obligations.SideInterfaces : Prop :=
  (∀ s : State, s.collector = true →
    let code := fun (c : Bytes) (wire : Bytes) => [pec (smbWr s :: c ++ smbRd s :: wire)]
    let temp := leBytes 2 (s.get FLT_TEMP_T)
    let stat := [b8 (1 + 2 * s.fatal.toNat + 4 * getField (barRead s FLT_PIN_MASK) 31 1)]
    exec .readTemperature s = .next { s with out := s.out ++ [.reply 200 (temp ++ code [0x01] temp)] } ∧
    exec .readStatus s = .next { s with out := s.out ++ [.reply 200 (stat ++ code [0x03] stat)] } ∧
    ∀ (off : Word) (c : Option Byte),
      let call := [0x10, 4] ++ leBytes 4 off.toNat
      (c.any (fun b => b != pec (smbWr s :: call)) = true → exec (.bar0Read ⟨off, c⟩) s = .next s) ∧
      (c.any (fun b => b != pec (smbWr s :: call)) = false → ∃ r v, exec (.bar0Read ⟨off, c⟩) s = .next { s with
        out := s.out ++ [.reply 200 (r :: leBytes 4 v ++ code (call ++ c.toList) (5 :: r :: leBytes 4 v))] } ∧
      (off.toNat % 4 ≠ 0 → r = 1 ∧ v = 0) ∧
      (off.toNat % 4 = 0 → smbWindow off.toNat = true → r = 0 ∧ v = (barRead s off.toNat).toNat) ∧
      (off.toNat % 4 = 0 → smbWindow off.toNat = false → r = 2 ∧ v = 0))) ∧
  (∀ (mv : BitVec 16) (s : State), ∃ t, exec (.readVcore mv) s = .next t ∧ t = { s with regs := t.regs, out := t.out } ∧
    s.keepsFields t [FLT_VCORE_MV] ∧ t.get FLT_VCORE_MV = mv.toNat ∧
    (s.collector = true → t.out = s.out ++
      [.reply 200 (leBytes 2 mv.toNat ++ [pec (smbWr s :: 0x02 :: smbRd s :: leBytes 2 mv.toNat)])]) ∧
    (s.collector = false → t.out = s.out)) ∧
  (∀ (x : SmbCall) (s : State), s.collector = false →
    exec .readTemperature s = .next s ∧ exec .readStatus s = .next s ∧ exec (.bar0Read x) s = .next s) ∧
  (∀ s : State, exec .clockLowTimeout s = .next s) ∧
  (∀ s : State, exec .idcode s = .next { s with
    jtag := { s.jtag with ir := 1 }, out := s.out ++ [.reply 201 [0x67, 0x8D, 0x12, 0xB5]] }) ∧
  (∀ s : State, exec .bypass s = .next { s with jtag := { s.jtag with ir := 255 }, out := s.out ++ [.reply 201 [0]] }) ∧
  (∀ (v : Nat) (s : State), (s.locked = false ∨ s.get SEC_STAT_DBG % 2 = 1) → ∃ b,
    (∀ (c : Instr) (code : Nat), (c = .extest ∧ code = 3) ∨ (c = .extestPulse ∧ code = 4) ∨ (c = .extestTrain ∧ code = 5) →
      exec c s = .next { s with
        jtag := { s.jtag with ir := code }, free := s.free + 1, out := s.out ++ [.scan code s.jtag.latch, .reply 201 b] }) ∧
    exec (.samplePreload v) s = .next { s with jtag := ⟨2, v⟩, free := s.free + 1, out := s.out ++ [.reply 201 b] }) ∧
  (∀ (v : Nat) (s : State), s.locked = true → s.get SEC_STAT_DBG % 2 = 0 → ∀ c ∈ [Instr.extest, .extestPulse, .extestTrain, .samplePreload v],
    exec c s = .next { s with jtag := { s.jtag with ir := 255 }, out := s.out ++ [.reply 201 [0]] })

/-! ### The boot engine -/

/-- R402, R403, R471 to R474, R476 to R478, R487 to R489, R492: GO and RESTART are accepted in STATE 0 alone, unless a warm device reset wins;
an accepted one enters STATE 1, and GO undoes the BAR2 writes of its clock; the engine then verifies the staged image (log entry 72) and
executes its first instruction next, or ends the run with the START code of the first check that fails; a retained restart that finds no
retained image leaves STATE 0. -/
def Obligations.BootStarts : Prop :=
  (∀ s : State, s.fatal = false → s.evNow warmK = false → s.get BOOT_STATE_STATE ≠ 0 →
    ∃ t, exec .go s = .next t ∧ exec (.retainedRestart true) s = .next t ∧ s.onlyFields t [BOOT_CTL_REFUSED] ∧
      t.get BOOT_CTL_REFUSED = 1) ∧
  (∀ s : State, (s.fatal = true ∨ s.evNow warmK = true) → exec .go s = .next s ∧ exec (.retainedRestart true) s = .next s) ∧
  (∀ s : State, s.fatal = false → s.evNow warmK = false → s.get BOOT_STATE_STATE = 0 →
    ∃ t, exec .go s = .next t ∧ t = { s with regs := t.regs, hostLocked := true, mem := (unwriteBar2 s).mem } ∧
      s.keepsFields t [BOOT_CTL_REFUSED, BOOT_STATUS_START, BOOT_STATE_RESTARTED, BOOT_STATE_STATE] ∧
      t.get BOOT_STATE_STATE = 1 ∧ t.get BOOT_STATUS_START = 1 ∧ t.get BOOT_STATE_RESTARTED = 0 ∧ t.get BOOT_CTL_REFUSED = 0) ∧
  (∀ s : State, s.boot.wrote.1 ≠ s.now → unwriteBar2 s = s) ∧
  (∀ s : State, s.fatal = false → s.get BOOT_STATE_STATE = 1 → s.get BOOT_STATE_RESTARTED = 0 →
    s.mem.getLE 0x4000000 4 ≠ 0x4953425A →
    ∃ t, bootSettle s = t ∧ t = { s with regs := t.regs } ∧ t.get BOOT_STATUS_START = 0x0101 ∧
      t.get BOOT_STATE_STATE = 6 ∧ t.get BOOT_ERR_OFS_OFS = 0) ∧
  (∀ (code ofs : Nat) (s : State), s.fatal = false → s.get BOOT_STATE_STATE = 1 → s.get BOOT_STATE_RESTARTED = 0 →
    (step1 s (bar2A 0) = some (code, ofs) ∨ (step1 s (bar2A 0) = none ∧ steps2to6 s = some (code, ofs))) →
    s.onlyFields (bootSettle s) [BOOT_STATUS_START, BOOT_STATE_STATE, BOOT_ERR_OFS_OFS, SEC_STAT_RUNNING] ∧
      (bootSettle s).get BOOT_STATUS_START = code % 65536 ∧ (bootSettle s).get BOOT_STATE_STATE = 6 ∧
      (bootSettle s).get BOOT_ERR_OFS_OFS = ofs % 2 ^ 32) ∧
  (∀ (base : Nat) (s : State), s.fatal = false → s.get BOOT_STATE_STATE = 1 →
    ((s.get BOOT_STATE_RESTARTED = 1 ∧ base = retainedA) ∨
      (s.get BOOT_STATE_RESTARTED = 0 ∧ base = bar2A 0 ∧ step1 s base = none ∧ steps2to6 s = none)) → logN s < 239 →
    let slot := s.mem.getLE (base + 6) 1
    ∃ t, bootSettle s = t ∧
      t = { s with
        regs := t.regs, boot := { s.boot with base := base, pos := 5528, waitEnd := 0 }
        sec := { s.sec with log := s.sec.log ++ [⟨3, slot, s.bytes base (imgLen s base)⟩] } } ∧
      s.keepsFields t [BOOT_STATE_STATE, SEC_STAT_RUNNING, SEC_STAT_SLOT] ∧ t.get BOOT_STATE_STATE = 2 ∧
      t.get SEC_STAT_SLOT = slot % 4 ∧ t.get SEC_STAT_RUNNING = 1) ∧
  (∀ (ok : Bool) (s : State), s.fatal = false → s.evNow warmK = false → s.get BOOT_STATE_STATE = 0 →
    s.get BOOT_STATE_RETAINED = 0 →
    ∃ t, exec (.retainedRestart ok) s = .next t ∧ s.onlyFields t [BOOT_CTL_REFUSED, BOOT_STATUS_START] ∧
      t.get BOOT_CTL_REFUSED = 1 ∧ t.get BOOT_STATUS_START = 0x0901) ∧
  (∀ s : State, s.fatal = false → s.evNow warmK = false → s.get BOOT_STATE_STATE = 0 → s.get BOOT_STATE_RETAINED = 1 →
    slotValid s (s.get BOOT_STATE_RSLOT) = true →
    ∃ t, exec (.retainedRestart true) s = .next t ∧ t = { s with regs := t.regs, hostLocked := true } ∧
      t.get BOOT_STATUS_START = 1 ∧ t.get BOOT_STATE_STATE = 1 ∧ t.get BOOT_STATE_RESTARTED = 1)

/-- R475, R476, R478: the instructions of the boot stream that write: WRITE and WRITE_BLOCK (here to words of the port and lane blocks, which
have no side effects), LOAD_STORE with the parity the device computes, the bindings, TRUST and CLAIM_OWNER, whose marker follows its hash at
the end of the clock (R399; log entry 72); each moves on to the next instruction, and none acts while another one is next. -/
def Obligations.BootWrites : Prop :=
  let next : State → State → Nat → Prop := fun s t k => t.boot = { s.boot with pos := s.boot.pos + 4 * k }
  let taken : State → RegDesc → Word → Word → Word → Prop := fun s r old new v =>
    ∀ i < 32, new.getLsbD i = if r.rw.testBit i || (fieldsOpen s true && r.lk.testBit i) then v.getLsbD i
      else old.getLsbD i && !(v.getLsbD i && r.w1c.testBit i)
  (∀ (r : RegDesc) (s : State), bootAt s 1 = true → bootW s 0 % 4 = 0 → 0x100000 ≤ bootW s 1 → bootW s 1 < 0x300000 →
    regDesc (bootW s 1) = some r →
    ∃ t, exec .write s = .next t ∧ t = { s with regs := t.regs, boot := t.boot } ∧ next s t 3 ∧
      taken s r (rword s.regs (bootW s 1)) (rword t.regs (bootW s 1)) (w32 (bootW s 2)) ∧
      ∀ o, o ≠ bootW s 1 → rword t.regs o = rword s.regs o) ∧
  (∀ s : State, bootAt s 2 = true →
    let n := bootW s 0 % 65536
    0x100000 ≤ bootW s 1 → bootW s 1 + 4 * n ≤ 0x300000 →
    ∃ t, exec .writeBlock s = .next t ∧ t = { s with regs := t.regs, boot := t.boot } ∧ next s t (2 + n) ∧
      (∀ i < n, ∀ r, regDesc (bootW s 1 + 4 * i) = some r →
        taken s r (rword s.regs (bootW s 1 + 4 * i)) (rword t.regs (bootW s 1 + 4 * i)) (w32 (bootW s (2 + i)))) ∧
      ∀ o, (∀ i < n, o ≠ bootW s 1 + 4 * i) → rword t.regs o = rword s.regs o) ∧
  (∀ s : State, bootAt s 3 = true → logN s < 239 →
    let n := bits (bootW s 1) 31 16
    let a := bootW s 1 % 0x2000
    a + n ≤ 0x2000 →
    ∃ t, exec .loadStore s = .next t ∧ t = { s with cs := t.cs, sec := t.sec, boot := t.boot } ∧ next s t (2 + 4 * n) ∧
      (∀ g < 16, (bootW s 0).testBit g = true → ∀ i < n, tget (0 : BitVec 136) t.cs (csK g (a + i)) = withParity (loadWord s i)) ∧
      (∀ g b, b < 0x2000 → (¬ (g < 16 ∧ (bootW s 0).testBit g = true) ∨ b < a ∨ a + n ≤ b) →
        tget (0 : BitVec 136) t.cs (csK g b) = tget (0 : BitVec 136) s.cs (csK g b)) ∧
      ∃ e, t.sec.log = s.sec.log ++ [e] ∧ e.typ = 4) ∧
  (∀ s : State, bindAt s 0 = true → ∃ t, exec .bindTick s = .next t ∧ t = { s with regs := t.regs, boot := t.boot } ∧
    next s t 1 ∧ s.keepsFields t [GLB_TICK_CTL_TB] ∧ t.get GLB_TICK_CTL_TB = bootW s 0 % 8) ∧
  (∀ s : State, bindAt s 1 = true →
    let st := bits (bootW s 0) 19 14
    ∃ t, exec .bindHost s = .next t ∧ t = { s with regs := t.regs, boot := t.boot } ∧ next s t 2 ∧
      s.keepsFields t [CRF_ST_CFG_HOSTB st, CRF_ST_SLOTS_IN st, CRF_ST_SLOTS_OUT st] ∧ t.get (CRF_ST_CFG_HOSTB st) = 1 ∧
      t.get (CRF_ST_SLOTS_IN st) = bits (bootW s 1) 15 8 ∧ t.get (CRF_ST_SLOTS_OUT st) = bits (bootW s 1) 7 0) ∧
  (∀ s : State, bindAt s 2 = true →
    let st := bits (bootW s 0) 19 14
    ∃ t, exec .bindSp s = .next t ∧ t = { s with regs := t.regs, boot := t.boot } ∧ next s t 1 ∧
      s.keepsFields t [CRF_ST_CFG_HOSTB st, CRF_ST_CFG_SP st] ∧ t.get (CRF_ST_CFG_HOSTB st) = 0 ∧
      t.get (CRF_ST_CFG_SP st) = bits (bootW s 0) 3 0) ∧
  (∀ s : State, bootAt s 5 = true → ∃ t, exec .trust s = .next t ∧
    t = { s with sec := { s.sec with trust := t.sec.trust }, boot := t.boot } ∧ next s t 17 ∧
    tget [] t.sec.trust (bootW s 0 % 256) = s.bytes (s.boot.base + s.boot.pos + 4) 64 ∧
    ∀ i, i ≠ bootW s 0 % 256 → tget [] t.sec.trust i = tget [] s.sec.trust i) ∧
  (∀ s : State, bootAt s 6 = true → logN s < 239 →
    let slot := bootW s 0 % 4
    let h := claimHash s s.boot.base s.boot.pos
    (∀ rb, s.get BOOT_STATE_RESTARTED = 0 → ∃ t, exec (.claimOwner rb) s = .next t ∧
      t = { s with sec := { s.sec with slots := t.sec.slots }, boot := { s.boot with claim := some rb } } ∧
      t.slot_ slot = ⟨beNat h, false, false⟩ ∧ ∀ i, i ≠ slot → t.slot_ i = s.slot_ i) ∧
    (∀ rb, s.get BOOT_STATE_RESTARTED = 1 → ∃ t, exec (.claimOwner rb) s = .next t ∧
      t = { s with sec := t.sec, boot := t.boot } ∧ next s t 13 ∧ t.sec.slots = s.sec.slots ∧
      t.sec.log = s.sec.log ++ [⟨10, slot, h⟩])) ∧
  (∀ s : State, s.fatal = false → s.get BOOT_STATE_STATE = 2 → bootOp s = 6 →
    let slot := bootW s 0 % 4
    let h := claimHash s s.boot.base s.boot.pos
    (s.boot.claim = some true → ∃ t, bootSettle s = t ∧ t = { s with sec := t.sec, boot := t.boot } ∧
      t.boot = { s.boot with claim := none, pos := s.boot.pos + 52 } ∧ t.slot_ slot = ⟨beNat h, true, false⟩ ∧
      (∀ i, i ≠ slot → t.slot_ i = s.slot_ i) ∧ t.sec.log = s.sec.log ++ [⟨10, slot, h⟩]) ∧
    (s.boot.claim = some false → s.collector = true → (bootSettle s).fatal = true ∧ (bootSettle s).src 0 5 = .fatal ∧
      (bootSettle s).slot_ slot = s.slot_ slot)) ∧
  (∀ (rb : Bool) (s : State), (s.fatal = true ∨ s.get BOOT_STATE_STATE ≠ 2 ∨ s.boot.claim.isSome = true) →
    ∀ c ∈ [Instr.write, .writeBlock, .loadStore, .bindTick, .bindHost, .bindSp, .trust, .claimOwner rb, .setTime, .waitUntil,
      .ifFuse, .commit], exec c s = .next s)

/-- R475, R478, R480, R482, R489, R492: SET_TIME gives its time base the value at the end of the clock (here of a base that is not the running
tick's); WAIT_UNTIL goes on at once where its condition holds, else waits for it or for its timeout, which ends the run, and each read it
makes acts as a read of the register (R27, R29); IF_FUSE goes on, or skips N instructions; COMMIT enters STATE 4, and ends the run in STATE
5 with START 2 and the RW/L fields locked, or with the code of the first check that fails. -/
def Obligations.BootWaitsAndCommit : Prop :=
  (∀ s : State, bootAt s 7 = true →
    let w0 := bootW s 0
    let n := w0 % 8
    let k := bootW s 1 % 16
    let stamp := if bits w0 4 4 = 1 then bootArg s k * 65536 + bootArg s (k + 1) / 65536
      else bootW s 1 * 65536 + bits (bootW s 2) 31 16
    exec .setTime s = .next { s with
      steps := s.steps ++ [StepDue.mk n 0 (some stamp) none none false]
      boot := { s.boot with pos := s.boot.pos + 4 * (if bits w0 4 4 = 1 then 2 else 3) } }) ∧
  (∀ (n : TbIx) (v : Nat) (s : State), s.steps = [StepDue.mk n.val 0 (some v) none none false] →
    (n.val ≠ s.tickTb ∨ s.tick.run = false) →
    let t := applySteps s
    (t.tb n.val).acc = v % 2 ^ 48 * 2 ^ 24 ∧ t.get (TB_STAT_STEPPED n.val) = 1 ∧
      t = { s with regs := t.regs, tbs := t.tbs, rings := t.rings, hostMem := t.hostMem, steps := [] } ∧
      ∀ m, m ≠ n.val → t.tb m = s.tb m) ∧
  (∀ s : State, bits (bootW s 0) 23 20 = 0 → waitReads s = s) ∧
  (∀ s : State, bits (bootW s 0) 23 20 ≠ 0 → (bootW s 1 % 4 ≠ 0 ∨ 0x4000000 ≤ bootW s 1) →
    s.get GLB_ACC_ERR_VALID = 0 →
    s.onlyFields (waitReads s) [GLB_ACC_ERR_VALID, GLB_ACC_ERR_WRITE, GLB_ACC_ERR_OFFSET] ∧
      (waitReads s).get GLB_ACC_ERR_VALID = 1 ∧ (waitReads s).get GLB_ACC_ERR_WRITE = 0) ∧
  (∀ s : State, bootAt s 8 = true →
    let k := if bits (bootW s 0) 23 20 = 0 then 3 else 5
    (waitMet s = true → exec .waitUntil s = .next { waitReads s with boot := { s.boot with pos := s.boot.pos + 4 * k } }) ∧
    (waitMet s = false → ∃ t, exec .waitUntil s = .next t ∧ t = { waitReads s with regs := t.regs, boot := t.boot } ∧
      (waitReads s).keepsFields t [BOOT_STATE_STATE] ∧ t.get BOOT_STATE_STATE = 3 ∧
      t.boot = { s.boot with waitEnd := s.now + 1000 * waitTmo s })) ∧
  (∀ s : State, bootWaits s = true → waitMet s = true → bootOp s = 8 →
    ∃ t, exec .waitUntilMet s = .next t ∧ exec .waitUntilTimeout s = .next (if s.now < s.boot.waitEnd then s else t) ∧
      t = { waitReads s with regs := t.regs, boot := t.boot } ∧
      (waitReads s).keepsFields t [BOOT_STATE_STATE] ∧ t.get BOOT_STATE_STATE = 2 ∧
      t.boot = { s.boot with pos := s.boot.pos + 4 * (if bits (bootW s 0) 23 20 = 0 then 3 else 5) }) ∧
  (∀ s : State, (bootWaits s = false → exec .waitUntilMet s = .next s) ∧
    (bootWaits s = true → waitMet s = false → exec .waitUntilMet s = .next (waitReads s))) ∧
  (∀ s : State, bootWaits s = true → waitMet s = false → s.boot.waitEnd ≤ s.now →
    ∃ t, exec .waitUntilTimeout s = .next t ∧
      (waitReads s).onlyFields t [BOOT_STATUS_START, BOOT_STATE_STATE, BOOT_ERR_OFS_OFS, BOOT_ERR_ARG_ARG, SEC_STAT_RUNNING] ∧
      t.get BOOT_STATUS_START = 0x0703 ∧ t.get BOOT_STATE_STATE = 6 ∧ t.get BOOT_ERR_OFS_OFS = s.boot.pos % 2 ^ 32 ∧
      t.get BOOT_ERR_ARG_ARG = waitTmo s % 2 ^ 32) ∧
  (∀ s : State, (bootWaits s = false ∨ s.now < s.boot.waitEnd) → exec .waitUntilTimeout s = .next s) ∧
  (∀ s : State, bootAt s 9 = true →
    let w0 := bootW s 0
    let same := fuseField s (bits w0 23 16) = bits w0 15 8
    ((same ∧ bits w0 7 7 = 0) ∨ (¬ same ∧ bits w0 7 7 = 1) →
      exec .ifFuse s = .next { s with boot := { s.boot with pos := s.boot.pos + 8 } }) ∧
    ((same ∧ bits w0 7 7 = 1) ∨ (¬ same ∧ bits w0 7 7 = 0) →
      exec .ifFuse s = .next { s with
        boot := { s.boot with pos := s.boot.pos + 8 + 4 * skipWords s (bootW s 1 % 65536) (s.boot.pos + 8) } })) ∧
  (∀ s : State, bootAt s 10 = true → ∃ t, exec .commit s = .next t ∧ s.onlyFields t [BOOT_STATE_STATE] ∧
    t.get BOOT_STATE_STATE = 4) ∧
  (∀ (code arg : Nat) (s : State), s.fatal = false → s.get BOOT_STATE_STATE = 4 → commitFault s = some (code, arg) →
    code ≠ 0x0705 →
    let t := bootSettle s
    s.onlyFields t [BOOT_STATUS_START, BOOT_STATE_STATE, BOOT_ERR_OFS_OFS, BOOT_ERR_ARG_ARG, SEC_STAT_RUNNING] ∧
      t.get BOOT_STATUS_START = code % 65536 ∧ t.get BOOT_STATE_STATE = 6 ∧ t.get BOOT_ERR_ARG_ARG = arg % 2 ^ 32) ∧
  (∀ s : State, s.fatal = false → s.get BOOT_STATE_STATE = 4 → commitFault s = none →
    (bootSettle s).get BOOT_STATUS_START = 2 ∧ (bootSettle s).get BOOT_STATE_STATE = 5 ∧ (bootSettle s).locked = true)

/-! ### Compound nodes -/

/-- R497, R498, R502, R504, R507, R508, R510, R512: over a link that is up, a time word gives a follower its offset, or its join; a
summary gives the mirror of its member and shows it present, and a partition where the member sees more; a power report sets what
software asked there; a silent pair and a silent member are events; a reset of a mirror reaches the member, or the device itself; time
words and summaries leave every microsecond. Links that are not up do nothing.
R495, R498, R499, R508, R515: a paired Ulicon port comes up by the peer's digest where it agrees, and is held down where it does not; the
cells of a frame from another member are relayed over a link to their member, or end in the queues of the egress ports. -/
def Obligations.CompoundNode : Prop :=
  (∀ (p : Port) (t1 t2 t3 t4 : Int) (t0 num : Word) (sync : Bool) (s : State), s.locked = true → ulcCarries s p.val = true →
    timeLink s p.val = true →
    let w := s.setPort p.val { s.port p.val with ulcRx := ofInt 48 t2 }
    let ofs := divNear ((t2 - t1) + (t4 - t3)) 2 - (t2 - t1)
    (s.ulc.joined = true → exec (.timeWord p t1 t2 t3 t4 t0 num sync) s = .next { w with
      ulc := { s.ulc with sync := sync, ofs := s.ulc.ofs ++ [ofs] } }) ∧
    (s.ulc.joined = false → exec (.timeWord p t1 t2 t3 t4 t0 num sync) s = .next { w with
      ulc := { s.ulc with sync := sync, joined := true, ofs := [] }
      steps := s.steps ++ [StepDue.mk s.tickTb (256 * ofs) none
        (if s.tick.run = true then some (65536 * t0.toNat, num.toNat) else none) none false] })) ∧
  (∀ (p : Port) (t1 t2 t3 t4 : Int) (t0 num : Word) (sync : Bool) (s : State),
    (s.locked = false ∨ ulcCarries s p.val = false) → exec (.timeWord p t1 t2 t3 t4 t0 num sync) s = .next s) ∧
  (∀ (p : Port) (x : Heard) (shell : List Word) (present direct : Fin 16) (s : State), ulcCarries s p.val = true →
    let c := s.get (PRT_ULC_DEPTH p.val)
    let q := s.get (PRT_ULC_PEER p.val)
    let d := x.depth.val
    let m := x.m.val
    c ≤ d → cnOn s d = true → m ≠ cnMe s d →
    ((∀ k < 4, (s.member d m).direct.testBit k = true → direct.val.testBit k = true) ∨ s.records (compK d) 1) →
    ((∀ i < 4, present.val.testBit i = true → i = m ∨ i = cnMe s d ∨ (s.member d i).reach.isSome = true) ∨
      s.records (compK d) 3) →
    ∃ t, exec (.faultSummary p x shell present direct) s = .next t ∧
      t = { s with regs := t.regs, ulc := t.ulc, srcs := t.srcs, evAt := t.evAt } ∧
      t.member d m = { s.member d m with
        reach := some s.now, at_ := if d = c ∧ m = q then some s.now else (s.member d m).at_, shell := shell.take 16
        present := present.val, direct := direct.val, via := (c, q, x.hop), lost := false
        ps := if 3 < shell.length then getField (shell.getD 3 0) 8 3 else (s.member d m).ps } ∧
      (∀ i, i ≠ m → i < 4 → t.member d i = s.member d i) ∧
      (t.get (ULC_CN_STAT_PRESENT d)).testBit m = true ∧ s.keepsFields t [ULC_CN_STAT_PRESENT d] ∧
      (present.val ||| t.get (ULC_CN_STAT_PRESENT d) ≠ t.get (ULC_CN_STAT_PRESENT d) → s.records (compK d) 3 →
        t.src (compK d) 3 = .cont)) ∧
  (∀ (p : Port) (x : Heard) (shell : List Word) (present direct : Fin 16) (s : State),
    (ulcCarries s p.val = false ∨ x.depth.val < s.get (PRT_ULC_DEPTH p.val) ∨ cnOn s x.depth.val = false ∨
      x.m.val = cnMe s x.depth.val) → exec (.faultSummary p x shell present direct) s = .next s) ∧
  (∀ (c m : Fin 4) (req : Fin 8) (tol : Word) (cur : Fin 8) (s : State), s.fatal = false → cnOn s c.val = true →
    ∃ t, exec (.powerReport c m (some req) (some tol) (some cur)) s = .next t ∧
      t = { s with regs := t.regs, ulc := t.ulc, pwr := t.pwr, out := t.out } ∧
      t.out = (if c.val = 0 then s.out
        else s.out ++ [.ulicon 128 8 [c.val - 1, 3, req.val], .ulicon 128 8 [c.val - 1, 4, tol.toNat]]) ∧
      s.keepsFields t [SHELL_PWR_REQ (shellBase 0), SHELL_LATTOL_TOL (shellBase 0), SHELL_PWR_BUSY (shellBase 0)] ∧
      (curPs s 0 = 0 → t.pwr = s.pwr ∧ t.get (SHELL_PWR_BUSY (shellBase 0)) = s.get (SHELL_PWR_BUSY (shellBase 0))) ∧
      t.get (SHELL_PWR_REQ (shellBase 0)) = req.val ∧ rword t.regs (SHELL_LATTOL (shellBase 0)) = tol ∧
      t.member c.val m.val = { s.member c.val m.val with ps := cur.val }) ∧
  (∀ (c m : Fin 4) (s : State), exec (.powerReport c m none none none) s = .next s) ∧
  (∀ (c m : Fin 4) (t0 : Nat) (s : State), s.fatal = false → (s.member c.val m.val).at_ = some t0 →
    (s.now < t0 + 2000 → exec (.pairDown c m) s = .next s) ∧
    (t0 + 2000 ≤ s.now → s.records (compK c.val) 1 → ∃ t, exec (.pairDown c m) s = .next t ∧
      t = { s with ulc := t.ulc, srcs := t.srcs, evAt := t.evAt } ∧ t.src (compK c.val) 1 = .corr ∧
      t.member c.val m.val = { s.member c.val m.val with at_ := none, direct := 0 })) ∧
  (∀ (c m : Fin 4) (runs : Bool) (t0 : Nat) (s : State), s.fatal = false → (s.member c.val m.val).reach = some t0 →
    (s.now < t0 + 2000 → exec (.memberLost c ⟨m, runs⟩) s = .next s) ∧
    (t0 + 2000 ≤ s.now → s.records (compK c.val) 0 → (runs = true → s.records (compK c.val) 3) →
      ∃ t, exec (.memberLost c ⟨m, runs⟩) s = .next t ∧
      t = { s with regs := t.regs, ulc := t.ulc, srcs := t.srcs, evAt := t.evAt } ∧ s.keepsFields t [ULC_CN_STAT_PRESENT c.val] ∧
      t.src (compK c.val) 0 = .cont ∧ (runs = true → t.src (compK c.val) 3 = .cont) ∧
      t.member c.val m.val = { UlcMem.rst with
        shell := (s.member c.val m.val).shell, ps := (s.member c.val m.val).ps, lost := true } ∧
      (t.get (ULC_CN_STAT_PRESENT c.val)).testBit m.val = decide (m.val = cnMe s c.val))) ∧
  (∀ (c m : Fin 4) (runs : Bool) (s : State), (s.member c.val m.val).reach = none → (s.member c.val m.val).at_ = none →
    exec (.memberLost c ⟨m, runs⟩) s = .next s ∧ exec (.pairDown c m) s = .next s) ∧
  (∀ (c m : Fin 4) (s : State), s.fatal = false → cnOn s c.val = true →
    (m.val ≠ cnMe s c.val → exec (.mirrorReset c m) s = .next (if (s.get (ULC_CN_STAT_PRESENT c.val)).testBit m.val then
      { s with out := s.out ++ [.ulicon 128 7 [c.val, m.val]] } else s)) ∧
    (m.val = cnMe s c.val → c.val = 0 → exec (.mirrorReset c m) s = exec (.unitReset (.dev 0)) s) ∧
    (∀ d : Fin 4, m.val = cnMe s c.val → c.val = d.val + 1 → exec (.mirrorReset c m) s = exec (.unitReset (.comp d)) s)) ∧
  (∀ (p : Port) (s : State), s.fatal = false → ulcCarries s p.val = true → (s.port p.val).ulcAt + 1000 ≤ s.now →
    (∀ q < 128, q ≠ p.val → ulcCarries s q = false) →
    let ms := summariesTo s (s.get (PRT_ULC_DEPTH p.val)) (s.get (PRT_ULC_PEER p.val))
    let var := Config.freeNat s.free % 329
    ∃ t, exec .timeWordsAndSummariesSent s = .next t ∧
      t = { s with
        regs := t.regs, free := s.free + 1, ports := t.ports, out := t.out, ulc := { s.ulc with cur := ownCurs s } } ∧
      s.keepsFields t [PRT_TS_VAR_VAR_TX p.val] ∧
      t.port p.val = { s.port p.val with ulcAt := s.now, ulcSent := ms.flatten } ∧
      (∀ q, q ≠ p.val → t.port q = s.port q) ∧
      t.out = s.out ++ .ulicon p.val 1 (timeWordOf s p.val var) :: ms.map (.ulicon p.val 2) ++
        if s.ulc.cur = ownCurs s then [] else [.ulicon 128 10 (ownCurs s)]) ∧
  (∀ (p : Port) (s : State), s.fatal = false → ulcCarries s p.val = true → s.now < (s.port p.val).ulcAt + 1000 →
    (∀ q < 128, q ≠ p.val → ulcCarries s q = false) → s.ulc.cur = ownCurs s →
    let ms := summariesTo s (s.get (PRT_ULC_DEPTH p.val)) (s.get (PRT_ULC_PEER p.val))
    (ms.flatten = (s.port p.val).ulcSent → exec .timeWordsAndSummariesSent s = .next s) ∧
    (ms.flatten ≠ (s.port p.val).ulcSent →
      exec .timeWordsAndSummariesSent s = .next { s.setPort p.val { s.port p.val with ulcSent := ms.flatten } with
        out := s.out ++ ms.map (.ulicon p.val 2) })) ∧
  (∀ s : State, (∀ q < 128, ulcCarries s q = false) → exec .timeWordsAndSummariesSent s = .next s) ∧
  (∀ (p : Port) (s : State), ulcTakes s p.val = true → s.get (PRT_SEC_STAT_PAIR p.val) = 2 →
    let c := s.get (PRT_ULC_DEPTH p.val)
    (∃ t, exec (.identityDigest p (ownDigest s)) s = .next t ∧ t = { s with regs := t.regs, ulc := t.ulc } ∧
      s.keepsFields t [PRT_ULC_STAT_UP p.val, PRT_ULC_STAT_IDM p.val, ULC_CN_STAT_PRESENT c] ∧
      t.get (PRT_ULC_STAT_UP p.val) = 1 ∧ t.get (PRT_ULC_STAT_IDM p.val) = 0 ∧
      (t.member c (s.get (PRT_ULC_PEER p.val))).at_ = some s.now) ∧
    (∀ d, d ≠ ownDigest s → s.records (compK c) 4 → ∃ t, exec (.identityDigest p d) s = .next t ∧
      t = { s with regs := t.regs, srcs := t.srcs, evAt := t.evAt } ∧
      s.keepsFields t [PRT_ULC_STAT_UP p.val, PRT_ULC_STAT_IDM p.val] ∧
      t.get (PRT_ULC_STAT_UP p.val) = 0 ∧ t.get (PRT_ULC_STAT_IDM p.val) = 1 ∧ t.src (compK c) 4 = .cont)) ∧
  (∀ (p : Port) (d : Bytes) (s : State), (ulcTakes s p.val = false ∨ s.get (PRT_SEC_STAT_PAIR p.val) ≠ 2) →
    exec (.identityDigest p d) s = .next s) ∧
  (∀ (p : Port) (cells : Nat) (relay : Option (Fin 4)) (b : Bytes) (len : Nat) (h : CellHead) (tc : Fin 8)
    (trq cue late : Bool) (x : Word) (s : State), ulcCarries s p.val = false →
    exec (.uliconFrame p cells relay b len h tc trq cue late x) s = .next s) ∧
  (∀ (p : Port) (cells : Nat) (m : Fin 4) (b : Bytes) (len : Nat) (h : CellHead) (tc : Fin 8)
    (trq cue late : Bool) (x : Word) (s : State), ulcCarries s p.val = true →
    let link : Nat → Prop := fun q => isUlc s q = true ∧ s.get (PRT_ULC_STAT_UP q) = 1 ∧
      s.get (PRT_ULC_DEPTH q) = s.get (PRT_ULC_DEPTH p.val) ∧ s.get (PRT_ULC_PEER q) = m.val
    (∀ q < 128, link q → (∀ r < q, ¬ link r) →
      ∃ t, exec (.uliconFrame p cells (some m) b len h tc trq cue late x) s = .next t ∧
        t = { s with regs := t.regs, ports := t.ports, out := t.out } ∧
        t.out = s.out ++ (List.range (uliconFrames b).length).map (fun j => .cells
          ((groupLinks s q).getD (((s.port (ulcLow s q)).ulcTurn + j) % (groupLinks s q).length) q) h tc.val
          (if trq = true then some (x.toNat, cue, late) else none) ((uliconFrames b).getD j [])) ∧
        s.keepsFields t [PRT_ULC_STAT_RELAYED p.val] ∧
        t.get (PRT_ULC_STAT_RELAYED p.val) = min (s.get (PRT_ULC_STAT_RELAYED p.val) + cells) 65535) ∧
    ((∀ q < 128, ¬ link q) → ∃ t, exec (.uliconFrame p cells (some m) b len h tc trq cue late x) s = .next t ∧
      t = { s with regs := t.regs } ∧ cnt64 t.regs (PRT_CNT_DROP_BUF (ulcLow s p.val)) =
        (cnt64 s.regs (PRT_CNT_DROP_BUF (ulcLow s p.val)) + 1) % 2 ^ 64)) ∧
  (∀ (p : Port) (cells q : Nat) (b : Bytes) (len : Nat) (h : CellHead) (tc : Fin 8) (x : Word) (s : State),
    ulcCarries s p.val = true →
    let v := classify s p.val (parse b)
    decide6 s (ulcLow s p.val) v.vid (parse b).da false = ([q], false) → bits (s.strW 5 v.vid 8) 30 30 = 0 → q < 128 →
    isUlc s q = false → groupOf s q = none → s.get (PRT_GRD_STAT_STATE q) ≠ 3 →
    (admits s q tc.val (cellsOf len) = true →
      ∃ t old f, exec (.uliconFrame p cells none b len h tc false false false x) s = .next t ∧
        t = { s with regs := t.regs, pwr := t.pwr, ids := s.ids + 1, queues := t.queues } ∧
        t.queue q tc.val = old ++ [f] ∧ old.length = (s.queue q tc.val).length ∧ f.bytes = b ∧ f.len = len ∧
        f.tc = tc.val ∧ f.inPort = ulcLow s p.val ∧ f.handle = h.handle.map (·.toNat) ∧ f.recovered = h.recovered ∧ f.arriving = false) ∧
    (admits s q 8 (cellsOf len) = true → (s.queue q 8).length < 256 → ∀ late,
      ∃ t f, exec (.uliconFrame p cells none b len h tc true true late x) s = .next t ∧
        t = { s with ids := s.ids + 1, queues := t.queues } ∧
        f ∈ t.queue q 8 ∧ (t.queue q 8).length = (s.queue q 8).length + 1 ∧ f.bytes = b ∧ f.cue = true ∧
        f.tc = tc.val ∧ f.inPort = ulcLow s p.val ∧ f.arriving = false) ∧
    (admits s q 8 (cellsOf len) = true → (s.queue q 8).length < 256 → isPast x.toNat s.tickNs = false → ∀ late,
      ∃ t f, exec (.uliconFrame p cells none b len h tc true false late x) s = .next t ∧
        t = { s with ids := s.ids + 1, queues := t.queues } ∧
        f ∈ t.queue q 8 ∧ (t.queue q 8).length = (s.queue q 8).length + 1 ∧ f.bytes = b ∧ f.cue = false ∧ f.due = false ∧
        f.t = x.toNat ∧ f.skip = late ∧ f.tc = tc.val ∧ f.inPort = ulcLow s p.val ∧ f.arriving = false))
end

