-- ==== Sys2Proof/Laws/Tab.lean ====
section
/-! SUPPORT. Sparse tables and byte memories: a read after a write, and the canonical form that every operation keeps. -/

namespace Sys2Proof.Machine

variable {α : Type}

theorem tget_terase_same (d : α) (t : Tab α) (k : Nat) : tget d (terase t k) k = d := by
  induction t with
  | nil => rfl
  | cons e r ih =>
    obtain ⟨i, v⟩ := e
    by_cases h : i = k
    · simp [terase, h, ih]
    · have h' : k ≠ i := fun e => h e.symm
      simp [terase, h, h', tget, ih]

theorem tget_terase_ne (d : α) (t : Tab α) {k j : Nat} (h : j ≠ k) : tget d (terase t k) j = tget d t j := by
  induction t with
  | nil => rfl
  | cons e r ih =>
    obtain ⟨i, v⟩ := e
    by_cases hi : i = k
    · subst hi; simp [terase, tget, h, ih]
    · simp only [terase, if_neg hi, tget, ih]

theorem tget_tins_ne (d : α) (t : Tab α) {k j : Nat} (x : α) (h : j ≠ k) : tget d (tins t k x) j = tget d t j := by
  induction t with
  | nil => simp [tins, tget, h]
  | cons e r ih =>
    obtain ⟨i, v⟩ := e
    by_cases hi : k < i
    · simp [tins, hi, tget, h]
    · simp only [tins, if_neg hi, tget, ih]

theorem tget_tins_terase (d : α) (t : Tab α) (k : Nat) (x : α) : tget d (tins (terase t k) k x) k = x := by
  induction t with
  | nil => simp [terase, tins, tget]
  | cons e r ih =>
    obtain ⟨i, v⟩ := e
    by_cases hi : i = k
    · simp [terase, hi, ih]
    · have hk : k ≠ i := fun e => hi e.symm
      by_cases hl : k < i
      · simp [terase, hi, tins, hl, tget]
      · simp [terase, hi, tins, hl, tget, hk, ih]

/-- A key reads the value last written to it. -/
@[simp] theorem tget_tset_same [DecidableEq α] (d : α) (t : Tab α) (k : Nat) (x : α) : tget d (tset d t k x) k = x := by
  unfold tset
  split
  · rename_i h; rw [tget_terase_same, h]
  · exact tget_tins_terase d t k x

/-- A write leaves every other key alone. -/
theorem tget_tset_ne [DecidableEq α] (d e : α) (t : Tab α) {k j : Nat} (x : α) (h : j ≠ k) :
    tget e (tset d t k x) j = tget e t j := by
  unfold tset
  split
  · exact tget_terase_ne e t h
  · rw [tget_tins_ne e _ x h, tget_terase_ne e t h]

/-- Reading after a write of any key. -/
theorem tget_tset [DecidableEq α] (d : α) (t : Tab α) (k j : Nat) (x : α) :
    tget d (tset d t k x) j = if j = k then x else tget d t j := by
  by_cases h : j = k
  · subst h; simp
  · simp [h, tget_tset_ne d d t x h]

/-! ### The canonical form -/

theorem mem_terase {t : Tab α} {k : Nat} {e : Nat × α} : e ∈ terase t k ↔ e ∈ t ∧ e.1 ≠ k := by
  induction t with
  | nil => simp [terase]
  | cons a r ih =>
    obtain ⟨i, v⟩ := a
    by_cases h : i = k
    · subst h
      simp only [terase, if_pos, ih, List.mem_cons]
      constructor
      · exact fun ⟨h1, h2⟩ => ⟨.inr h1, h2⟩
      · rintro ⟨rfl | h1, h2⟩
        · exact absurd rfl h2
        · exact ⟨h1, h2⟩
    · simp only [terase, if_neg h, List.mem_cons, ih]
      constructor
      · rintro (rfl | ⟨h1, h2⟩)
        · exact ⟨.inl rfl, h⟩
        · exact ⟨.inr h1, h2⟩
      · rintro ⟨rfl | h1, h2⟩
        · exact .inl rfl
        · exact .inr ⟨h1, h2⟩

theorem mem_tins {t : Tab α} {k : Nat} {x : α} {e : Nat × α} : e ∈ tins t k x ↔ e = (k, x) ∨ e ∈ t := by
  induction t with
  | nil => simp [tins]
  | cons a r ih =>
    obtain ⟨i, v⟩ := a
    by_cases h : k < i
    · simp [tins, h]
    · simp only [tins, if_neg h, List.mem_cons, ih]
      constructor
      · rintro (h1 | h1 | h1)
        · exact .inr (.inl h1)
        · exact .inl h1
        · exact .inr (.inr h1)
      · rintro (h1 | h1 | h1)
        · exact .inr (.inl h1)
        · exact .inl h1
        · exact .inr (.inr h1)

theorem wf_nil (d : α) : Tab.wf d ([] : Tab α) := ⟨.nil, by simp⟩

theorem wf_terase {d : α} {t : Tab α} (k : Nat) (h : Tab.wf d t) : Tab.wf d (terase t k) := by
  refine ⟨?_, fun e he => h.2 e (mem_terase.1 he).1⟩
  have hp := h.1
  clear h
  induction t with
  | nil => exact .nil
  | cons a r ih =>
    obtain ⟨i, v⟩ := a
    rw [List.pairwise_cons] at hp
    by_cases hi : i = k
    · simpa [terase, hi] using ih hp.2
    · simp only [terase, if_neg hi, List.pairwise_cons]
      exact ⟨fun e he => hp.1 e (mem_terase.1 he).1, ih hp.2⟩

theorem wf_tins {d : α} {t : Tab α} {k : Nat} {x : α} (h : Tab.wf d t) (hk : ∀ e ∈ t, e.1 ≠ k) (hx : x ≠ d) :
    Tab.wf d (tins t k x) := by
  refine ⟨?_, fun e he => ?_⟩
  · have hp := h.1
    clear h
    induction t with
    | nil => simp [tins]
    | cons a r ih =>
      obtain ⟨i, v⟩ := a
      rw [List.pairwise_cons] at hp
      by_cases hi : k < i
      · simp only [tins, if_pos hi, List.pairwise_cons]
        refine ⟨fun e he => ?_, hp.1, hp.2⟩
        rcases List.mem_cons.1 he with rfl | h1
        · exact hi
        · exact Nat.lt_trans hi (hp.1 e h1)
      · simp only [tins, if_neg hi, List.pairwise_cons]
        refine ⟨fun e he => ?_, ih (fun e he => hk e (List.mem_cons_of_mem _ he)) hp.2⟩
        rcases mem_tins.1 he with rfl | h1
        · have := hk (i, v) (List.mem_cons_self ..)
          simp only at this ⊢
          omega
        · exact hp.1 e h1
  · rcases mem_tins.1 he with rfl | h1
    · exact hx
    · exact h.2 e h1

/-- A write keeps the canonical form. -/
theorem wf_tset [DecidableEq α] {d : α} {t : Tab α} (k : Nat) (x : α) (h : Tab.wf d t) : Tab.wf d (tset d t k x) := by
  unfold tset
  split
  · exact wf_terase k h
  · rename_i hx
    exact wf_tins (wf_terase k h) (fun e he => (mem_terase.1 he).2) hx

theorem wf_filter {d : α} {t : Tab α} (p : Nat × α → Bool) (h : Tab.wf d t) : Tab.wf d (t.filter p) :=
  ⟨h.1.filter p, fun e he => h.2 e (List.mem_filter.1 he).1⟩

/-- Removing entries keeps the canonical form. -/
theorem wf_tclear {d : α} {t : Tab α} (p : Nat → Bool) (h : Tab.wf d t) : Tab.wf d (tclear t p) := wf_filter _ h

/-! ### Byte memories -/

@[simp] theorem Memory.get_put_same (m : Memory) (a : Nat) (b : BitVec 8) : (m.put a b).get a = b := by
  simp [Memory.get, Memory.put]

theorem Memory.get_put_ne (m : Memory) {a c : Nat} (b : BitVec 8) (h : c ≠ a) : (m.put a b).get c = m.get c :=
  tget_tset_ne 0 0 m b h

theorem Memory.wf_put (m : Memory) (a : Nat) (b : BitVec 8) (h : Memory.wf m) : Memory.wf (m.put a b) := wf_tset a b h

/-- Writing bytes keeps the canonical form. -/
theorem Memory.wf_putBytes (bs : Bytes) : ∀ (m : Memory) (a : Nat), Memory.wf m → Memory.wf (m.putBytes a bs) := by
  induction bs with
  | nil => exact fun m a h => h
  | cons b r ih => exact fun m a h => ih _ _ (m.wf_put a b h)

theorem Memory.wf_putLE (m : Memory) (a n v : Nat) (h : Memory.wf m) : Memory.wf (m.putLE a n v) :=
  Memory.wf_putBytes _ _ _ h

/-- Every byte outside the written range keeps its value. -/
theorem Memory.get_putBytes_out (bs : Bytes) : ∀ (m : Memory) (a c : Nat), (c < a ∨ a + bs.length ≤ c) →
    (m.putBytes a bs).get c = m.get c := by
  induction bs with
  | nil => exact fun m a c _ => rfl
  | cons b r ih =>
    intro m a c h
    simp only [List.length_cons] at h
    rw [Memory.putBytes, ih _ _ _ (by omega), Memory.get_put_ne _ _ (by omega)]

/-- A byte of the written range reads what was written. -/
theorem Memory.get_putBytes_in (bs : Bytes) : ∀ (m : Memory) (a i : Nat), i < bs.length →
    (m.putBytes a bs).get (a + i) = bs.getD i 0 := by
  induction bs with
  | nil => intro m a i h; simp at h
  | cons b r ih =>
    intro m a i h
    cases i with
    | zero => rw [Memory.putBytes, Memory.get_putBytes_out _ _ _ _ (by omega)]; simp
    | succ i =>
      rw [Memory.putBytes, show a + (i + 1) = a + 1 + i by omega, ih _ _ _ (by simpa using h)]
      simp

@[simp] theorem Memory.length_getBytes (m : Memory) (a : Nat) : ∀ n, (m.getBytes a n).length = n := by
  intro n
  induction n generalizing a with
  | zero => rfl
  | succ n ih => simp [Memory.getBytes, ih]

/-- Byte `i` of a range read. -/
theorem Memory.getD_getBytes (m : Memory) : ∀ (n a i : Nat), i < n → (m.getBytes a n).getD i 0 = m.get (a + i) := by
  intro n
  induction n with
  | zero => intro a i h; omega
  | succ n ih =>
    intro a i h
    cases i with
    | zero => simp [Memory.getBytes]
    | succ i =>
      have := ih (a + 1) i (by omega)
      rw [Memory.getBytes, List.getD_cons_succ, this]
      congr 1; omega

end Sys2Proof.Machine
end

