-- ==== Sys2Proof/Laws/Regs.lean ====
section
/-! SUPPORT. Register words and fields: what a field reads after a field, or a word, has been written. -/

namespace Sys2Proof.Machine

theorem getField_lt (x : Word) (lo w : Nat) : getField x lo w < 2 ^ w := Nat.mod_lt _ (Nat.two_pow_pos w)

theorem toNat_setField_lt (x : Word) {lo w : Nat} (v : Nat) (h : lo + w ≤ 32) :
    x.toNat % 2 ^ lo + (v % 2 ^ w) * 2 ^ lo + x.toNat / 2 ^ (lo + w) * 2 ^ (lo + w) < 2 ^ 32 := by
  have h1 : x.toNat % 2 ^ lo < 2 ^ lo := Nat.mod_lt _ (Nat.two_pow_pos _)
  have h2 : v % 2 ^ w < 2 ^ w := Nat.mod_lt _ (Nat.two_pow_pos _)
  have hx : x.toNat < 2 ^ 32 := x.isLt
  have hs : (2 : Nat) ^ 32 = 2 ^ (lo + w) * 2 ^ (32 - (lo + w)) := by rw [← Nat.pow_add]; congr 1; omega
  have h3 : x.toNat / 2 ^ (lo + w) < 2 ^ (32 - (lo + w)) := Nat.div_lt_of_lt_mul (hs ▸ hx)
  have h4 : (v % 2 ^ w) * 2 ^ lo + 2 ^ lo ≤ 2 ^ (lo + w) := by
    rw [Nat.pow_add, Nat.mul_comm (2 ^ lo), ← Nat.succ_mul]
    exact Nat.mul_le_mul_right _ h2
  have h5 : x.toNat / 2 ^ (lo + w) * 2 ^ (lo + w) + 2 ^ (lo + w) ≤ 2 ^ 32 := by
    rw [hs, ← Nat.succ_mul, Nat.mul_comm (2 ^ (lo + w))]
    exact Nat.mul_le_mul_right _ h3
  omega

theorem toNat_setField (x : Word) {lo w : Nat} (v : Nat) (h : lo + w ≤ 32) :
    (setField x lo w v).toNat =
      x.toNat % 2 ^ lo + (v % 2 ^ w) * 2 ^ lo + x.toNat / 2 ^ (lo + w) * 2 ^ (lo + w) := by
  rw [setField, BitVec.toNat_ofNat, Nat.mod_eq_of_lt (toNat_setField_lt x v h)]

theorem regroup (a v y A B : Nat) : a + v * A + y * (A * B) = a + A * (v + B * y) := by
  rw [Nat.mul_add, Nat.mul_comm v A, Nat.mul_comm y, Nat.mul_assoc A B y, Nat.add_assoc]

/-- A field reads what was written to it. -/
theorem getField_setField_same (x : Word) {lo w : Nat} (v : Nat) (h : lo + w ≤ 32) :
    getField (setField x lo w v) lo w = v % 2 ^ w := by
  rw [getField, toNat_setField x v h]
  have h1 : x.toNat % 2 ^ lo < 2 ^ lo := Nat.mod_lt _ (Nat.two_pow_pos _)
  have e : x.toNat % 2 ^ lo + (v % 2 ^ w) * 2 ^ lo + x.toNat / 2 ^ (lo + w) * 2 ^ (lo + w) =
      x.toNat % 2 ^ lo + 2 ^ lo * (v % 2 ^ w + 2 ^ w * (x.toNat / 2 ^ (lo + w))) := by
    rw [Nat.pow_add]; exact regroup _ _ _ _ _
  rw [e, Nat.add_mul_div_left _ _ (Nat.two_pow_pos _), Nat.div_eq_of_lt h1, Nat.zero_add, Nat.add_mul_mod_self_left,
    Nat.mod_mod]

/-- The bits beside a written field stay. -/
theorem getField_setField_ne (x : Word) {lo w lo' w' : Nat} (v : Nat) (h : lo + w ≤ 32)
    (hd : lo' + w' ≤ lo ∨ lo + w ≤ lo') : getField (setField x lo w v) lo' w' = getField x lo' w' := by
  rw [getField, getField, toNat_setField x v h]
  have h1 : x.toNat % 2 ^ lo < 2 ^ lo := Nat.mod_lt _ (Nat.two_pow_pos _)
  have h2 : v % 2 ^ w < 2 ^ w := Nat.mod_lt _ (Nat.two_pow_pos _)
  rcases hd with hd | hd
  · have e : x.toNat % 2 ^ lo + (v % 2 ^ w) * 2 ^ lo + x.toNat / 2 ^ (lo + w) * 2 ^ (lo + w) =
        x.toNat % 2 ^ lo + 2 ^ lo * (v % 2 ^ w + 2 ^ w * (x.toNat / 2 ^ (lo + w))) := by
      rw [Nat.pow_add]; exact regroup _ _ _ _ _
    rw [e]
    have hs : (2 : Nat) ^ lo = 2 ^ lo' * (2 ^ w' * 2 ^ (lo - lo' - w')) := by
      rw [← Nat.pow_add, ← Nat.pow_add]; congr 1; omega
    generalize v % 2 ^ w + 2 ^ w * (x.toNat / 2 ^ (lo + w)) = q
    have hx : x.toNat = x.toNat % 2 ^ lo + 2 ^ lo * (x.toNat / 2 ^ lo) := (Nat.mod_add_div _ _).symm
    conv => rhs; rw [hx]
    rw [hs, Nat.mul_assoc (2 ^ lo'), Nat.mul_assoc (2 ^ lo'), Nat.add_mul_div_left _ _ (Nat.two_pow_pos _),
      Nat.add_mul_div_left _ _ (Nat.two_pow_pos _), Nat.mul_assoc, Nat.mul_assoc, Nat.add_mul_mod_self_left,
      Nat.add_mul_mod_self_left]
  · have e : 2 ^ lo' = 2 ^ (lo + w) * 2 ^ (lo' - (lo + w)) := by rw [← Nat.pow_add]; congr 1; omega
    have h4 : x.toNat % 2 ^ lo + (v % 2 ^ w) * 2 ^ lo < 2 ^ (lo + w) := by
      have : (v % 2 ^ w) * 2 ^ lo + 2 ^ lo ≤ 2 ^ (lo + w) := by
        rw [Nat.pow_add, Nat.mul_comm (2 ^ lo), ← Nat.succ_mul]
        exact Nat.mul_le_mul_right _ h2
      omega
    rw [e, ← Nat.div_div_eq_div_mul, ← Nat.div_div_eq_div_mul, Nat.mul_comm _ (2 ^ (lo + w)),
      Nat.add_mul_div_left _ _ (Nat.two_pow_pos _), Nat.div_eq_of_lt h4, Nat.zero_add]

/-! ### The register file -/

@[simp] theorem rword_wword_same (r : Regs) (o : Nat) (v : Word) : rword (wword r o v) o = v := by
  simp [rword, wword]

theorem rword_wword_ne (r : Regs) {o o' : Nat} (v : Word) (h : o' ≠ o) : rword (wword r o v) o' = rword r o' :=
  tget_tset_ne _ _ _ _ h

theorem rword_fset_ne (r : Regs) (f : F) (v : Nat) {o : Nat} (h : o ≠ f.off) : rword (fset r f v) o = rword r o :=
  rword_wword_ne r _ h

theorem fget_fset_same (r : Regs) (f : F) (v : Nat) (h : f.fits) : fget (fset r f v) f = v % 2 ^ f.w := by
  rw [fget, fset, rword_wword_same, getField_setField_same _ _ h]

theorem fget_fset_ne (r : Regs) {f g : F} (v : Nat) (h : f.fits) (ha : f.apart g) : fget (fset r f v) g = fget r g := by
  by_cases ho : g.off = f.off
  · rw [fget, fset, ho, rword_wword_same, getField_setField_ne _ _ h (ha.resolve_left (fun n => n ho)), fget, ho]
  · rw [fget, fset, rword_wword_ne _ _ ho, fget]

theorem fget_lt (r : Regs) (f : F) : fget r f < 2 ^ f.w := getField_lt _ _ _

theorem fget_wword_ne (r : Regs) {o : Nat} (v : Word) {g : F} (h : g.off ≠ o) : fget (wword r o v) g = fget r g := by
  rw [fget, fget, rword_wword_ne _ _ h]

theorem fget_fsat_same (r : Regs) (f : F) (n : Nat) (h : f.fits) :
    fget (fsat r f n) f = min (fget r f + n) (2 ^ f.w - 1) := by
  have hp := Nat.two_pow_pos f.w
  rw [fsat, fget_fset_same _ _ _ h, Nat.mod_eq_of_lt (by omega)]

theorem fget_fsat_ne (r : Regs) {f g : F} (n : Nat) (h : f.fits) (ha : f.apart g) :
    fget (fsat r f n) g = fget r g := fget_fset_ne r _ h ha

/-- A field of the state reads the value last written to it. -/
theorem State.get_set_same (s : State) (f : F) (v : Nat) (h : f.fits) : (s.set f v).get f = v % 2 ^ f.w :=
  fget_fset_same s.regs f v h

/-- Writing a field leaves every field that shares no bit with it. -/
theorem State.get_set_ne (s : State) {f g : F} (v : Nat) (h : f.fits) (ha : f.apart g) : (s.set f v).get g = s.get g :=
  fget_fset_ne s.regs v h ha

theorem State.get_lt (s : State) (f : F) : s.get f < 2 ^ f.w := fget_lt _ _

theorem State.flag_eq (s : State) (f : F) : s.flag f = (s.get f != 0) := rfl

/-- A saturating counter one further. -/
theorem State.get_inc_same (s : State) (f : F) (h : f.fits) : (s.inc f).get f = min (s.get f + 1) (2 ^ f.w - 1) :=
  fget_fsat_same s.regs f 1 h

theorem State.get_inc_ne (s : State) {f g : F} (h : f.fits) (ha : f.apart g) : (s.inc f).get g = s.get g :=
  fget_fsat_ne s.regs 1 h ha

theorem State.get_incBy_same (s : State) (f : F) (n : Nat) (h : f.fits) :
    (s.incBy f n).get f = min (s.get f + n) (2 ^ f.w - 1) := fget_fsat_same s.regs f n h

theorem State.get_incBy_ne (s : State) {f g : F} (n : Nat) (h : f.fits) (ha : f.apart g) :
    (s.incBy f n).get g = s.get g := fget_fsat_ne s.regs n h ha

theorem State.get_setW_ne (s : State) {o : Nat} (v : Word) {g : F} (h : g.off ≠ o) : (s.setW o v).get g = s.get g :=
  fget_wword_ne s.regs v h

theorem State.get_setW_same (s : State) (v : Word) (g : F) : (s.setW g.off v).get g = getField v g.lo g.w := by
  simp [State.get, State.setW, fget]

end Sys2Proof.Machine
end

