-- ==== Sys2Proof/Laws/State.lean ====
section
/-! SUPPORT. What each update of the state leaves alone: one lemma per field per update, all by definition; and the read after
each write. -/

namespace Sys2Proof.Machine

variable (s : State)

/-! ### State.set -/

@[simp] theorem State.set_mem (f : F) (v : Nat) : (s.set f v).mem = s.mem := id rfl
@[simp] theorem State.set_hostMem (f : F) (v : Nat) : (s.set f v).hostMem = s.hostMem := id rfl
@[simp] theorem State.set_pending (f : F) (v : Nat) : (s.set f v).pending = s.pending := id rfl
@[simp] theorem State.set_free (f : F) (v : Nat) : (s.set f v).free = s.free := id rfl
@[simp] theorem State.set_out (f : F) (v : Nat) : (s.set f v).out = s.out := id rfl
@[simp] theorem State.set_now (f : F) (v : Nat) : (s.set f v).now = s.now := id rfl
@[simp] theorem State.set_locked (f : F) (v : Nat) : (s.set f v).locked = s.locked := id rfl
@[simp] theorem State.set_hostLocked (f : F) (v : Nat) : (s.set f v).hostLocked = s.hostLocked := id rfl
@[simp] theorem State.set_fatal (f : F) (v : Nat) : (s.set f v).fatal = s.fatal := id rfl
@[simp] theorem State.set_hbLost (f : F) (v : Nat) : (s.set f v).hbLost = s.hbLost := id rfl
@[simp] theorem State.set_collector (f : F) (v : Nat) : (s.set f v).collector = s.collector := id rfl
@[simp] theorem State.set_tbs (f : F) (v : Nat) : (s.set f v).tbs = s.tbs := id rfl
@[simp] theorem State.set_steps (f : F) (v : Nat) : (s.set f v).steps = s.steps := id rfl
@[simp] theorem State.set_tick (f : F) (v : Nat) : (s.set f v).tick = s.tick := id rfl
@[simp] theorem State.set_srcs (f : F) (v : Nat) : (s.set f v).srcs = s.srcs := id rfl
@[simp] theorem State.set_reacts (f : F) (v : Nat) : (s.set f v).reacts = s.reacts := id rfl
@[simp] theorem State.set_evAt (f : F) (v : Nat) : (s.set f v).evAt = s.evAt := id rfl
@[simp] theorem State.set_lines (f : F) (v : Nat) : (s.set f v).lines = s.lines := id rfl
@[simp] theorem State.set_meshOff (f : F) (v : Nat) : (s.set f v).meshOff = s.meshOff := id rfl
@[simp] theorem State.set_resets (f : F) (v : Nat) : (s.set f v).resets = s.resets := id rfl
@[simp] theorem State.set_watch (f : F) (v : Nat) : (s.set f v).watch = s.watch := id rfl
@[simp] theorem State.set_rings (f : F) (v : Nat) : (s.set f v).rings = s.rings := id rfl
@[simp] theorem State.set_steer (f : F) (v : Nat) : (s.set f v).steer = s.steer := id rfl
@[simp] theorem State.set_rxHold (f : F) (v : Nat) : (s.set f v).rxHold = s.rxHold := id rfl
@[simp] theorem State.set_vecs (f : F) (v : Nat) : (s.set f v).vecs = s.vecs := id rfl
@[simp] theorem State.set_fnMsix (f : F) (v : Nat) : (s.set f v).fnMsix = s.fnMsix := id rfl
@[simp] theorem State.set_pcie (f : F) (v : Nat) : (s.set f v).pcie = s.pcie := id rfl
@[simp] theorem State.set_haltAt (f : F) (v : Nat) : (s.set f v).haltAt = s.haltAt := id rfl
@[simp] theorem State.set_bells (f : F) (v : Nat) : (s.set f v).bells = s.bells := id rfl
@[simp] theorem State.set_holdGone (f : F) (v : Nat) : (s.set f v).holdGone = s.holdGone := id rfl
@[simp] theorem State.set_shadowWas (f : F) (v : Nat) : (s.set f v).shadowWas = s.shadowWas := id rfl
@[simp] theorem State.set_dma (f : F) (v : Nat) : (s.set f v).dma = s.dma := id rfl
@[simp] theorem State.set_dmaLast (f : F) (v : Nat) : (s.set f v).dmaLast = s.dmaLast := id rfl
@[simp] theorem State.set_dreq (f : F) (v : Nat) : (s.set f v).dreq = s.dreq := id rfl
@[simp] theorem State.set_lanes (f : F) (v : Nat) : (s.set f v).lanes = s.lanes := id rfl
@[simp] theorem State.set_ports (f : F) (v : Nat) : (s.set f v).ports = s.ports := id rfl
@[simp] theorem State.set_ctrHi (f : F) (v : Nat) : (s.set f v).ctrHi = s.ctrHi := id rfl
@[simp] theorem State.set_ids (f : F) (v : Nat) : (s.set f v).ids = s.ids := id rfl
@[simp] theorem State.set_queues (f : F) (v : Nat) : (s.set f v).queues = s.queues := id rfl
@[simp] theorem State.set_rxOpen (f : F) (v : Nat) : (s.set f v).rxOpen = s.rxOpen := id rfl
@[simp] theorem State.set_heldFrames (f : F) (v : Nat) : (s.set f v).heldFrames = s.heldFrames := id rfl
@[simp] theorem State.set_claims (f : F) (v : Nat) : (s.set f v).claims = s.claims := id rfl
@[simp] theorem State.set_given (f : F) (v : Nat) : (s.set f v).given = s.given := id rfl
@[simp] theorem State.set_laerrs (f : F) (v : Nat) : (s.set f v).laerrs = s.laerrs := id rfl
@[simp] theorem State.set_str (f : F) (v : Nat) : (s.set f v).str = s.str := id rfl
@[simp] theorem State.set_meters (f : F) (v : Nat) : (s.set f v).meters = s.meters := id rfl
@[simp] theorem State.set_fdbSeen (f : F) (v : Nat) : (s.set f v).fdbSeen = s.fdbSeen := id rfl
@[simp] theorem State.set_frer (f : F) (v : Nat) : (s.set f v).frer = s.frer := id rfl
@[simp] theorem State.set_recs (f : F) (v : Nat) : (s.set f v).recs = s.recs := id rfl
@[simp] theorem State.set_fwdHist (f : F) (v : Nat) : (s.set f v).fwdHist = s.fwdHist := id rfl
@[simp] theorem State.set_nodeSeen (f : F) (v : Nat) : (s.set f v).nodeSeen = s.nodeSeen := id rfl
@[simp] theorem State.set_sps (f : F) (v : Nat) : (s.set f v).sps = s.sps := id rfl
@[simp] theorem State.set_cs (f : F) (v : Nat) : (s.set f v).cs = s.cs := id rfl
@[simp] theorem State.set_csCopy (f : F) (v : Nat) : (s.set f v).csCopy = s.csCopy := id rfl
@[simp] theorem State.set_csHost (f : F) (v : Nat) : (s.set f v).csHost = s.csHost := id rfl
@[simp] theorem State.set_nextev (f : F) (v : Nat) : (s.set f v).nextev = s.nextev := id rfl
@[simp] theorem State.set_nextevWas (f : F) (v : Nat) : (s.set f v).nextevWas = s.nextevWas := id rfl
@[simp] theorem State.set_pi (f : F) (v : Nat) : (s.set f v).pi = s.pi := id rfl
@[simp] theorem State.set_evin (f : F) (v : Nat) : (s.set f v).evin = s.evin := id rfl
@[simp] theorem State.set_targetLate (f : F) (v : Nat) : (s.set f v).targetLate = s.targetLate := id rfl
@[simp] theorem State.set_fired (f : F) (v : Nat) : (s.set f v).fired = s.fired := id rfl
@[simp] theorem State.set_ppsHigh (f : F) (v : Nat) : (s.set f v).ppsHigh = s.ppsHigh := id rfl
@[simp] theorem State.set_nodes (f : F) (v : Nat) : (s.set f v).nodes = s.nodes := id rfl
@[simp] theorem State.set_syns (f : F) (v : Nat) : (s.set f v).syns = s.syns := id rfl
@[simp] theorem State.set_asws (f : F) (v : Nat) : (s.set f v).asws = s.asws := id rfl
@[simp] theorem State.set_ptps (f : F) (v : Nat) : (s.set f v).ptps = s.ptps := id rfl
@[simp] theorem State.set_doms (f : F) (v : Nat) : (s.set f v).doms = s.doms := id rfl
@[simp] theorem State.set_mlds (f : F) (v : Nat) : (s.set f v).mlds = s.mlds := id rfl
@[simp] theorem State.set_pds (f : F) (v : Nat) : (s.set f v).pds = s.pds := id rfl
@[simp] theorem State.set_csts (f : F) (v : Nat) : (s.set f v).csts = s.csts := id rfl
@[simp] theorem State.set_grds (f : F) (v : Nat) : (s.set f v).grds = s.grds := id rfl
@[simp] theorem State.set_rxSas (f : F) (v : Nat) : (s.set f v).rxSas = s.rxSas := id rfl
@[simp] theorem State.set_txPn (f : F) (v : Nat) : (s.set f v).txPn = s.txPn := id rfl
@[simp] theorem State.set_stns (f : F) (v : Nat) : (s.set f v).stns = s.stns := id rfl
@[simp] theorem State.set_cars (f : F) (v : Nat) : (s.set f v).cars = s.cars := id rfl
@[simp] theorem State.set_copies (f : F) (v : Nat) : (s.set f v).copies = s.copies := id rfl
@[simp] theorem State.set_crf (f : F) (v : Nat) : (s.set f v).crf = s.crf := id rfl
@[simp] theorem State.set_pwr (f : F) (v : Nat) : (s.set f v).pwr = s.pwr := id rfl
@[simp] theorem State.set_quiet (f : F) (v : Nat) : (s.set f v).quiet = s.quiet := id rfl
@[simp] theorem State.set_syncNext (f : F) (v : Nat) : (s.set f v).syncNext = s.syncNext := id rfl
@[simp] theorem State.set_sec (f : F) (v : Nat) : (s.set f v).sec = s.sec := id rfl
@[simp] theorem State.set_keys (f : F) (v : Nat) : (s.set f v).keys = s.keys := id rfl
@[simp] theorem State.set_ulc (f : F) (v : Nat) : (s.set f v).ulc = s.ulc := id rfl
@[simp] theorem State.set_boot (f : F) (v : Nat) : (s.set f v).boot = s.boot := id rfl
@[simp] theorem State.set_jtag (f : F) (v : Nat) : (s.set f v).jtag = s.jtag := id rfl
@[simp] theorem State.set_smbAddr (f : F) (v : Nat) : (s.set f v).smbAddr = s.smbAddr := id rfl
@[simp] theorem State.set_sdLost (f : F) (v : Nat) : (s.set f v).sdLost = s.sdLost := id rfl

/-! ### State.setB -/

@[simp] theorem State.setB_mem (f : F) (b : Bool) : (s.setB f b).mem = s.mem := id rfl
@[simp] theorem State.setB_hostMem (f : F) (b : Bool) : (s.setB f b).hostMem = s.hostMem := id rfl
@[simp] theorem State.setB_pending (f : F) (b : Bool) : (s.setB f b).pending = s.pending := id rfl
@[simp] theorem State.setB_free (f : F) (b : Bool) : (s.setB f b).free = s.free := id rfl
@[simp] theorem State.setB_out (f : F) (b : Bool) : (s.setB f b).out = s.out := id rfl
@[simp] theorem State.setB_now (f : F) (b : Bool) : (s.setB f b).now = s.now := id rfl
@[simp] theorem State.setB_locked (f : F) (b : Bool) : (s.setB f b).locked = s.locked := id rfl
@[simp] theorem State.setB_hostLocked (f : F) (b : Bool) : (s.setB f b).hostLocked = s.hostLocked := id rfl
@[simp] theorem State.setB_fatal (f : F) (b : Bool) : (s.setB f b).fatal = s.fatal := id rfl
@[simp] theorem State.setB_hbLost (f : F) (b : Bool) : (s.setB f b).hbLost = s.hbLost := id rfl
@[simp] theorem State.setB_collector (f : F) (b : Bool) : (s.setB f b).collector = s.collector := id rfl
@[simp] theorem State.setB_tbs (f : F) (b : Bool) : (s.setB f b).tbs = s.tbs := id rfl
@[simp] theorem State.setB_steps (f : F) (b : Bool) : (s.setB f b).steps = s.steps := id rfl
@[simp] theorem State.setB_tick (f : F) (b : Bool) : (s.setB f b).tick = s.tick := id rfl
@[simp] theorem State.setB_srcs (f : F) (b : Bool) : (s.setB f b).srcs = s.srcs := id rfl
@[simp] theorem State.setB_reacts (f : F) (b : Bool) : (s.setB f b).reacts = s.reacts := id rfl
@[simp] theorem State.setB_evAt (f : F) (b : Bool) : (s.setB f b).evAt = s.evAt := id rfl
@[simp] theorem State.setB_lines (f : F) (b : Bool) : (s.setB f b).lines = s.lines := id rfl
@[simp] theorem State.setB_meshOff (f : F) (b : Bool) : (s.setB f b).meshOff = s.meshOff := id rfl
@[simp] theorem State.setB_resets (f : F) (b : Bool) : (s.setB f b).resets = s.resets := id rfl
@[simp] theorem State.setB_watch (f : F) (b : Bool) : (s.setB f b).watch = s.watch := id rfl
@[simp] theorem State.setB_rings (f : F) (b : Bool) : (s.setB f b).rings = s.rings := id rfl
@[simp] theorem State.setB_steer (f : F) (b : Bool) : (s.setB f b).steer = s.steer := id rfl
@[simp] theorem State.setB_rxHold (f : F) (b : Bool) : (s.setB f b).rxHold = s.rxHold := id rfl
@[simp] theorem State.setB_vecs (f : F) (b : Bool) : (s.setB f b).vecs = s.vecs := id rfl
@[simp] theorem State.setB_fnMsix (f : F) (b : Bool) : (s.setB f b).fnMsix = s.fnMsix := id rfl
@[simp] theorem State.setB_pcie (f : F) (b : Bool) : (s.setB f b).pcie = s.pcie := id rfl
@[simp] theorem State.setB_haltAt (f : F) (b : Bool) : (s.setB f b).haltAt = s.haltAt := id rfl
@[simp] theorem State.setB_bells (f : F) (b : Bool) : (s.setB f b).bells = s.bells := id rfl
@[simp] theorem State.setB_holdGone (f : F) (b : Bool) : (s.setB f b).holdGone = s.holdGone := id rfl
@[simp] theorem State.setB_shadowWas (f : F) (b : Bool) : (s.setB f b).shadowWas = s.shadowWas := id rfl
@[simp] theorem State.setB_dma (f : F) (b : Bool) : (s.setB f b).dma = s.dma := id rfl
@[simp] theorem State.setB_dmaLast (f : F) (b : Bool) : (s.setB f b).dmaLast = s.dmaLast := id rfl
@[simp] theorem State.setB_dreq (f : F) (b : Bool) : (s.setB f b).dreq = s.dreq := id rfl
@[simp] theorem State.setB_lanes (f : F) (b : Bool) : (s.setB f b).lanes = s.lanes := id rfl
@[simp] theorem State.setB_ports (f : F) (b : Bool) : (s.setB f b).ports = s.ports := id rfl
@[simp] theorem State.setB_ctrHi (f : F) (b : Bool) : (s.setB f b).ctrHi = s.ctrHi := id rfl
@[simp] theorem State.setB_ids (f : F) (b : Bool) : (s.setB f b).ids = s.ids := id rfl
@[simp] theorem State.setB_queues (f : F) (b : Bool) : (s.setB f b).queues = s.queues := id rfl
@[simp] theorem State.setB_rxOpen (f : F) (b : Bool) : (s.setB f b).rxOpen = s.rxOpen := id rfl
@[simp] theorem State.setB_heldFrames (f : F) (b : Bool) : (s.setB f b).heldFrames = s.heldFrames := id rfl
@[simp] theorem State.setB_claims (f : F) (b : Bool) : (s.setB f b).claims = s.claims := id rfl
@[simp] theorem State.setB_given (f : F) (b : Bool) : (s.setB f b).given = s.given := id rfl
@[simp] theorem State.setB_laerrs (f : F) (b : Bool) : (s.setB f b).laerrs = s.laerrs := id rfl
@[simp] theorem State.setB_str (f : F) (b : Bool) : (s.setB f b).str = s.str := id rfl
@[simp] theorem State.setB_meters (f : F) (b : Bool) : (s.setB f b).meters = s.meters := id rfl
@[simp] theorem State.setB_fdbSeen (f : F) (b : Bool) : (s.setB f b).fdbSeen = s.fdbSeen := id rfl
@[simp] theorem State.setB_frer (f : F) (b : Bool) : (s.setB f b).frer = s.frer := id rfl
@[simp] theorem State.setB_recs (f : F) (b : Bool) : (s.setB f b).recs = s.recs := id rfl
@[simp] theorem State.setB_fwdHist (f : F) (b : Bool) : (s.setB f b).fwdHist = s.fwdHist := id rfl
@[simp] theorem State.setB_nodeSeen (f : F) (b : Bool) : (s.setB f b).nodeSeen = s.nodeSeen := id rfl
@[simp] theorem State.setB_sps (f : F) (b : Bool) : (s.setB f b).sps = s.sps := id rfl
@[simp] theorem State.setB_cs (f : F) (b : Bool) : (s.setB f b).cs = s.cs := id rfl
@[simp] theorem State.setB_csCopy (f : F) (b : Bool) : (s.setB f b).csCopy = s.csCopy := id rfl
@[simp] theorem State.setB_csHost (f : F) (b : Bool) : (s.setB f b).csHost = s.csHost := id rfl
@[simp] theorem State.setB_nextev (f : F) (b : Bool) : (s.setB f b).nextev = s.nextev := id rfl
@[simp] theorem State.setB_nextevWas (f : F) (b : Bool) : (s.setB f b).nextevWas = s.nextevWas := id rfl
@[simp] theorem State.setB_pi (f : F) (b : Bool) : (s.setB f b).pi = s.pi := id rfl
@[simp] theorem State.setB_evin (f : F) (b : Bool) : (s.setB f b).evin = s.evin := id rfl
@[simp] theorem State.setB_targetLate (f : F) (b : Bool) : (s.setB f b).targetLate = s.targetLate := id rfl
@[simp] theorem State.setB_fired (f : F) (b : Bool) : (s.setB f b).fired = s.fired := id rfl
@[simp] theorem State.setB_ppsHigh (f : F) (b : Bool) : (s.setB f b).ppsHigh = s.ppsHigh := id rfl
@[simp] theorem State.setB_nodes (f : F) (b : Bool) : (s.setB f b).nodes = s.nodes := id rfl
@[simp] theorem State.setB_syns (f : F) (b : Bool) : (s.setB f b).syns = s.syns := id rfl
@[simp] theorem State.setB_asws (f : F) (b : Bool) : (s.setB f b).asws = s.asws := id rfl
@[simp] theorem State.setB_ptps (f : F) (b : Bool) : (s.setB f b).ptps = s.ptps := id rfl
@[simp] theorem State.setB_doms (f : F) (b : Bool) : (s.setB f b).doms = s.doms := id rfl
@[simp] theorem State.setB_mlds (f : F) (b : Bool) : (s.setB f b).mlds = s.mlds := id rfl
@[simp] theorem State.setB_pds (f : F) (b : Bool) : (s.setB f b).pds = s.pds := id rfl
@[simp] theorem State.setB_csts (f : F) (b : Bool) : (s.setB f b).csts = s.csts := id rfl
@[simp] theorem State.setB_grds (f : F) (b : Bool) : (s.setB f b).grds = s.grds := id rfl
@[simp] theorem State.setB_rxSas (f : F) (b : Bool) : (s.setB f b).rxSas = s.rxSas := id rfl
@[simp] theorem State.setB_txPn (f : F) (b : Bool) : (s.setB f b).txPn = s.txPn := id rfl
@[simp] theorem State.setB_stns (f : F) (b : Bool) : (s.setB f b).stns = s.stns := id rfl
@[simp] theorem State.setB_cars (f : F) (b : Bool) : (s.setB f b).cars = s.cars := id rfl
@[simp] theorem State.setB_copies (f : F) (b : Bool) : (s.setB f b).copies = s.copies := id rfl
@[simp] theorem State.setB_crf (f : F) (b : Bool) : (s.setB f b).crf = s.crf := id rfl
@[simp] theorem State.setB_pwr (f : F) (b : Bool) : (s.setB f b).pwr = s.pwr := id rfl
@[simp] theorem State.setB_quiet (f : F) (b : Bool) : (s.setB f b).quiet = s.quiet := id rfl
@[simp] theorem State.setB_syncNext (f : F) (b : Bool) : (s.setB f b).syncNext = s.syncNext := id rfl
@[simp] theorem State.setB_sec (f : F) (b : Bool) : (s.setB f b).sec = s.sec := id rfl
@[simp] theorem State.setB_keys (f : F) (b : Bool) : (s.setB f b).keys = s.keys := id rfl
@[simp] theorem State.setB_ulc (f : F) (b : Bool) : (s.setB f b).ulc = s.ulc := id rfl
@[simp] theorem State.setB_boot (f : F) (b : Bool) : (s.setB f b).boot = s.boot := id rfl
@[simp] theorem State.setB_jtag (f : F) (b : Bool) : (s.setB f b).jtag = s.jtag := id rfl
@[simp] theorem State.setB_smbAddr (f : F) (b : Bool) : (s.setB f b).smbAddr = s.smbAddr := id rfl
@[simp] theorem State.setB_sdLost (f : F) (b : Bool) : (s.setB f b).sdLost = s.sdLost := id rfl

/-! ### State.inc -/

@[simp] theorem State.inc_mem (f : F) : (s.inc f).mem = s.mem := id rfl
@[simp] theorem State.inc_hostMem (f : F) : (s.inc f).hostMem = s.hostMem := id rfl
@[simp] theorem State.inc_pending (f : F) : (s.inc f).pending = s.pending := id rfl
@[simp] theorem State.inc_free (f : F) : (s.inc f).free = s.free := id rfl
@[simp] theorem State.inc_out (f : F) : (s.inc f).out = s.out := id rfl
@[simp] theorem State.inc_now (f : F) : (s.inc f).now = s.now := id rfl
@[simp] theorem State.inc_locked (f : F) : (s.inc f).locked = s.locked := id rfl
@[simp] theorem State.inc_hostLocked (f : F) : (s.inc f).hostLocked = s.hostLocked := id rfl
@[simp] theorem State.inc_fatal (f : F) : (s.inc f).fatal = s.fatal := id rfl
@[simp] theorem State.inc_hbLost (f : F) : (s.inc f).hbLost = s.hbLost := id rfl
@[simp] theorem State.inc_collector (f : F) : (s.inc f).collector = s.collector := id rfl
@[simp] theorem State.inc_tbs (f : F) : (s.inc f).tbs = s.tbs := id rfl
@[simp] theorem State.inc_steps (f : F) : (s.inc f).steps = s.steps := id rfl
@[simp] theorem State.inc_tick (f : F) : (s.inc f).tick = s.tick := id rfl
@[simp] theorem State.inc_srcs (f : F) : (s.inc f).srcs = s.srcs := id rfl
@[simp] theorem State.inc_reacts (f : F) : (s.inc f).reacts = s.reacts := id rfl
@[simp] theorem State.inc_evAt (f : F) : (s.inc f).evAt = s.evAt := id rfl
@[simp] theorem State.inc_lines (f : F) : (s.inc f).lines = s.lines := id rfl
@[simp] theorem State.inc_meshOff (f : F) : (s.inc f).meshOff = s.meshOff := id rfl
@[simp] theorem State.inc_resets (f : F) : (s.inc f).resets = s.resets := id rfl
@[simp] theorem State.inc_watch (f : F) : (s.inc f).watch = s.watch := id rfl
@[simp] theorem State.inc_rings (f : F) : (s.inc f).rings = s.rings := id rfl
@[simp] theorem State.inc_steer (f : F) : (s.inc f).steer = s.steer := id rfl
@[simp] theorem State.inc_rxHold (f : F) : (s.inc f).rxHold = s.rxHold := id rfl
@[simp] theorem State.inc_vecs (f : F) : (s.inc f).vecs = s.vecs := id rfl
@[simp] theorem State.inc_fnMsix (f : F) : (s.inc f).fnMsix = s.fnMsix := id rfl
@[simp] theorem State.inc_pcie (f : F) : (s.inc f).pcie = s.pcie := id rfl
@[simp] theorem State.inc_haltAt (f : F) : (s.inc f).haltAt = s.haltAt := id rfl
@[simp] theorem State.inc_bells (f : F) : (s.inc f).bells = s.bells := id rfl
@[simp] theorem State.inc_holdGone (f : F) : (s.inc f).holdGone = s.holdGone := id rfl
@[simp] theorem State.inc_shadowWas (f : F) : (s.inc f).shadowWas = s.shadowWas := id rfl
@[simp] theorem State.inc_dma (f : F) : (s.inc f).dma = s.dma := id rfl
@[simp] theorem State.inc_dmaLast (f : F) : (s.inc f).dmaLast = s.dmaLast := id rfl
@[simp] theorem State.inc_dreq (f : F) : (s.inc f).dreq = s.dreq := id rfl
@[simp] theorem State.inc_lanes (f : F) : (s.inc f).lanes = s.lanes := id rfl
@[simp] theorem State.inc_ports (f : F) : (s.inc f).ports = s.ports := id rfl
@[simp] theorem State.inc_ctrHi (f : F) : (s.inc f).ctrHi = s.ctrHi := id rfl
@[simp] theorem State.inc_ids (f : F) : (s.inc f).ids = s.ids := id rfl
@[simp] theorem State.inc_queues (f : F) : (s.inc f).queues = s.queues := id rfl
@[simp] theorem State.inc_rxOpen (f : F) : (s.inc f).rxOpen = s.rxOpen := id rfl
@[simp] theorem State.inc_heldFrames (f : F) : (s.inc f).heldFrames = s.heldFrames := id rfl
@[simp] theorem State.inc_claims (f : F) : (s.inc f).claims = s.claims := id rfl
@[simp] theorem State.inc_given (f : F) : (s.inc f).given = s.given := id rfl
@[simp] theorem State.inc_laerrs (f : F) : (s.inc f).laerrs = s.laerrs := id rfl
@[simp] theorem State.inc_str (f : F) : (s.inc f).str = s.str := id rfl
@[simp] theorem State.inc_meters (f : F) : (s.inc f).meters = s.meters := id rfl
@[simp] theorem State.inc_fdbSeen (f : F) : (s.inc f).fdbSeen = s.fdbSeen := id rfl
@[simp] theorem State.inc_frer (f : F) : (s.inc f).frer = s.frer := id rfl
@[simp] theorem State.inc_recs (f : F) : (s.inc f).recs = s.recs := id rfl
@[simp] theorem State.inc_fwdHist (f : F) : (s.inc f).fwdHist = s.fwdHist := id rfl
@[simp] theorem State.inc_nodeSeen (f : F) : (s.inc f).nodeSeen = s.nodeSeen := id rfl
@[simp] theorem State.inc_sps (f : F) : (s.inc f).sps = s.sps := id rfl
@[simp] theorem State.inc_cs (f : F) : (s.inc f).cs = s.cs := id rfl
@[simp] theorem State.inc_csCopy (f : F) : (s.inc f).csCopy = s.csCopy := id rfl
@[simp] theorem State.inc_csHost (f : F) : (s.inc f).csHost = s.csHost := id rfl
@[simp] theorem State.inc_nextev (f : F) : (s.inc f).nextev = s.nextev := id rfl
@[simp] theorem State.inc_nextevWas (f : F) : (s.inc f).nextevWas = s.nextevWas := id rfl
@[simp] theorem State.inc_pi (f : F) : (s.inc f).pi = s.pi := id rfl
@[simp] theorem State.inc_evin (f : F) : (s.inc f).evin = s.evin := id rfl
@[simp] theorem State.inc_targetLate (f : F) : (s.inc f).targetLate = s.targetLate := id rfl
@[simp] theorem State.inc_fired (f : F) : (s.inc f).fired = s.fired := id rfl
@[simp] theorem State.inc_ppsHigh (f : F) : (s.inc f).ppsHigh = s.ppsHigh := id rfl
@[simp] theorem State.inc_nodes (f : F) : (s.inc f).nodes = s.nodes := id rfl
@[simp] theorem State.inc_syns (f : F) : (s.inc f).syns = s.syns := id rfl
@[simp] theorem State.inc_asws (f : F) : (s.inc f).asws = s.asws := id rfl
@[simp] theorem State.inc_ptps (f : F) : (s.inc f).ptps = s.ptps := id rfl
@[simp] theorem State.inc_doms (f : F) : (s.inc f).doms = s.doms := id rfl
@[simp] theorem State.inc_mlds (f : F) : (s.inc f).mlds = s.mlds := id rfl
@[simp] theorem State.inc_pds (f : F) : (s.inc f).pds = s.pds := id rfl
@[simp] theorem State.inc_csts (f : F) : (s.inc f).csts = s.csts := id rfl
@[simp] theorem State.inc_grds (f : F) : (s.inc f).grds = s.grds := id rfl
@[simp] theorem State.inc_rxSas (f : F) : (s.inc f).rxSas = s.rxSas := id rfl
@[simp] theorem State.inc_txPn (f : F) : (s.inc f).txPn = s.txPn := id rfl
@[simp] theorem State.inc_stns (f : F) : (s.inc f).stns = s.stns := id rfl
@[simp] theorem State.inc_cars (f : F) : (s.inc f).cars = s.cars := id rfl
@[simp] theorem State.inc_copies (f : F) : (s.inc f).copies = s.copies := id rfl
@[simp] theorem State.inc_crf (f : F) : (s.inc f).crf = s.crf := id rfl
@[simp] theorem State.inc_pwr (f : F) : (s.inc f).pwr = s.pwr := id rfl
@[simp] theorem State.inc_quiet (f : F) : (s.inc f).quiet = s.quiet := id rfl
@[simp] theorem State.inc_syncNext (f : F) : (s.inc f).syncNext = s.syncNext := id rfl
@[simp] theorem State.inc_sec (f : F) : (s.inc f).sec = s.sec := id rfl
@[simp] theorem State.inc_keys (f : F) : (s.inc f).keys = s.keys := id rfl
@[simp] theorem State.inc_ulc (f : F) : (s.inc f).ulc = s.ulc := id rfl
@[simp] theorem State.inc_boot (f : F) : (s.inc f).boot = s.boot := id rfl
@[simp] theorem State.inc_jtag (f : F) : (s.inc f).jtag = s.jtag := id rfl
@[simp] theorem State.inc_smbAddr (f : F) : (s.inc f).smbAddr = s.smbAddr := id rfl
@[simp] theorem State.inc_sdLost (f : F) : (s.inc f).sdLost = s.sdLost := id rfl

/-! ### State.incBy -/

@[simp] theorem State.incBy_mem (f : F) (n : Nat) : (s.incBy f n).mem = s.mem := id rfl
@[simp] theorem State.incBy_hostMem (f : F) (n : Nat) : (s.incBy f n).hostMem = s.hostMem := id rfl
@[simp] theorem State.incBy_pending (f : F) (n : Nat) : (s.incBy f n).pending = s.pending := id rfl
@[simp] theorem State.incBy_free (f : F) (n : Nat) : (s.incBy f n).free = s.free := id rfl
@[simp] theorem State.incBy_out (f : F) (n : Nat) : (s.incBy f n).out = s.out := id rfl
@[simp] theorem State.incBy_now (f : F) (n : Nat) : (s.incBy f n).now = s.now := id rfl
@[simp] theorem State.incBy_locked (f : F) (n : Nat) : (s.incBy f n).locked = s.locked := id rfl
@[simp] theorem State.incBy_hostLocked (f : F) (n : Nat) : (s.incBy f n).hostLocked = s.hostLocked := id rfl
@[simp] theorem State.incBy_fatal (f : F) (n : Nat) : (s.incBy f n).fatal = s.fatal := id rfl
@[simp] theorem State.incBy_hbLost (f : F) (n : Nat) : (s.incBy f n).hbLost = s.hbLost := id rfl
@[simp] theorem State.incBy_collector (f : F) (n : Nat) : (s.incBy f n).collector = s.collector := id rfl
@[simp] theorem State.incBy_tbs (f : F) (n : Nat) : (s.incBy f n).tbs = s.tbs := id rfl
@[simp] theorem State.incBy_steps (f : F) (n : Nat) : (s.incBy f n).steps = s.steps := id rfl
@[simp] theorem State.incBy_tick (f : F) (n : Nat) : (s.incBy f n).tick = s.tick := id rfl
@[simp] theorem State.incBy_srcs (f : F) (n : Nat) : (s.incBy f n).srcs = s.srcs := id rfl
@[simp] theorem State.incBy_reacts (f : F) (n : Nat) : (s.incBy f n).reacts = s.reacts := id rfl
@[simp] theorem State.incBy_evAt (f : F) (n : Nat) : (s.incBy f n).evAt = s.evAt := id rfl
@[simp] theorem State.incBy_lines (f : F) (n : Nat) : (s.incBy f n).lines = s.lines := id rfl
@[simp] theorem State.incBy_meshOff (f : F) (n : Nat) : (s.incBy f n).meshOff = s.meshOff := id rfl
@[simp] theorem State.incBy_resets (f : F) (n : Nat) : (s.incBy f n).resets = s.resets := id rfl
@[simp] theorem State.incBy_watch (f : F) (n : Nat) : (s.incBy f n).watch = s.watch := id rfl
@[simp] theorem State.incBy_rings (f : F) (n : Nat) : (s.incBy f n).rings = s.rings := id rfl
@[simp] theorem State.incBy_steer (f : F) (n : Nat) : (s.incBy f n).steer = s.steer := id rfl
@[simp] theorem State.incBy_rxHold (f : F) (n : Nat) : (s.incBy f n).rxHold = s.rxHold := id rfl
@[simp] theorem State.incBy_vecs (f : F) (n : Nat) : (s.incBy f n).vecs = s.vecs := id rfl
@[simp] theorem State.incBy_fnMsix (f : F) (n : Nat) : (s.incBy f n).fnMsix = s.fnMsix := id rfl
@[simp] theorem State.incBy_pcie (f : F) (n : Nat) : (s.incBy f n).pcie = s.pcie := id rfl
@[simp] theorem State.incBy_haltAt (f : F) (n : Nat) : (s.incBy f n).haltAt = s.haltAt := id rfl
@[simp] theorem State.incBy_bells (f : F) (n : Nat) : (s.incBy f n).bells = s.bells := id rfl
@[simp] theorem State.incBy_holdGone (f : F) (n : Nat) : (s.incBy f n).holdGone = s.holdGone := id rfl
@[simp] theorem State.incBy_shadowWas (f : F) (n : Nat) : (s.incBy f n).shadowWas = s.shadowWas := id rfl
@[simp] theorem State.incBy_dma (f : F) (n : Nat) : (s.incBy f n).dma = s.dma := id rfl
@[simp] theorem State.incBy_dmaLast (f : F) (n : Nat) : (s.incBy f n).dmaLast = s.dmaLast := id rfl
@[simp] theorem State.incBy_dreq (f : F) (n : Nat) : (s.incBy f n).dreq = s.dreq := id rfl
@[simp] theorem State.incBy_lanes (f : F) (n : Nat) : (s.incBy f n).lanes = s.lanes := id rfl
@[simp] theorem State.incBy_ports (f : F) (n : Nat) : (s.incBy f n).ports = s.ports := id rfl
@[simp] theorem State.incBy_ctrHi (f : F) (n : Nat) : (s.incBy f n).ctrHi = s.ctrHi := id rfl
@[simp] theorem State.incBy_ids (f : F) (n : Nat) : (s.incBy f n).ids = s.ids := id rfl
@[simp] theorem State.incBy_queues (f : F) (n : Nat) : (s.incBy f n).queues = s.queues := id rfl
@[simp] theorem State.incBy_rxOpen (f : F) (n : Nat) : (s.incBy f n).rxOpen = s.rxOpen := id rfl
@[simp] theorem State.incBy_heldFrames (f : F) (n : Nat) : (s.incBy f n).heldFrames = s.heldFrames := id rfl
@[simp] theorem State.incBy_claims (f : F) (n : Nat) : (s.incBy f n).claims = s.claims := id rfl
@[simp] theorem State.incBy_given (f : F) (n : Nat) : (s.incBy f n).given = s.given := id rfl
@[simp] theorem State.incBy_laerrs (f : F) (n : Nat) : (s.incBy f n).laerrs = s.laerrs := id rfl
@[simp] theorem State.incBy_str (f : F) (n : Nat) : (s.incBy f n).str = s.str := id rfl
@[simp] theorem State.incBy_meters (f : F) (n : Nat) : (s.incBy f n).meters = s.meters := id rfl
@[simp] theorem State.incBy_fdbSeen (f : F) (n : Nat) : (s.incBy f n).fdbSeen = s.fdbSeen := id rfl
@[simp] theorem State.incBy_frer (f : F) (n : Nat) : (s.incBy f n).frer = s.frer := id rfl
@[simp] theorem State.incBy_recs (f : F) (n : Nat) : (s.incBy f n).recs = s.recs := id rfl
@[simp] theorem State.incBy_fwdHist (f : F) (n : Nat) : (s.incBy f n).fwdHist = s.fwdHist := id rfl
@[simp] theorem State.incBy_nodeSeen (f : F) (n : Nat) : (s.incBy f n).nodeSeen = s.nodeSeen := id rfl
@[simp] theorem State.incBy_sps (f : F) (n : Nat) : (s.incBy f n).sps = s.sps := id rfl
@[simp] theorem State.incBy_cs (f : F) (n : Nat) : (s.incBy f n).cs = s.cs := id rfl
@[simp] theorem State.incBy_csCopy (f : F) (n : Nat) : (s.incBy f n).csCopy = s.csCopy := id rfl
@[simp] theorem State.incBy_csHost (f : F) (n : Nat) : (s.incBy f n).csHost = s.csHost := id rfl
@[simp] theorem State.incBy_nextev (f : F) (n : Nat) : (s.incBy f n).nextev = s.nextev := id rfl
@[simp] theorem State.incBy_nextevWas (f : F) (n : Nat) : (s.incBy f n).nextevWas = s.nextevWas := id rfl
@[simp] theorem State.incBy_pi (f : F) (n : Nat) : (s.incBy f n).pi = s.pi := id rfl
@[simp] theorem State.incBy_evin (f : F) (n : Nat) : (s.incBy f n).evin = s.evin := id rfl
@[simp] theorem State.incBy_targetLate (f : F) (n : Nat) : (s.incBy f n).targetLate = s.targetLate := id rfl
@[simp] theorem State.incBy_fired (f : F) (n : Nat) : (s.incBy f n).fired = s.fired := id rfl
@[simp] theorem State.incBy_ppsHigh (f : F) (n : Nat) : (s.incBy f n).ppsHigh = s.ppsHigh := id rfl
@[simp] theorem State.incBy_nodes (f : F) (n : Nat) : (s.incBy f n).nodes = s.nodes := id rfl
@[simp] theorem State.incBy_syns (f : F) (n : Nat) : (s.incBy f n).syns = s.syns := id rfl
@[simp] theorem State.incBy_asws (f : F) (n : Nat) : (s.incBy f n).asws = s.asws := id rfl
@[simp] theorem State.incBy_ptps (f : F) (n : Nat) : (s.incBy f n).ptps = s.ptps := id rfl
@[simp] theorem State.incBy_doms (f : F) (n : Nat) : (s.incBy f n).doms = s.doms := id rfl
@[simp] theorem State.incBy_mlds (f : F) (n : Nat) : (s.incBy f n).mlds = s.mlds := id rfl
@[simp] theorem State.incBy_pds (f : F) (n : Nat) : (s.incBy f n).pds = s.pds := id rfl
@[simp] theorem State.incBy_csts (f : F) (n : Nat) : (s.incBy f n).csts = s.csts := id rfl
@[simp] theorem State.incBy_grds (f : F) (n : Nat) : (s.incBy f n).grds = s.grds := id rfl
@[simp] theorem State.incBy_rxSas (f : F) (n : Nat) : (s.incBy f n).rxSas = s.rxSas := id rfl
@[simp] theorem State.incBy_txPn (f : F) (n : Nat) : (s.incBy f n).txPn = s.txPn := id rfl
@[simp] theorem State.incBy_stns (f : F) (n : Nat) : (s.incBy f n).stns = s.stns := id rfl
@[simp] theorem State.incBy_cars (f : F) (n : Nat) : (s.incBy f n).cars = s.cars := id rfl
@[simp] theorem State.incBy_copies (f : F) (n : Nat) : (s.incBy f n).copies = s.copies := id rfl
@[simp] theorem State.incBy_crf (f : F) (n : Nat) : (s.incBy f n).crf = s.crf := id rfl
@[simp] theorem State.incBy_pwr (f : F) (n : Nat) : (s.incBy f n).pwr = s.pwr := id rfl
@[simp] theorem State.incBy_quiet (f : F) (n : Nat) : (s.incBy f n).quiet = s.quiet := id rfl
@[simp] theorem State.incBy_syncNext (f : F) (n : Nat) : (s.incBy f n).syncNext = s.syncNext := id rfl
@[simp] theorem State.incBy_sec (f : F) (n : Nat) : (s.incBy f n).sec = s.sec := id rfl
@[simp] theorem State.incBy_keys (f : F) (n : Nat) : (s.incBy f n).keys = s.keys := id rfl
@[simp] theorem State.incBy_ulc (f : F) (n : Nat) : (s.incBy f n).ulc = s.ulc := id rfl
@[simp] theorem State.incBy_boot (f : F) (n : Nat) : (s.incBy f n).boot = s.boot := id rfl
@[simp] theorem State.incBy_jtag (f : F) (n : Nat) : (s.incBy f n).jtag = s.jtag := id rfl
@[simp] theorem State.incBy_smbAddr (f : F) (n : Nat) : (s.incBy f n).smbAddr = s.smbAddr := id rfl
@[simp] theorem State.incBy_sdLost (f : F) (n : Nat) : (s.incBy f n).sdLost = s.sdLost := id rfl

/-! ### State.incW -/

@[simp] theorem State.incW_mem (f : F) : (s.incW f).mem = s.mem := id rfl
@[simp] theorem State.incW_hostMem (f : F) : (s.incW f).hostMem = s.hostMem := id rfl
@[simp] theorem State.incW_pending (f : F) : (s.incW f).pending = s.pending := id rfl
@[simp] theorem State.incW_free (f : F) : (s.incW f).free = s.free := id rfl
@[simp] theorem State.incW_out (f : F) : (s.incW f).out = s.out := id rfl
@[simp] theorem State.incW_now (f : F) : (s.incW f).now = s.now := id rfl
@[simp] theorem State.incW_locked (f : F) : (s.incW f).locked = s.locked := id rfl
@[simp] theorem State.incW_hostLocked (f : F) : (s.incW f).hostLocked = s.hostLocked := id rfl
@[simp] theorem State.incW_fatal (f : F) : (s.incW f).fatal = s.fatal := id rfl
@[simp] theorem State.incW_hbLost (f : F) : (s.incW f).hbLost = s.hbLost := id rfl
@[simp] theorem State.incW_collector (f : F) : (s.incW f).collector = s.collector := id rfl
@[simp] theorem State.incW_tbs (f : F) : (s.incW f).tbs = s.tbs := id rfl
@[simp] theorem State.incW_steps (f : F) : (s.incW f).steps = s.steps := id rfl
@[simp] theorem State.incW_tick (f : F) : (s.incW f).tick = s.tick := id rfl
@[simp] theorem State.incW_srcs (f : F) : (s.incW f).srcs = s.srcs := id rfl
@[simp] theorem State.incW_reacts (f : F) : (s.incW f).reacts = s.reacts := id rfl
@[simp] theorem State.incW_evAt (f : F) : (s.incW f).evAt = s.evAt := id rfl
@[simp] theorem State.incW_lines (f : F) : (s.incW f).lines = s.lines := id rfl
@[simp] theorem State.incW_meshOff (f : F) : (s.incW f).meshOff = s.meshOff := id rfl
@[simp] theorem State.incW_resets (f : F) : (s.incW f).resets = s.resets := id rfl
@[simp] theorem State.incW_watch (f : F) : (s.incW f).watch = s.watch := id rfl
@[simp] theorem State.incW_rings (f : F) : (s.incW f).rings = s.rings := id rfl
@[simp] theorem State.incW_steer (f : F) : (s.incW f).steer = s.steer := id rfl
@[simp] theorem State.incW_rxHold (f : F) : (s.incW f).rxHold = s.rxHold := id rfl
@[simp] theorem State.incW_vecs (f : F) : (s.incW f).vecs = s.vecs := id rfl
@[simp] theorem State.incW_fnMsix (f : F) : (s.incW f).fnMsix = s.fnMsix := id rfl
@[simp] theorem State.incW_pcie (f : F) : (s.incW f).pcie = s.pcie := id rfl
@[simp] theorem State.incW_haltAt (f : F) : (s.incW f).haltAt = s.haltAt := id rfl
@[simp] theorem State.incW_bells (f : F) : (s.incW f).bells = s.bells := id rfl
@[simp] theorem State.incW_holdGone (f : F) : (s.incW f).holdGone = s.holdGone := id rfl
@[simp] theorem State.incW_shadowWas (f : F) : (s.incW f).shadowWas = s.shadowWas := id rfl
@[simp] theorem State.incW_dma (f : F) : (s.incW f).dma = s.dma := id rfl
@[simp] theorem State.incW_dmaLast (f : F) : (s.incW f).dmaLast = s.dmaLast := id rfl
@[simp] theorem State.incW_dreq (f : F) : (s.incW f).dreq = s.dreq := id rfl
@[simp] theorem State.incW_lanes (f : F) : (s.incW f).lanes = s.lanes := id rfl
@[simp] theorem State.incW_ports (f : F) : (s.incW f).ports = s.ports := id rfl
@[simp] theorem State.incW_ctrHi (f : F) : (s.incW f).ctrHi = s.ctrHi := id rfl
@[simp] theorem State.incW_ids (f : F) : (s.incW f).ids = s.ids := id rfl
@[simp] theorem State.incW_queues (f : F) : (s.incW f).queues = s.queues := id rfl
@[simp] theorem State.incW_rxOpen (f : F) : (s.incW f).rxOpen = s.rxOpen := id rfl
@[simp] theorem State.incW_heldFrames (f : F) : (s.incW f).heldFrames = s.heldFrames := id rfl
@[simp] theorem State.incW_claims (f : F) : (s.incW f).claims = s.claims := id rfl
@[simp] theorem State.incW_given (f : F) : (s.incW f).given = s.given := id rfl
@[simp] theorem State.incW_laerrs (f : F) : (s.incW f).laerrs = s.laerrs := id rfl
@[simp] theorem State.incW_str (f : F) : (s.incW f).str = s.str := id rfl
@[simp] theorem State.incW_meters (f : F) : (s.incW f).meters = s.meters := id rfl
@[simp] theorem State.incW_fdbSeen (f : F) : (s.incW f).fdbSeen = s.fdbSeen := id rfl
@[simp] theorem State.incW_frer (f : F) : (s.incW f).frer = s.frer := id rfl
@[simp] theorem State.incW_recs (f : F) : (s.incW f).recs = s.recs := id rfl
@[simp] theorem State.incW_fwdHist (f : F) : (s.incW f).fwdHist = s.fwdHist := id rfl
@[simp] theorem State.incW_nodeSeen (f : F) : (s.incW f).nodeSeen = s.nodeSeen := id rfl
@[simp] theorem State.incW_sps (f : F) : (s.incW f).sps = s.sps := id rfl
@[simp] theorem State.incW_cs (f : F) : (s.incW f).cs = s.cs := id rfl
@[simp] theorem State.incW_csCopy (f : F) : (s.incW f).csCopy = s.csCopy := id rfl
@[simp] theorem State.incW_csHost (f : F) : (s.incW f).csHost = s.csHost := id rfl
@[simp] theorem State.incW_nextev (f : F) : (s.incW f).nextev = s.nextev := id rfl
@[simp] theorem State.incW_nextevWas (f : F) : (s.incW f).nextevWas = s.nextevWas := id rfl
@[simp] theorem State.incW_pi (f : F) : (s.incW f).pi = s.pi := id rfl
@[simp] theorem State.incW_evin (f : F) : (s.incW f).evin = s.evin := id rfl
@[simp] theorem State.incW_targetLate (f : F) : (s.incW f).targetLate = s.targetLate := id rfl
@[simp] theorem State.incW_fired (f : F) : (s.incW f).fired = s.fired := id rfl
@[simp] theorem State.incW_ppsHigh (f : F) : (s.incW f).ppsHigh = s.ppsHigh := id rfl
@[simp] theorem State.incW_nodes (f : F) : (s.incW f).nodes = s.nodes := id rfl
@[simp] theorem State.incW_syns (f : F) : (s.incW f).syns = s.syns := id rfl
@[simp] theorem State.incW_asws (f : F) : (s.incW f).asws = s.asws := id rfl
@[simp] theorem State.incW_ptps (f : F) : (s.incW f).ptps = s.ptps := id rfl
@[simp] theorem State.incW_doms (f : F) : (s.incW f).doms = s.doms := id rfl
@[simp] theorem State.incW_mlds (f : F) : (s.incW f).mlds = s.mlds := id rfl
@[simp] theorem State.incW_pds (f : F) : (s.incW f).pds = s.pds := id rfl
@[simp] theorem State.incW_csts (f : F) : (s.incW f).csts = s.csts := id rfl
@[simp] theorem State.incW_grds (f : F) : (s.incW f).grds = s.grds := id rfl
@[simp] theorem State.incW_rxSas (f : F) : (s.incW f).rxSas = s.rxSas := id rfl
@[simp] theorem State.incW_txPn (f : F) : (s.incW f).txPn = s.txPn := id rfl
@[simp] theorem State.incW_stns (f : F) : (s.incW f).stns = s.stns := id rfl
@[simp] theorem State.incW_cars (f : F) : (s.incW f).cars = s.cars := id rfl
@[simp] theorem State.incW_copies (f : F) : (s.incW f).copies = s.copies := id rfl
@[simp] theorem State.incW_crf (f : F) : (s.incW f).crf = s.crf := id rfl
@[simp] theorem State.incW_pwr (f : F) : (s.incW f).pwr = s.pwr := id rfl
@[simp] theorem State.incW_quiet (f : F) : (s.incW f).quiet = s.quiet := id rfl
@[simp] theorem State.incW_syncNext (f : F) : (s.incW f).syncNext = s.syncNext := id rfl
@[simp] theorem State.incW_sec (f : F) : (s.incW f).sec = s.sec := id rfl
@[simp] theorem State.incW_keys (f : F) : (s.incW f).keys = s.keys := id rfl
@[simp] theorem State.incW_ulc (f : F) : (s.incW f).ulc = s.ulc := id rfl
@[simp] theorem State.incW_boot (f : F) : (s.incW f).boot = s.boot := id rfl
@[simp] theorem State.incW_jtag (f : F) : (s.incW f).jtag = s.jtag := id rfl
@[simp] theorem State.incW_smbAddr (f : F) : (s.incW f).smbAddr = s.smbAddr := id rfl
@[simp] theorem State.incW_sdLost (f : F) : (s.incW f).sdLost = s.sdLost := id rfl

/-! ### State.setW -/

@[simp] theorem State.setW_mem (o : Nat) (v : Word) : (s.setW o v).mem = s.mem := id rfl
@[simp] theorem State.setW_hostMem (o : Nat) (v : Word) : (s.setW o v).hostMem = s.hostMem := id rfl
@[simp] theorem State.setW_pending (o : Nat) (v : Word) : (s.setW o v).pending = s.pending := id rfl
@[simp] theorem State.setW_free (o : Nat) (v : Word) : (s.setW o v).free = s.free := id rfl
@[simp] theorem State.setW_out (o : Nat) (v : Word) : (s.setW o v).out = s.out := id rfl
@[simp] theorem State.setW_now (o : Nat) (v : Word) : (s.setW o v).now = s.now := id rfl
@[simp] theorem State.setW_locked (o : Nat) (v : Word) : (s.setW o v).locked = s.locked := id rfl
@[simp] theorem State.setW_hostLocked (o : Nat) (v : Word) : (s.setW o v).hostLocked = s.hostLocked := id rfl
@[simp] theorem State.setW_fatal (o : Nat) (v : Word) : (s.setW o v).fatal = s.fatal := id rfl
@[simp] theorem State.setW_hbLost (o : Nat) (v : Word) : (s.setW o v).hbLost = s.hbLost := id rfl
@[simp] theorem State.setW_collector (o : Nat) (v : Word) : (s.setW o v).collector = s.collector := id rfl
@[simp] theorem State.setW_tbs (o : Nat) (v : Word) : (s.setW o v).tbs = s.tbs := id rfl
@[simp] theorem State.setW_steps (o : Nat) (v : Word) : (s.setW o v).steps = s.steps := id rfl
@[simp] theorem State.setW_tick (o : Nat) (v : Word) : (s.setW o v).tick = s.tick := id rfl
@[simp] theorem State.setW_srcs (o : Nat) (v : Word) : (s.setW o v).srcs = s.srcs := id rfl
@[simp] theorem State.setW_reacts (o : Nat) (v : Word) : (s.setW o v).reacts = s.reacts := id rfl
@[simp] theorem State.setW_evAt (o : Nat) (v : Word) : (s.setW o v).evAt = s.evAt := id rfl
@[simp] theorem State.setW_lines (o : Nat) (v : Word) : (s.setW o v).lines = s.lines := id rfl
@[simp] theorem State.setW_meshOff (o : Nat) (v : Word) : (s.setW o v).meshOff = s.meshOff := id rfl
@[simp] theorem State.setW_resets (o : Nat) (v : Word) : (s.setW o v).resets = s.resets := id rfl
@[simp] theorem State.setW_watch (o : Nat) (v : Word) : (s.setW o v).watch = s.watch := id rfl
@[simp] theorem State.setW_rings (o : Nat) (v : Word) : (s.setW o v).rings = s.rings := id rfl
@[simp] theorem State.setW_steer (o : Nat) (v : Word) : (s.setW o v).steer = s.steer := id rfl
@[simp] theorem State.setW_rxHold (o : Nat) (v : Word) : (s.setW o v).rxHold = s.rxHold := id rfl
@[simp] theorem State.setW_vecs (o : Nat) (v : Word) : (s.setW o v).vecs = s.vecs := id rfl
@[simp] theorem State.setW_fnMsix (o : Nat) (v : Word) : (s.setW o v).fnMsix = s.fnMsix := id rfl
@[simp] theorem State.setW_pcie (o : Nat) (v : Word) : (s.setW o v).pcie = s.pcie := id rfl
@[simp] theorem State.setW_haltAt (o : Nat) (v : Word) : (s.setW o v).haltAt = s.haltAt := id rfl
@[simp] theorem State.setW_bells (o : Nat) (v : Word) : (s.setW o v).bells = s.bells := id rfl
@[simp] theorem State.setW_holdGone (o : Nat) (v : Word) : (s.setW o v).holdGone = s.holdGone := id rfl
@[simp] theorem State.setW_shadowWas (o : Nat) (v : Word) : (s.setW o v).shadowWas = s.shadowWas := id rfl
@[simp] theorem State.setW_dma (o : Nat) (v : Word) : (s.setW o v).dma = s.dma := id rfl
@[simp] theorem State.setW_dmaLast (o : Nat) (v : Word) : (s.setW o v).dmaLast = s.dmaLast := id rfl
@[simp] theorem State.setW_dreq (o : Nat) (v : Word) : (s.setW o v).dreq = s.dreq := id rfl
@[simp] theorem State.setW_lanes (o : Nat) (v : Word) : (s.setW o v).lanes = s.lanes := id rfl
@[simp] theorem State.setW_ports (o : Nat) (v : Word) : (s.setW o v).ports = s.ports := id rfl
@[simp] theorem State.setW_ctrHi (o : Nat) (v : Word) : (s.setW o v).ctrHi = s.ctrHi := id rfl
@[simp] theorem State.setW_ids (o : Nat) (v : Word) : (s.setW o v).ids = s.ids := id rfl
@[simp] theorem State.setW_queues (o : Nat) (v : Word) : (s.setW o v).queues = s.queues := id rfl
@[simp] theorem State.setW_rxOpen (o : Nat) (v : Word) : (s.setW o v).rxOpen = s.rxOpen := id rfl
@[simp] theorem State.setW_heldFrames (o : Nat) (v : Word) : (s.setW o v).heldFrames = s.heldFrames := id rfl
@[simp] theorem State.setW_claims (o : Nat) (v : Word) : (s.setW o v).claims = s.claims := id rfl
@[simp] theorem State.setW_given (o : Nat) (v : Word) : (s.setW o v).given = s.given := id rfl
@[simp] theorem State.setW_laerrs (o : Nat) (v : Word) : (s.setW o v).laerrs = s.laerrs := id rfl
@[simp] theorem State.setW_str (o : Nat) (v : Word) : (s.setW o v).str = s.str := id rfl
@[simp] theorem State.setW_meters (o : Nat) (v : Word) : (s.setW o v).meters = s.meters := id rfl
@[simp] theorem State.setW_fdbSeen (o : Nat) (v : Word) : (s.setW o v).fdbSeen = s.fdbSeen := id rfl
@[simp] theorem State.setW_frer (o : Nat) (v : Word) : (s.setW o v).frer = s.frer := id rfl
@[simp] theorem State.setW_recs (o : Nat) (v : Word) : (s.setW o v).recs = s.recs := id rfl
@[simp] theorem State.setW_fwdHist (o : Nat) (v : Word) : (s.setW o v).fwdHist = s.fwdHist := id rfl
@[simp] theorem State.setW_nodeSeen (o : Nat) (v : Word) : (s.setW o v).nodeSeen = s.nodeSeen := id rfl
@[simp] theorem State.setW_sps (o : Nat) (v : Word) : (s.setW o v).sps = s.sps := id rfl
@[simp] theorem State.setW_cs (o : Nat) (v : Word) : (s.setW o v).cs = s.cs := id rfl
@[simp] theorem State.setW_csCopy (o : Nat) (v : Word) : (s.setW o v).csCopy = s.csCopy := id rfl
@[simp] theorem State.setW_csHost (o : Nat) (v : Word) : (s.setW o v).csHost = s.csHost := id rfl
@[simp] theorem State.setW_nextev (o : Nat) (v : Word) : (s.setW o v).nextev = s.nextev := id rfl
@[simp] theorem State.setW_nextevWas (o : Nat) (v : Word) : (s.setW o v).nextevWas = s.nextevWas := id rfl
@[simp] theorem State.setW_pi (o : Nat) (v : Word) : (s.setW o v).pi = s.pi := id rfl
@[simp] theorem State.setW_evin (o : Nat) (v : Word) : (s.setW o v).evin = s.evin := id rfl
@[simp] theorem State.setW_targetLate (o : Nat) (v : Word) : (s.setW o v).targetLate = s.targetLate := id rfl
@[simp] theorem State.setW_fired (o : Nat) (v : Word) : (s.setW o v).fired = s.fired := id rfl
@[simp] theorem State.setW_ppsHigh (o : Nat) (v : Word) : (s.setW o v).ppsHigh = s.ppsHigh := id rfl
@[simp] theorem State.setW_nodes (o : Nat) (v : Word) : (s.setW o v).nodes = s.nodes := id rfl
@[simp] theorem State.setW_syns (o : Nat) (v : Word) : (s.setW o v).syns = s.syns := id rfl
@[simp] theorem State.setW_asws (o : Nat) (v : Word) : (s.setW o v).asws = s.asws := id rfl
@[simp] theorem State.setW_ptps (o : Nat) (v : Word) : (s.setW o v).ptps = s.ptps := id rfl
@[simp] theorem State.setW_doms (o : Nat) (v : Word) : (s.setW o v).doms = s.doms := id rfl
@[simp] theorem State.setW_mlds (o : Nat) (v : Word) : (s.setW o v).mlds = s.mlds := id rfl
@[simp] theorem State.setW_pds (o : Nat) (v : Word) : (s.setW o v).pds = s.pds := id rfl
@[simp] theorem State.setW_csts (o : Nat) (v : Word) : (s.setW o v).csts = s.csts := id rfl
@[simp] theorem State.setW_grds (o : Nat) (v : Word) : (s.setW o v).grds = s.grds := id rfl
@[simp] theorem State.setW_rxSas (o : Nat) (v : Word) : (s.setW o v).rxSas = s.rxSas := id rfl
@[simp] theorem State.setW_txPn (o : Nat) (v : Word) : (s.setW o v).txPn = s.txPn := id rfl
@[simp] theorem State.setW_stns (o : Nat) (v : Word) : (s.setW o v).stns = s.stns := id rfl
@[simp] theorem State.setW_cars (o : Nat) (v : Word) : (s.setW o v).cars = s.cars := id rfl
@[simp] theorem State.setW_copies (o : Nat) (v : Word) : (s.setW o v).copies = s.copies := id rfl
@[simp] theorem State.setW_crf (o : Nat) (v : Word) : (s.setW o v).crf = s.crf := id rfl
@[simp] theorem State.setW_pwr (o : Nat) (v : Word) : (s.setW o v).pwr = s.pwr := id rfl
@[simp] theorem State.setW_quiet (o : Nat) (v : Word) : (s.setW o v).quiet = s.quiet := id rfl
@[simp] theorem State.setW_syncNext (o : Nat) (v : Word) : (s.setW o v).syncNext = s.syncNext := id rfl
@[simp] theorem State.setW_sec (o : Nat) (v : Word) : (s.setW o v).sec = s.sec := id rfl
@[simp] theorem State.setW_keys (o : Nat) (v : Word) : (s.setW o v).keys = s.keys := id rfl
@[simp] theorem State.setW_ulc (o : Nat) (v : Word) : (s.setW o v).ulc = s.ulc := id rfl
@[simp] theorem State.setW_boot (o : Nat) (v : Word) : (s.setW o v).boot = s.boot := id rfl
@[simp] theorem State.setW_jtag (o : Nat) (v : Word) : (s.setW o v).jtag = s.jtag := id rfl
@[simp] theorem State.setW_smbAddr (o : Nat) (v : Word) : (s.setW o v).smbAddr = s.smbAddr := id rfl
@[simp] theorem State.setW_sdLost (o : Nat) (v : Word) : (s.setW o v).sdLost = s.sdLost := id rfl

/-! ### State.emit -/

@[simp] theorem State.emit_regs (e : Emit) : (s.emit e).regs = s.regs := id rfl
@[simp] theorem State.emit_mem (e : Emit) : (s.emit e).mem = s.mem := id rfl
@[simp] theorem State.emit_hostMem (e : Emit) : (s.emit e).hostMem = s.hostMem := id rfl
@[simp] theorem State.emit_pending (e : Emit) : (s.emit e).pending = s.pending := id rfl
@[simp] theorem State.emit_free (e : Emit) : (s.emit e).free = s.free := id rfl
@[simp] theorem State.emit_now (e : Emit) : (s.emit e).now = s.now := id rfl
@[simp] theorem State.emit_locked (e : Emit) : (s.emit e).locked = s.locked := id rfl
@[simp] theorem State.emit_hostLocked (e : Emit) : (s.emit e).hostLocked = s.hostLocked := id rfl
@[simp] theorem State.emit_fatal (e : Emit) : (s.emit e).fatal = s.fatal := id rfl
@[simp] theorem State.emit_hbLost (e : Emit) : (s.emit e).hbLost = s.hbLost := id rfl
@[simp] theorem State.emit_collector (e : Emit) : (s.emit e).collector = s.collector := id rfl
@[simp] theorem State.emit_tbs (e : Emit) : (s.emit e).tbs = s.tbs := id rfl
@[simp] theorem State.emit_steps (e : Emit) : (s.emit e).steps = s.steps := id rfl
@[simp] theorem State.emit_tick (e : Emit) : (s.emit e).tick = s.tick := id rfl
@[simp] theorem State.emit_srcs (e : Emit) : (s.emit e).srcs = s.srcs := id rfl
@[simp] theorem State.emit_reacts (e : Emit) : (s.emit e).reacts = s.reacts := id rfl
@[simp] theorem State.emit_evAt (e : Emit) : (s.emit e).evAt = s.evAt := id rfl
@[simp] theorem State.emit_lines (e : Emit) : (s.emit e).lines = s.lines := id rfl
@[simp] theorem State.emit_meshOff (e : Emit) : (s.emit e).meshOff = s.meshOff := id rfl
@[simp] theorem State.emit_resets (e : Emit) : (s.emit e).resets = s.resets := id rfl
@[simp] theorem State.emit_watch (e : Emit) : (s.emit e).watch = s.watch := id rfl
@[simp] theorem State.emit_rings (e : Emit) : (s.emit e).rings = s.rings := id rfl
@[simp] theorem State.emit_steer (e : Emit) : (s.emit e).steer = s.steer := id rfl
@[simp] theorem State.emit_rxHold (e : Emit) : (s.emit e).rxHold = s.rxHold := id rfl
@[simp] theorem State.emit_vecs (e : Emit) : (s.emit e).vecs = s.vecs := id rfl
@[simp] theorem State.emit_fnMsix (e : Emit) : (s.emit e).fnMsix = s.fnMsix := id rfl
@[simp] theorem State.emit_pcie (e : Emit) : (s.emit e).pcie = s.pcie := id rfl
@[simp] theorem State.emit_haltAt (e : Emit) : (s.emit e).haltAt = s.haltAt := id rfl
@[simp] theorem State.emit_bells (e : Emit) : (s.emit e).bells = s.bells := id rfl
@[simp] theorem State.emit_holdGone (e : Emit) : (s.emit e).holdGone = s.holdGone := id rfl
@[simp] theorem State.emit_shadowWas (e : Emit) : (s.emit e).shadowWas = s.shadowWas := id rfl
@[simp] theorem State.emit_dma (e : Emit) : (s.emit e).dma = s.dma := id rfl
@[simp] theorem State.emit_dmaLast (e : Emit) : (s.emit e).dmaLast = s.dmaLast := id rfl
@[simp] theorem State.emit_dreq (e : Emit) : (s.emit e).dreq = s.dreq := id rfl
@[simp] theorem State.emit_lanes (e : Emit) : (s.emit e).lanes = s.lanes := id rfl
@[simp] theorem State.emit_ports (e : Emit) : (s.emit e).ports = s.ports := id rfl
@[simp] theorem State.emit_ctrHi (e : Emit) : (s.emit e).ctrHi = s.ctrHi := id rfl
@[simp] theorem State.emit_ids (e : Emit) : (s.emit e).ids = s.ids := id rfl
@[simp] theorem State.emit_queues (e : Emit) : (s.emit e).queues = s.queues := id rfl
@[simp] theorem State.emit_rxOpen (e : Emit) : (s.emit e).rxOpen = s.rxOpen := id rfl
@[simp] theorem State.emit_heldFrames (e : Emit) : (s.emit e).heldFrames = s.heldFrames := id rfl
@[simp] theorem State.emit_claims (e : Emit) : (s.emit e).claims = s.claims := id rfl
@[simp] theorem State.emit_given (e : Emit) : (s.emit e).given = s.given := id rfl
@[simp] theorem State.emit_laerrs (e : Emit) : (s.emit e).laerrs = s.laerrs := id rfl
@[simp] theorem State.emit_str (e : Emit) : (s.emit e).str = s.str := id rfl
@[simp] theorem State.emit_meters (e : Emit) : (s.emit e).meters = s.meters := id rfl
@[simp] theorem State.emit_fdbSeen (e : Emit) : (s.emit e).fdbSeen = s.fdbSeen := id rfl
@[simp] theorem State.emit_frer (e : Emit) : (s.emit e).frer = s.frer := id rfl
@[simp] theorem State.emit_recs (e : Emit) : (s.emit e).recs = s.recs := id rfl
@[simp] theorem State.emit_fwdHist (e : Emit) : (s.emit e).fwdHist = s.fwdHist := id rfl
@[simp] theorem State.emit_nodeSeen (e : Emit) : (s.emit e).nodeSeen = s.nodeSeen := id rfl
@[simp] theorem State.emit_sps (e : Emit) : (s.emit e).sps = s.sps := id rfl
@[simp] theorem State.emit_cs (e : Emit) : (s.emit e).cs = s.cs := id rfl
@[simp] theorem State.emit_csCopy (e : Emit) : (s.emit e).csCopy = s.csCopy := id rfl
@[simp] theorem State.emit_csHost (e : Emit) : (s.emit e).csHost = s.csHost := id rfl
@[simp] theorem State.emit_nextev (e : Emit) : (s.emit e).nextev = s.nextev := id rfl
@[simp] theorem State.emit_nextevWas (e : Emit) : (s.emit e).nextevWas = s.nextevWas := id rfl
@[simp] theorem State.emit_pi (e : Emit) : (s.emit e).pi = s.pi := id rfl
@[simp] theorem State.emit_evin (e : Emit) : (s.emit e).evin = s.evin := id rfl
@[simp] theorem State.emit_targetLate (e : Emit) : (s.emit e).targetLate = s.targetLate := id rfl
@[simp] theorem State.emit_fired (e : Emit) : (s.emit e).fired = s.fired := id rfl
@[simp] theorem State.emit_ppsHigh (e : Emit) : (s.emit e).ppsHigh = s.ppsHigh := id rfl
@[simp] theorem State.emit_nodes (e : Emit) : (s.emit e).nodes = s.nodes := id rfl
@[simp] theorem State.emit_syns (e : Emit) : (s.emit e).syns = s.syns := id rfl
@[simp] theorem State.emit_asws (e : Emit) : (s.emit e).asws = s.asws := id rfl
@[simp] theorem State.emit_ptps (e : Emit) : (s.emit e).ptps = s.ptps := id rfl
@[simp] theorem State.emit_doms (e : Emit) : (s.emit e).doms = s.doms := id rfl
@[simp] theorem State.emit_mlds (e : Emit) : (s.emit e).mlds = s.mlds := id rfl
@[simp] theorem State.emit_pds (e : Emit) : (s.emit e).pds = s.pds := id rfl
@[simp] theorem State.emit_csts (e : Emit) : (s.emit e).csts = s.csts := id rfl
@[simp] theorem State.emit_grds (e : Emit) : (s.emit e).grds = s.grds := id rfl
@[simp] theorem State.emit_rxSas (e : Emit) : (s.emit e).rxSas = s.rxSas := id rfl
@[simp] theorem State.emit_txPn (e : Emit) : (s.emit e).txPn = s.txPn := id rfl
@[simp] theorem State.emit_stns (e : Emit) : (s.emit e).stns = s.stns := id rfl
@[simp] theorem State.emit_cars (e : Emit) : (s.emit e).cars = s.cars := id rfl
@[simp] theorem State.emit_copies (e : Emit) : (s.emit e).copies = s.copies := id rfl
@[simp] theorem State.emit_crf (e : Emit) : (s.emit e).crf = s.crf := id rfl
@[simp] theorem State.emit_pwr (e : Emit) : (s.emit e).pwr = s.pwr := id rfl
@[simp] theorem State.emit_quiet (e : Emit) : (s.emit e).quiet = s.quiet := id rfl
@[simp] theorem State.emit_syncNext (e : Emit) : (s.emit e).syncNext = s.syncNext := id rfl
@[simp] theorem State.emit_sec (e : Emit) : (s.emit e).sec = s.sec := id rfl
@[simp] theorem State.emit_keys (e : Emit) : (s.emit e).keys = s.keys := id rfl
@[simp] theorem State.emit_ulc (e : Emit) : (s.emit e).ulc = s.ulc := id rfl
@[simp] theorem State.emit_boot (e : Emit) : (s.emit e).boot = s.boot := id rfl
@[simp] theorem State.emit_jtag (e : Emit) : (s.emit e).jtag = s.jtag := id rfl
@[simp] theorem State.emit_smbAddr (e : Emit) : (s.emit e).smbAddr = s.smbAddr := id rfl
@[simp] theorem State.emit_sdLost (e : Emit) : (s.emit e).sdLost = s.sdLost := id rfl
@[simp] theorem State.emit_get (e : Emit) (g : F) : (s.emit e).get g = s.get g := id rfl
@[simp] theorem State.emit_flag (e : Emit) (g : F) : (s.emit e).flag g = s.flag g := id rfl

/-! ### State.putBytes -/

@[simp] theorem State.putBytes_regs (a : Nat) (b : Bytes) : (s.putBytes a b).regs = s.regs := id rfl
@[simp] theorem State.putBytes_hostMem (a : Nat) (b : Bytes) : (s.putBytes a b).hostMem = s.hostMem := id rfl
@[simp] theorem State.putBytes_pending (a : Nat) (b : Bytes) : (s.putBytes a b).pending = s.pending := id rfl
@[simp] theorem State.putBytes_free (a : Nat) (b : Bytes) : (s.putBytes a b).free = s.free := id rfl
@[simp] theorem State.putBytes_out (a : Nat) (b : Bytes) : (s.putBytes a b).out = s.out := id rfl
@[simp] theorem State.putBytes_now (a : Nat) (b : Bytes) : (s.putBytes a b).now = s.now := id rfl
@[simp] theorem State.putBytes_locked (a : Nat) (b : Bytes) : (s.putBytes a b).locked = s.locked := id rfl
@[simp] theorem State.putBytes_fatal (a : Nat) (b : Bytes) : (s.putBytes a b).fatal = s.fatal := id rfl
@[simp] theorem State.putBytes_tbs (a : Nat) (b : Bytes) : (s.putBytes a b).tbs = s.tbs := id rfl
@[simp] theorem State.putBytes_tick (a : Nat) (b : Bytes) : (s.putBytes a b).tick = s.tick := id rfl
@[simp] theorem State.putBytes_ports (a : Nat) (b : Bytes) : (s.putBytes a b).ports = s.ports := id rfl
@[simp] theorem State.putBytes_rxSas (a : Nat) (b : Bytes) : (s.putBytes a b).rxSas = s.rxSas := id rfl
@[simp] theorem State.putBytes_keys (a : Nat) (b : Bytes) : (s.putBytes a b).keys = s.keys := id rfl
@[simp] theorem State.putBytes_get (a : Nat) (b : Bytes) (g : F) : (s.putBytes a b).get g = s.get g := id rfl
@[simp] theorem State.putBytes_flag (a : Nat) (b : Bytes) (g : F) : (s.putBytes a b).flag g = s.flag g := id rfl

/-! ### State.hostPut -/

@[simp] theorem State.hostPut_regs (a : Nat) (b : Bytes) : (s.hostPut a b).regs = s.regs := id rfl
@[simp] theorem State.hostPut_mem (a : Nat) (b : Bytes) : (s.hostPut a b).mem = s.mem := id rfl
@[simp] theorem State.hostPut_pending (a : Nat) (b : Bytes) : (s.hostPut a b).pending = s.pending := id rfl
@[simp] theorem State.hostPut_free (a : Nat) (b : Bytes) : (s.hostPut a b).free = s.free := id rfl
@[simp] theorem State.hostPut_out (a : Nat) (b : Bytes) : (s.hostPut a b).out = s.out := id rfl
@[simp] theorem State.hostPut_now (a : Nat) (b : Bytes) : (s.hostPut a b).now = s.now := id rfl
@[simp] theorem State.hostPut_locked (a : Nat) (b : Bytes) : (s.hostPut a b).locked = s.locked := id rfl
@[simp] theorem State.hostPut_fatal (a : Nat) (b : Bytes) : (s.hostPut a b).fatal = s.fatal := id rfl
@[simp] theorem State.hostPut_tbs (a : Nat) (b : Bytes) : (s.hostPut a b).tbs = s.tbs := id rfl
@[simp] theorem State.hostPut_tick (a : Nat) (b : Bytes) : (s.hostPut a b).tick = s.tick := id rfl
@[simp] theorem State.hostPut_ports (a : Nat) (b : Bytes) : (s.hostPut a b).ports = s.ports := id rfl
@[simp] theorem State.hostPut_rxSas (a : Nat) (b : Bytes) : (s.hostPut a b).rxSas = s.rxSas := id rfl
@[simp] theorem State.hostPut_keys (a : Nat) (b : Bytes) : (s.hostPut a b).keys = s.keys := id rfl
@[simp] theorem State.hostPut_get (a : Nat) (b : Bytes) (g : F) : (s.hostPut a b).get g = s.get g := id rfl
@[simp] theorem State.hostPut_flag (a : Nat) (b : Bytes) (g : F) : (s.hostPut a b).flag g = s.flag g := id rfl

/-! ### State.hostWrites -/

@[simp] theorem State.hostWrites_regs (hw : HostWrites) : (s.hostWrites hw).regs = s.regs := id rfl
@[simp] theorem State.hostWrites_mem (hw : HostWrites) : (s.hostWrites hw).mem = s.mem := id rfl
@[simp] theorem State.hostWrites_pending (hw : HostWrites) : (s.hostWrites hw).pending = s.pending := id rfl
@[simp] theorem State.hostWrites_free (hw : HostWrites) : (s.hostWrites hw).free = s.free := id rfl
@[simp] theorem State.hostWrites_out (hw : HostWrites) : (s.hostWrites hw).out = s.out := id rfl
@[simp] theorem State.hostWrites_now (hw : HostWrites) : (s.hostWrites hw).now = s.now := id rfl
@[simp] theorem State.hostWrites_locked (hw : HostWrites) : (s.hostWrites hw).locked = s.locked := id rfl
@[simp] theorem State.hostWrites_fatal (hw : HostWrites) : (s.hostWrites hw).fatal = s.fatal := id rfl
@[simp] theorem State.hostWrites_tbs (hw : HostWrites) : (s.hostWrites hw).tbs = s.tbs := id rfl
@[simp] theorem State.hostWrites_tick (hw : HostWrites) : (s.hostWrites hw).tick = s.tick := id rfl
@[simp] theorem State.hostWrites_ports (hw : HostWrites) : (s.hostWrites hw).ports = s.ports := id rfl
@[simp] theorem State.hostWrites_rxSas (hw : HostWrites) : (s.hostWrites hw).rxSas = s.rxSas := id rfl
@[simp] theorem State.hostWrites_keys (hw : HostWrites) : (s.hostWrites hw).keys = s.keys := id rfl
@[simp] theorem State.hostWrites_get (hw : HostWrites) (g : F) : (s.hostWrites hw).get g = s.get g := id rfl
@[simp] theorem State.hostWrites_flag (hw : HostWrites) (g : F) : (s.hostWrites hw).flag g = s.flag g := id rfl

/-! ### State.setTb -/

@[simp] theorem State.setTb_regs (n : Nat) (x : Tb) : (s.setTb n x).regs = s.regs := id rfl
@[simp] theorem State.setTb_mem (n : Nat) (x : Tb) : (s.setTb n x).mem = s.mem := id rfl
@[simp] theorem State.setTb_hostMem (n : Nat) (x : Tb) : (s.setTb n x).hostMem = s.hostMem := id rfl
@[simp] theorem State.setTb_pending (n : Nat) (x : Tb) : (s.setTb n x).pending = s.pending := id rfl
@[simp] theorem State.setTb_free (n : Nat) (x : Tb) : (s.setTb n x).free = s.free := id rfl
@[simp] theorem State.setTb_out (n : Nat) (x : Tb) : (s.setTb n x).out = s.out := id rfl
@[simp] theorem State.setTb_now (n : Nat) (x : Tb) : (s.setTb n x).now = s.now := id rfl
@[simp] theorem State.setTb_locked (n : Nat) (x : Tb) : (s.setTb n x).locked = s.locked := id rfl
@[simp] theorem State.setTb_hostLocked (n : Nat) (x : Tb) : (s.setTb n x).hostLocked = s.hostLocked := id rfl
@[simp] theorem State.setTb_fatal (n : Nat) (x : Tb) : (s.setTb n x).fatal = s.fatal := id rfl
@[simp] theorem State.setTb_hbLost (n : Nat) (x : Tb) : (s.setTb n x).hbLost = s.hbLost := id rfl
@[simp] theorem State.setTb_collector (n : Nat) (x : Tb) : (s.setTb n x).collector = s.collector := id rfl
@[simp] theorem State.setTb_steps (n : Nat) (x : Tb) : (s.setTb n x).steps = s.steps := id rfl
@[simp] theorem State.setTb_tick (n : Nat) (x : Tb) : (s.setTb n x).tick = s.tick := id rfl
@[simp] theorem State.setTb_srcs (n : Nat) (x : Tb) : (s.setTb n x).srcs = s.srcs := id rfl
@[simp] theorem State.setTb_reacts (n : Nat) (x : Tb) : (s.setTb n x).reacts = s.reacts := id rfl
@[simp] theorem State.setTb_evAt (n : Nat) (x : Tb) : (s.setTb n x).evAt = s.evAt := id rfl
@[simp] theorem State.setTb_lines (n : Nat) (x : Tb) : (s.setTb n x).lines = s.lines := id rfl
@[simp] theorem State.setTb_meshOff (n : Nat) (x : Tb) : (s.setTb n x).meshOff = s.meshOff := id rfl
@[simp] theorem State.setTb_resets (n : Nat) (x : Tb) : (s.setTb n x).resets = s.resets := id rfl
@[simp] theorem State.setTb_watch (n : Nat) (x : Tb) : (s.setTb n x).watch = s.watch := id rfl
@[simp] theorem State.setTb_rings (n : Nat) (x : Tb) : (s.setTb n x).rings = s.rings := id rfl
@[simp] theorem State.setTb_steer (n : Nat) (x : Tb) : (s.setTb n x).steer = s.steer := id rfl
@[simp] theorem State.setTb_rxHold (n : Nat) (x : Tb) : (s.setTb n x).rxHold = s.rxHold := id rfl
@[simp] theorem State.setTb_vecs (n : Nat) (x : Tb) : (s.setTb n x).vecs = s.vecs := id rfl
@[simp] theorem State.setTb_fnMsix (n : Nat) (x : Tb) : (s.setTb n x).fnMsix = s.fnMsix := id rfl
@[simp] theorem State.setTb_pcie (n : Nat) (x : Tb) : (s.setTb n x).pcie = s.pcie := id rfl
@[simp] theorem State.setTb_haltAt (n : Nat) (x : Tb) : (s.setTb n x).haltAt = s.haltAt := id rfl
@[simp] theorem State.setTb_bells (n : Nat) (x : Tb) : (s.setTb n x).bells = s.bells := id rfl
@[simp] theorem State.setTb_holdGone (n : Nat) (x : Tb) : (s.setTb n x).holdGone = s.holdGone := id rfl
@[simp] theorem State.setTb_shadowWas (n : Nat) (x : Tb) : (s.setTb n x).shadowWas = s.shadowWas := id rfl
@[simp] theorem State.setTb_dma (n : Nat) (x : Tb) : (s.setTb n x).dma = s.dma := id rfl
@[simp] theorem State.setTb_dmaLast (n : Nat) (x : Tb) : (s.setTb n x).dmaLast = s.dmaLast := id rfl
@[simp] theorem State.setTb_dreq (n : Nat) (x : Tb) : (s.setTb n x).dreq = s.dreq := id rfl
@[simp] theorem State.setTb_lanes (n : Nat) (x : Tb) : (s.setTb n x).lanes = s.lanes := id rfl
@[simp] theorem State.setTb_ports (n : Nat) (x : Tb) : (s.setTb n x).ports = s.ports := id rfl
@[simp] theorem State.setTb_ctrHi (n : Nat) (x : Tb) : (s.setTb n x).ctrHi = s.ctrHi := id rfl
@[simp] theorem State.setTb_ids (n : Nat) (x : Tb) : (s.setTb n x).ids = s.ids := id rfl
@[simp] theorem State.setTb_queues (n : Nat) (x : Tb) : (s.setTb n x).queues = s.queues := id rfl
@[simp] theorem State.setTb_rxOpen (n : Nat) (x : Tb) : (s.setTb n x).rxOpen = s.rxOpen := id rfl
@[simp] theorem State.setTb_heldFrames (n : Nat) (x : Tb) : (s.setTb n x).heldFrames = s.heldFrames := id rfl
@[simp] theorem State.setTb_claims (n : Nat) (x : Tb) : (s.setTb n x).claims = s.claims := id rfl
@[simp] theorem State.setTb_given (n : Nat) (x : Tb) : (s.setTb n x).given = s.given := id rfl
@[simp] theorem State.setTb_laerrs (n : Nat) (x : Tb) : (s.setTb n x).laerrs = s.laerrs := id rfl
@[simp] theorem State.setTb_str (n : Nat) (x : Tb) : (s.setTb n x).str = s.str := id rfl
@[simp] theorem State.setTb_meters (n : Nat) (x : Tb) : (s.setTb n x).meters = s.meters := id rfl
@[simp] theorem State.setTb_fdbSeen (n : Nat) (x : Tb) : (s.setTb n x).fdbSeen = s.fdbSeen := id rfl
@[simp] theorem State.setTb_frer (n : Nat) (x : Tb) : (s.setTb n x).frer = s.frer := id rfl
@[simp] theorem State.setTb_recs (n : Nat) (x : Tb) : (s.setTb n x).recs = s.recs := id rfl
@[simp] theorem State.setTb_fwdHist (n : Nat) (x : Tb) : (s.setTb n x).fwdHist = s.fwdHist := id rfl
@[simp] theorem State.setTb_nodeSeen (n : Nat) (x : Tb) : (s.setTb n x).nodeSeen = s.nodeSeen := id rfl
@[simp] theorem State.setTb_sps (n : Nat) (x : Tb) : (s.setTb n x).sps = s.sps := id rfl
@[simp] theorem State.setTb_cs (n : Nat) (x : Tb) : (s.setTb n x).cs = s.cs := id rfl
@[simp] theorem State.setTb_csCopy (n : Nat) (x : Tb) : (s.setTb n x).csCopy = s.csCopy := id rfl
@[simp] theorem State.setTb_csHost (n : Nat) (x : Tb) : (s.setTb n x).csHost = s.csHost := id rfl
@[simp] theorem State.setTb_nextev (n : Nat) (x : Tb) : (s.setTb n x).nextev = s.nextev := id rfl
@[simp] theorem State.setTb_nextevWas (n : Nat) (x : Tb) : (s.setTb n x).nextevWas = s.nextevWas := id rfl
@[simp] theorem State.setTb_pi (n : Nat) (x : Tb) : (s.setTb n x).pi = s.pi := id rfl
@[simp] theorem State.setTb_evin (n : Nat) (x : Tb) : (s.setTb n x).evin = s.evin := id rfl
@[simp] theorem State.setTb_targetLate (n : Nat) (x : Tb) : (s.setTb n x).targetLate = s.targetLate := id rfl
@[simp] theorem State.setTb_fired (n : Nat) (x : Tb) : (s.setTb n x).fired = s.fired := id rfl
@[simp] theorem State.setTb_ppsHigh (n : Nat) (x : Tb) : (s.setTb n x).ppsHigh = s.ppsHigh := id rfl
@[simp] theorem State.setTb_nodes (n : Nat) (x : Tb) : (s.setTb n x).nodes = s.nodes := id rfl
@[simp] theorem State.setTb_syns (n : Nat) (x : Tb) : (s.setTb n x).syns = s.syns := id rfl
@[simp] theorem State.setTb_asws (n : Nat) (x : Tb) : (s.setTb n x).asws = s.asws := id rfl
@[simp] theorem State.setTb_ptps (n : Nat) (x : Tb) : (s.setTb n x).ptps = s.ptps := id rfl
@[simp] theorem State.setTb_doms (n : Nat) (x : Tb) : (s.setTb n x).doms = s.doms := id rfl
@[simp] theorem State.setTb_mlds (n : Nat) (x : Tb) : (s.setTb n x).mlds = s.mlds := id rfl
@[simp] theorem State.setTb_pds (n : Nat) (x : Tb) : (s.setTb n x).pds = s.pds := id rfl
@[simp] theorem State.setTb_csts (n : Nat) (x : Tb) : (s.setTb n x).csts = s.csts := id rfl
@[simp] theorem State.setTb_grds (n : Nat) (x : Tb) : (s.setTb n x).grds = s.grds := id rfl
@[simp] theorem State.setTb_rxSas (n : Nat) (x : Tb) : (s.setTb n x).rxSas = s.rxSas := id rfl
@[simp] theorem State.setTb_txPn (n : Nat) (x : Tb) : (s.setTb n x).txPn = s.txPn := id rfl
@[simp] theorem State.setTb_stns (n : Nat) (x : Tb) : (s.setTb n x).stns = s.stns := id rfl
@[simp] theorem State.setTb_cars (n : Nat) (x : Tb) : (s.setTb n x).cars = s.cars := id rfl
@[simp] theorem State.setTb_copies (n : Nat) (x : Tb) : (s.setTb n x).copies = s.copies := id rfl
@[simp] theorem State.setTb_crf (n : Nat) (x : Tb) : (s.setTb n x).crf = s.crf := id rfl
@[simp] theorem State.setTb_pwr (n : Nat) (x : Tb) : (s.setTb n x).pwr = s.pwr := id rfl
@[simp] theorem State.setTb_quiet (n : Nat) (x : Tb) : (s.setTb n x).quiet = s.quiet := id rfl
@[simp] theorem State.setTb_syncNext (n : Nat) (x : Tb) : (s.setTb n x).syncNext = s.syncNext := id rfl
@[simp] theorem State.setTb_sec (n : Nat) (x : Tb) : (s.setTb n x).sec = s.sec := id rfl
@[simp] theorem State.setTb_keys (n : Nat) (x : Tb) : (s.setTb n x).keys = s.keys := id rfl
@[simp] theorem State.setTb_ulc (n : Nat) (x : Tb) : (s.setTb n x).ulc = s.ulc := id rfl
@[simp] theorem State.setTb_boot (n : Nat) (x : Tb) : (s.setTb n x).boot = s.boot := id rfl
@[simp] theorem State.setTb_jtag (n : Nat) (x : Tb) : (s.setTb n x).jtag = s.jtag := id rfl
@[simp] theorem State.setTb_smbAddr (n : Nat) (x : Tb) : (s.setTb n x).smbAddr = s.smbAddr := id rfl
@[simp] theorem State.setTb_sdLost (n : Nat) (x : Tb) : (s.setTb n x).sdLost = s.sdLost := id rfl
@[simp] theorem State.setTb_get (n : Nat) (x : Tb) (g : F) : (s.setTb n x).get g = s.get g := id rfl
@[simp] theorem State.setTb_flag (n : Nat) (x : Tb) (g : F) : (s.setTb n x).flag g = s.flag g := id rfl

/-! ### State.setPort -/

@[simp] theorem State.setPort_regs (p : Nat) (x : PortSt) : (s.setPort p x).regs = s.regs := id rfl
@[simp] theorem State.setPort_mem (p : Nat) (x : PortSt) : (s.setPort p x).mem = s.mem := id rfl
@[simp] theorem State.setPort_hostMem (p : Nat) (x : PortSt) : (s.setPort p x).hostMem = s.hostMem := id rfl
@[simp] theorem State.setPort_pending (p : Nat) (x : PortSt) : (s.setPort p x).pending = s.pending := id rfl
@[simp] theorem State.setPort_free (p : Nat) (x : PortSt) : (s.setPort p x).free = s.free := id rfl
@[simp] theorem State.setPort_out (p : Nat) (x : PortSt) : (s.setPort p x).out = s.out := id rfl
@[simp] theorem State.setPort_now (p : Nat) (x : PortSt) : (s.setPort p x).now = s.now := id rfl
@[simp] theorem State.setPort_locked (p : Nat) (x : PortSt) : (s.setPort p x).locked = s.locked := id rfl
@[simp] theorem State.setPort_hostLocked (p : Nat) (x : PortSt) : (s.setPort p x).hostLocked = s.hostLocked := id rfl
@[simp] theorem State.setPort_fatal (p : Nat) (x : PortSt) : (s.setPort p x).fatal = s.fatal := id rfl
@[simp] theorem State.setPort_hbLost (p : Nat) (x : PortSt) : (s.setPort p x).hbLost = s.hbLost := id rfl
@[simp] theorem State.setPort_collector (p : Nat) (x : PortSt) : (s.setPort p x).collector = s.collector := id rfl
@[simp] theorem State.setPort_tbs (p : Nat) (x : PortSt) : (s.setPort p x).tbs = s.tbs := id rfl
@[simp] theorem State.setPort_steps (p : Nat) (x : PortSt) : (s.setPort p x).steps = s.steps := id rfl
@[simp] theorem State.setPort_tick (p : Nat) (x : PortSt) : (s.setPort p x).tick = s.tick := id rfl
@[simp] theorem State.setPort_srcs (p : Nat) (x : PortSt) : (s.setPort p x).srcs = s.srcs := id rfl
@[simp] theorem State.setPort_reacts (p : Nat) (x : PortSt) : (s.setPort p x).reacts = s.reacts := id rfl
@[simp] theorem State.setPort_evAt (p : Nat) (x : PortSt) : (s.setPort p x).evAt = s.evAt := id rfl
@[simp] theorem State.setPort_lines (p : Nat) (x : PortSt) : (s.setPort p x).lines = s.lines := id rfl
@[simp] theorem State.setPort_meshOff (p : Nat) (x : PortSt) : (s.setPort p x).meshOff = s.meshOff := id rfl
@[simp] theorem State.setPort_resets (p : Nat) (x : PortSt) : (s.setPort p x).resets = s.resets := id rfl
@[simp] theorem State.setPort_watch (p : Nat) (x : PortSt) : (s.setPort p x).watch = s.watch := id rfl
@[simp] theorem State.setPort_rings (p : Nat) (x : PortSt) : (s.setPort p x).rings = s.rings := id rfl
@[simp] theorem State.setPort_steer (p : Nat) (x : PortSt) : (s.setPort p x).steer = s.steer := id rfl
@[simp] theorem State.setPort_rxHold (p : Nat) (x : PortSt) : (s.setPort p x).rxHold = s.rxHold := id rfl
@[simp] theorem State.setPort_vecs (p : Nat) (x : PortSt) : (s.setPort p x).vecs = s.vecs := id rfl
@[simp] theorem State.setPort_fnMsix (p : Nat) (x : PortSt) : (s.setPort p x).fnMsix = s.fnMsix := id rfl
@[simp] theorem State.setPort_pcie (p : Nat) (x : PortSt) : (s.setPort p x).pcie = s.pcie := id rfl
@[simp] theorem State.setPort_haltAt (p : Nat) (x : PortSt) : (s.setPort p x).haltAt = s.haltAt := id rfl
@[simp] theorem State.setPort_bells (p : Nat) (x : PortSt) : (s.setPort p x).bells = s.bells := id rfl
@[simp] theorem State.setPort_holdGone (p : Nat) (x : PortSt) : (s.setPort p x).holdGone = s.holdGone := id rfl
@[simp] theorem State.setPort_shadowWas (p : Nat) (x : PortSt) : (s.setPort p x).shadowWas = s.shadowWas := id rfl
@[simp] theorem State.setPort_dma (p : Nat) (x : PortSt) : (s.setPort p x).dma = s.dma := id rfl
@[simp] theorem State.setPort_dmaLast (p : Nat) (x : PortSt) : (s.setPort p x).dmaLast = s.dmaLast := id rfl
@[simp] theorem State.setPort_dreq (p : Nat) (x : PortSt) : (s.setPort p x).dreq = s.dreq := id rfl
@[simp] theorem State.setPort_lanes (p : Nat) (x : PortSt) : (s.setPort p x).lanes = s.lanes := id rfl
@[simp] theorem State.setPort_ctrHi (p : Nat) (x : PortSt) : (s.setPort p x).ctrHi = s.ctrHi := id rfl
@[simp] theorem State.setPort_ids (p : Nat) (x : PortSt) : (s.setPort p x).ids = s.ids := id rfl
@[simp] theorem State.setPort_queues (p : Nat) (x : PortSt) : (s.setPort p x).queues = s.queues := id rfl
@[simp] theorem State.setPort_rxOpen (p : Nat) (x : PortSt) : (s.setPort p x).rxOpen = s.rxOpen := id rfl
@[simp] theorem State.setPort_heldFrames (p : Nat) (x : PortSt) : (s.setPort p x).heldFrames = s.heldFrames := id rfl
@[simp] theorem State.setPort_claims (p : Nat) (x : PortSt) : (s.setPort p x).claims = s.claims := id rfl
@[simp] theorem State.setPort_given (p : Nat) (x : PortSt) : (s.setPort p x).given = s.given := id rfl
@[simp] theorem State.setPort_laerrs (p : Nat) (x : PortSt) : (s.setPort p x).laerrs = s.laerrs := id rfl
@[simp] theorem State.setPort_str (p : Nat) (x : PortSt) : (s.setPort p x).str = s.str := id rfl
@[simp] theorem State.setPort_meters (p : Nat) (x : PortSt) : (s.setPort p x).meters = s.meters := id rfl
@[simp] theorem State.setPort_fdbSeen (p : Nat) (x : PortSt) : (s.setPort p x).fdbSeen = s.fdbSeen := id rfl
@[simp] theorem State.setPort_frer (p : Nat) (x : PortSt) : (s.setPort p x).frer = s.frer := id rfl
@[simp] theorem State.setPort_recs (p : Nat) (x : PortSt) : (s.setPort p x).recs = s.recs := id rfl
@[simp] theorem State.setPort_fwdHist (p : Nat) (x : PortSt) : (s.setPort p x).fwdHist = s.fwdHist := id rfl
@[simp] theorem State.setPort_nodeSeen (p : Nat) (x : PortSt) : (s.setPort p x).nodeSeen = s.nodeSeen := id rfl
@[simp] theorem State.setPort_sps (p : Nat) (x : PortSt) : (s.setPort p x).sps = s.sps := id rfl
@[simp] theorem State.setPort_cs (p : Nat) (x : PortSt) : (s.setPort p x).cs = s.cs := id rfl
@[simp] theorem State.setPort_csCopy (p : Nat) (x : PortSt) : (s.setPort p x).csCopy = s.csCopy := id rfl
@[simp] theorem State.setPort_csHost (p : Nat) (x : PortSt) : (s.setPort p x).csHost = s.csHost := id rfl
@[simp] theorem State.setPort_nextev (p : Nat) (x : PortSt) : (s.setPort p x).nextev = s.nextev := id rfl
@[simp] theorem State.setPort_nextevWas (p : Nat) (x : PortSt) : (s.setPort p x).nextevWas = s.nextevWas := id rfl
@[simp] theorem State.setPort_pi (p : Nat) (x : PortSt) : (s.setPort p x).pi = s.pi := id rfl
@[simp] theorem State.setPort_evin (p : Nat) (x : PortSt) : (s.setPort p x).evin = s.evin := id rfl
@[simp] theorem State.setPort_targetLate (p : Nat) (x : PortSt) : (s.setPort p x).targetLate = s.targetLate := id rfl
@[simp] theorem State.setPort_fired (p : Nat) (x : PortSt) : (s.setPort p x).fired = s.fired := id rfl
@[simp] theorem State.setPort_ppsHigh (p : Nat) (x : PortSt) : (s.setPort p x).ppsHigh = s.ppsHigh := id rfl
@[simp] theorem State.setPort_nodes (p : Nat) (x : PortSt) : (s.setPort p x).nodes = s.nodes := id rfl
@[simp] theorem State.setPort_syns (p : Nat) (x : PortSt) : (s.setPort p x).syns = s.syns := id rfl
@[simp] theorem State.setPort_asws (p : Nat) (x : PortSt) : (s.setPort p x).asws = s.asws := id rfl
@[simp] theorem State.setPort_ptps (p : Nat) (x : PortSt) : (s.setPort p x).ptps = s.ptps := id rfl
@[simp] theorem State.setPort_doms (p : Nat) (x : PortSt) : (s.setPort p x).doms = s.doms := id rfl
@[simp] theorem State.setPort_mlds (p : Nat) (x : PortSt) : (s.setPort p x).mlds = s.mlds := id rfl
@[simp] theorem State.setPort_pds (p : Nat) (x : PortSt) : (s.setPort p x).pds = s.pds := id rfl
@[simp] theorem State.setPort_csts (p : Nat) (x : PortSt) : (s.setPort p x).csts = s.csts := id rfl
@[simp] theorem State.setPort_grds (p : Nat) (x : PortSt) : (s.setPort p x).grds = s.grds := id rfl
@[simp] theorem State.setPort_rxSas (p : Nat) (x : PortSt) : (s.setPort p x).rxSas = s.rxSas := id rfl
@[simp] theorem State.setPort_txPn (p : Nat) (x : PortSt) : (s.setPort p x).txPn = s.txPn := id rfl
@[simp] theorem State.setPort_stns (p : Nat) (x : PortSt) : (s.setPort p x).stns = s.stns := id rfl
@[simp] theorem State.setPort_cars (p : Nat) (x : PortSt) : (s.setPort p x).cars = s.cars := id rfl
@[simp] theorem State.setPort_copies (p : Nat) (x : PortSt) : (s.setPort p x).copies = s.copies := id rfl
@[simp] theorem State.setPort_crf (p : Nat) (x : PortSt) : (s.setPort p x).crf = s.crf := id rfl
@[simp] theorem State.setPort_pwr (p : Nat) (x : PortSt) : (s.setPort p x).pwr = s.pwr := id rfl
@[simp] theorem State.setPort_quiet (p : Nat) (x : PortSt) : (s.setPort p x).quiet = s.quiet := id rfl
@[simp] theorem State.setPort_syncNext (p : Nat) (x : PortSt) : (s.setPort p x).syncNext = s.syncNext := id rfl
@[simp] theorem State.setPort_sec (p : Nat) (x : PortSt) : (s.setPort p x).sec = s.sec := id rfl
@[simp] theorem State.setPort_keys (p : Nat) (x : PortSt) : (s.setPort p x).keys = s.keys := id rfl
@[simp] theorem State.setPort_ulc (p : Nat) (x : PortSt) : (s.setPort p x).ulc = s.ulc := id rfl
@[simp] theorem State.setPort_boot (p : Nat) (x : PortSt) : (s.setPort p x).boot = s.boot := id rfl
@[simp] theorem State.setPort_jtag (p : Nat) (x : PortSt) : (s.setPort p x).jtag = s.jtag := id rfl
@[simp] theorem State.setPort_smbAddr (p : Nat) (x : PortSt) : (s.setPort p x).smbAddr = s.smbAddr := id rfl
@[simp] theorem State.setPort_sdLost (p : Nat) (x : PortSt) : (s.setPort p x).sdLost = s.sdLost := id rfl
@[simp] theorem State.setPort_get (p : Nat) (x : PortSt) (g : F) : (s.setPort p x).get g = s.get g := id rfl
@[simp] theorem State.setPort_flag (p : Nat) (x : PortSt) (g : F) : (s.setPort p x).flag g = s.flag g := id rfl

/-! ### State.setLane -/

@[simp] theorem State.setLane_regs (l : Nat) (x : LaneSt) : (s.setLane l x).regs = s.regs := id rfl
@[simp] theorem State.setLane_mem (l : Nat) (x : LaneSt) : (s.setLane l x).mem = s.mem := id rfl
@[simp] theorem State.setLane_hostMem (l : Nat) (x : LaneSt) : (s.setLane l x).hostMem = s.hostMem := id rfl
@[simp] theorem State.setLane_pending (l : Nat) (x : LaneSt) : (s.setLane l x).pending = s.pending := id rfl
@[simp] theorem State.setLane_free (l : Nat) (x : LaneSt) : (s.setLane l x).free = s.free := id rfl
@[simp] theorem State.setLane_out (l : Nat) (x : LaneSt) : (s.setLane l x).out = s.out := id rfl
@[simp] theorem State.setLane_now (l : Nat) (x : LaneSt) : (s.setLane l x).now = s.now := id rfl
@[simp] theorem State.setLane_locked (l : Nat) (x : LaneSt) : (s.setLane l x).locked = s.locked := id rfl
@[simp] theorem State.setLane_fatal (l : Nat) (x : LaneSt) : (s.setLane l x).fatal = s.fatal := id rfl
@[simp] theorem State.setLane_tbs (l : Nat) (x : LaneSt) : (s.setLane l x).tbs = s.tbs := id rfl
@[simp] theorem State.setLane_tick (l : Nat) (x : LaneSt) : (s.setLane l x).tick = s.tick := id rfl
@[simp] theorem State.setLane_ports (l : Nat) (x : LaneSt) : (s.setLane l x).ports = s.ports := id rfl
@[simp] theorem State.setLane_rxSas (l : Nat) (x : LaneSt) : (s.setLane l x).rxSas = s.rxSas := id rfl
@[simp] theorem State.setLane_keys (l : Nat) (x : LaneSt) : (s.setLane l x).keys = s.keys := id rfl
@[simp] theorem State.setLane_get (l : Nat) (x : LaneSt) (g : F) : (s.setLane l x).get g = s.get g := id rfl
@[simp] theorem State.setLane_flag (l : Nat) (x : LaneSt) (g : F) : (s.setLane l x).flag g = s.flag g := id rfl

/-! ### State.setQueue -/

@[simp] theorem State.setQueue_regs (p tc : Nat) (q : List QFrame) : (s.setQueue p tc q).regs = s.regs := id rfl
@[simp] theorem State.setQueue_mem (p tc : Nat) (q : List QFrame) : (s.setQueue p tc q).mem = s.mem := id rfl
@[simp] theorem State.setQueue_hostMem (p tc : Nat) (q : List QFrame) : (s.setQueue p tc q).hostMem = s.hostMem := id rfl
@[simp] theorem State.setQueue_pending (p tc : Nat) (q : List QFrame) : (s.setQueue p tc q).pending = s.pending := id rfl
@[simp] theorem State.setQueue_free (p tc : Nat) (q : List QFrame) : (s.setQueue p tc q).free = s.free := id rfl
@[simp] theorem State.setQueue_out (p tc : Nat) (q : List QFrame) : (s.setQueue p tc q).out = s.out := id rfl
@[simp] theorem State.setQueue_now (p tc : Nat) (q : List QFrame) : (s.setQueue p tc q).now = s.now := id rfl
@[simp] theorem State.setQueue_locked (p tc : Nat) (q : List QFrame) : (s.setQueue p tc q).locked = s.locked := id rfl
@[simp] theorem State.setQueue_fatal (p tc : Nat) (q : List QFrame) : (s.setQueue p tc q).fatal = s.fatal := id rfl
@[simp] theorem State.setQueue_tbs (p tc : Nat) (q : List QFrame) : (s.setQueue p tc q).tbs = s.tbs := id rfl
@[simp] theorem State.setQueue_tick (p tc : Nat) (q : List QFrame) : (s.setQueue p tc q).tick = s.tick := id rfl
@[simp] theorem State.setQueue_ports (p tc : Nat) (q : List QFrame) : (s.setQueue p tc q).ports = s.ports := id rfl
@[simp] theorem State.setQueue_rxSas (p tc : Nat) (q : List QFrame) : (s.setQueue p tc q).rxSas = s.rxSas := id rfl
@[simp] theorem State.setQueue_keys (p tc : Nat) (q : List QFrame) : (s.setQueue p tc q).keys = s.keys := id rfl
@[simp] theorem State.setQueue_get (p tc : Nat) (q : List QFrame) (g : F) : (s.setQueue p tc q).get g = s.get g := id rfl
@[simp] theorem State.setQueue_flag (p tc : Nat) (q : List QFrame) (g : F) : (s.setQueue p tc q).flag g = s.flag g := id rfl

/-! ### State.setSp -/

@[simp] theorem State.setSp_regs (i : Nat) (x : Sp) : (s.setSp i x).regs = s.regs := id rfl
@[simp] theorem State.setSp_mem (i : Nat) (x : Sp) : (s.setSp i x).mem = s.mem := id rfl
@[simp] theorem State.setSp_hostMem (i : Nat) (x : Sp) : (s.setSp i x).hostMem = s.hostMem := id rfl
@[simp] theorem State.setSp_pending (i : Nat) (x : Sp) : (s.setSp i x).pending = s.pending := id rfl
@[simp] theorem State.setSp_free (i : Nat) (x : Sp) : (s.setSp i x).free = s.free := id rfl
@[simp] theorem State.setSp_out (i : Nat) (x : Sp) : (s.setSp i x).out = s.out := id rfl
@[simp] theorem State.setSp_now (i : Nat) (x : Sp) : (s.setSp i x).now = s.now := id rfl
@[simp] theorem State.setSp_locked (i : Nat) (x : Sp) : (s.setSp i x).locked = s.locked := id rfl
@[simp] theorem State.setSp_fatal (i : Nat) (x : Sp) : (s.setSp i x).fatal = s.fatal := id rfl
@[simp] theorem State.setSp_tbs (i : Nat) (x : Sp) : (s.setSp i x).tbs = s.tbs := id rfl
@[simp] theorem State.setSp_tick (i : Nat) (x : Sp) : (s.setSp i x).tick = s.tick := id rfl
@[simp] theorem State.setSp_ports (i : Nat) (x : Sp) : (s.setSp i x).ports = s.ports := id rfl
@[simp] theorem State.setSp_rxSas (i : Nat) (x : Sp) : (s.setSp i x).rxSas = s.rxSas := id rfl
@[simp] theorem State.setSp_keys (i : Nat) (x : Sp) : (s.setSp i x).keys = s.keys := id rfl
@[simp] theorem State.setSp_get (i : Nat) (x : Sp) (g : F) : (s.setSp i x).get g = s.get g := id rfl
@[simp] theorem State.setSp_flag (i : Nat) (x : Sp) (g : F) : (s.setSp i x).flag g = s.flag g := id rfl

/-! ### State.setRec -/

@[simp] theorem State.setRec_regs (i : Nat) (x : RecSt) : (s.setRec i x).regs = s.regs := id rfl
@[simp] theorem State.setRec_mem (i : Nat) (x : RecSt) : (s.setRec i x).mem = s.mem := id rfl
@[simp] theorem State.setRec_hostMem (i : Nat) (x : RecSt) : (s.setRec i x).hostMem = s.hostMem := id rfl
@[simp] theorem State.setRec_pending (i : Nat) (x : RecSt) : (s.setRec i x).pending = s.pending := id rfl
@[simp] theorem State.setRec_free (i : Nat) (x : RecSt) : (s.setRec i x).free = s.free := id rfl
@[simp] theorem State.setRec_out (i : Nat) (x : RecSt) : (s.setRec i x).out = s.out := id rfl
@[simp] theorem State.setRec_now (i : Nat) (x : RecSt) : (s.setRec i x).now = s.now := id rfl
@[simp] theorem State.setRec_locked (i : Nat) (x : RecSt) : (s.setRec i x).locked = s.locked := id rfl
@[simp] theorem State.setRec_fatal (i : Nat) (x : RecSt) : (s.setRec i x).fatal = s.fatal := id rfl
@[simp] theorem State.setRec_tbs (i : Nat) (x : RecSt) : (s.setRec i x).tbs = s.tbs := id rfl
@[simp] theorem State.setRec_tick (i : Nat) (x : RecSt) : (s.setRec i x).tick = s.tick := id rfl
@[simp] theorem State.setRec_ports (i : Nat) (x : RecSt) : (s.setRec i x).ports = s.ports := id rfl
@[simp] theorem State.setRec_rxSas (i : Nat) (x : RecSt) : (s.setRec i x).rxSas = s.rxSas := id rfl
@[simp] theorem State.setRec_keys (i : Nat) (x : RecSt) : (s.setRec i x).keys = s.keys := id rfl
@[simp] theorem State.setRec_get (i : Nat) (x : RecSt) (g : F) : (s.setRec i x).get g = s.get g := id rfl
@[simp] theorem State.setRec_flag (i : Nat) (x : RecSt) (g : F) : (s.setRec i x).flag g = s.flag g := id rfl

/-! ### State.setKey -/

@[simp] theorem State.setKey_regs (p : Nat) (x : KeySt) : (s.setKey p x).regs = s.regs := id rfl
@[simp] theorem State.setKey_mem (p : Nat) (x : KeySt) : (s.setKey p x).mem = s.mem := id rfl
@[simp] theorem State.setKey_hostMem (p : Nat) (x : KeySt) : (s.setKey p x).hostMem = s.hostMem := id rfl
@[simp] theorem State.setKey_pending (p : Nat) (x : KeySt) : (s.setKey p x).pending = s.pending := id rfl
@[simp] theorem State.setKey_free (p : Nat) (x : KeySt) : (s.setKey p x).free = s.free := id rfl
@[simp] theorem State.setKey_out (p : Nat) (x : KeySt) : (s.setKey p x).out = s.out := id rfl
@[simp] theorem State.setKey_now (p : Nat) (x : KeySt) : (s.setKey p x).now = s.now := id rfl
@[simp] theorem State.setKey_locked (p : Nat) (x : KeySt) : (s.setKey p x).locked = s.locked := id rfl
@[simp] theorem State.setKey_fatal (p : Nat) (x : KeySt) : (s.setKey p x).fatal = s.fatal := id rfl
@[simp] theorem State.setKey_tbs (p : Nat) (x : KeySt) : (s.setKey p x).tbs = s.tbs := id rfl
@[simp] theorem State.setKey_tick (p : Nat) (x : KeySt) : (s.setKey p x).tick = s.tick := id rfl
@[simp] theorem State.setKey_ports (p : Nat) (x : KeySt) : (s.setKey p x).ports = s.ports := id rfl
@[simp] theorem State.setKey_rxSas (p : Nat) (x : KeySt) : (s.setKey p x).rxSas = s.rxSas := id rfl
@[simp] theorem State.setKey_get (p : Nat) (x : KeySt) (g : F) : (s.setKey p x).get g = s.get g := id rfl
@[simp] theorem State.setKey_flag (p : Nat) (x : KeySt) (g : F) : (s.setKey p x).flag g = s.flag g := id rfl

/-! ### State.setRing -/

@[simp] theorem State.setRing_regs (kind ring : Nat) (x : Ring) : (s.setRing kind ring x).regs = s.regs := id rfl
@[simp] theorem State.setRing_mem (kind ring : Nat) (x : Ring) : (s.setRing kind ring x).mem = s.mem := id rfl
@[simp] theorem State.setRing_hostMem (kind ring : Nat) (x : Ring) : (s.setRing kind ring x).hostMem = s.hostMem := id rfl
@[simp] theorem State.setRing_pending (kind ring : Nat) (x : Ring) : (s.setRing kind ring x).pending = s.pending := id rfl
@[simp] theorem State.setRing_free (kind ring : Nat) (x : Ring) : (s.setRing kind ring x).free = s.free := id rfl
@[simp] theorem State.setRing_out (kind ring : Nat) (x : Ring) : (s.setRing kind ring x).out = s.out := id rfl
@[simp] theorem State.setRing_now (kind ring : Nat) (x : Ring) : (s.setRing kind ring x).now = s.now := id rfl
@[simp] theorem State.setRing_locked (kind ring : Nat) (x : Ring) : (s.setRing kind ring x).locked = s.locked := id rfl
@[simp] theorem State.setRing_fatal (kind ring : Nat) (x : Ring) : (s.setRing kind ring x).fatal = s.fatal := id rfl
@[simp] theorem State.setRing_tbs (kind ring : Nat) (x : Ring) : (s.setRing kind ring x).tbs = s.tbs := id rfl
@[simp] theorem State.setRing_tick (kind ring : Nat) (x : Ring) : (s.setRing kind ring x).tick = s.tick := id rfl
@[simp] theorem State.setRing_ports (kind ring : Nat) (x : Ring) : (s.setRing kind ring x).ports = s.ports := id rfl
@[simp] theorem State.setRing_rxSas (kind ring : Nat) (x : Ring) : (s.setRing kind ring x).rxSas = s.rxSas := id rfl
@[simp] theorem State.setRing_keys (kind ring : Nat) (x : Ring) : (s.setRing kind ring x).keys = s.keys := id rfl
@[simp] theorem State.setRing_get (kind ring : Nat) (x : Ring) (g : F) : (s.setRing kind ring x).get g = s.get g := id rfl
@[simp] theorem State.setRing_flag (kind ring : Nat) (x : Ring) (g : F) : (s.setRing kind ring x).flag g = s.flag g := id rfl

/-! ### State.setCh -/

@[simp] theorem State.setCh_regs (c : Nat) (x : DmaCh) : (s.setCh c x).regs = s.regs := id rfl
@[simp] theorem State.setCh_mem (c : Nat) (x : DmaCh) : (s.setCh c x).mem = s.mem := id rfl
@[simp] theorem State.setCh_hostMem (c : Nat) (x : DmaCh) : (s.setCh c x).hostMem = s.hostMem := id rfl
@[simp] theorem State.setCh_pending (c : Nat) (x : DmaCh) : (s.setCh c x).pending = s.pending := id rfl
@[simp] theorem State.setCh_free (c : Nat) (x : DmaCh) : (s.setCh c x).free = s.free := id rfl
@[simp] theorem State.setCh_out (c : Nat) (x : DmaCh) : (s.setCh c x).out = s.out := id rfl
@[simp] theorem State.setCh_now (c : Nat) (x : DmaCh) : (s.setCh c x).now = s.now := id rfl
@[simp] theorem State.setCh_locked (c : Nat) (x : DmaCh) : (s.setCh c x).locked = s.locked := id rfl
@[simp] theorem State.setCh_fatal (c : Nat) (x : DmaCh) : (s.setCh c x).fatal = s.fatal := id rfl
@[simp] theorem State.setCh_tbs (c : Nat) (x : DmaCh) : (s.setCh c x).tbs = s.tbs := id rfl
@[simp] theorem State.setCh_tick (c : Nat) (x : DmaCh) : (s.setCh c x).tick = s.tick := id rfl
@[simp] theorem State.setCh_ports (c : Nat) (x : DmaCh) : (s.setCh c x).ports = s.ports := id rfl
@[simp] theorem State.setCh_rxSas (c : Nat) (x : DmaCh) : (s.setCh c x).rxSas = s.rxSas := id rfl
@[simp] theorem State.setCh_keys (c : Nat) (x : DmaCh) : (s.setCh c x).keys = s.keys := id rfl
@[simp] theorem State.setCh_get (c : Nat) (x : DmaCh) (g : F) : (s.setCh c x).get g = s.get g := id rfl
@[simp] theorem State.setCh_flag (c : Nat) (x : DmaCh) (g : F) : (s.setCh c x).flag g = s.flag g := id rfl

/-! ### State.setSlot -/

@[simp] theorem State.setSlot_regs (n : Nat) (x : PiSt) : (s.setSlot n x).regs = s.regs := id rfl
@[simp] theorem State.setSlot_mem (n : Nat) (x : PiSt) : (s.setSlot n x).mem = s.mem := id rfl
@[simp] theorem State.setSlot_hostMem (n : Nat) (x : PiSt) : (s.setSlot n x).hostMem = s.hostMem := id rfl
@[simp] theorem State.setSlot_pending (n : Nat) (x : PiSt) : (s.setSlot n x).pending = s.pending := id rfl
@[simp] theorem State.setSlot_free (n : Nat) (x : PiSt) : (s.setSlot n x).free = s.free := id rfl
@[simp] theorem State.setSlot_out (n : Nat) (x : PiSt) : (s.setSlot n x).out = s.out := id rfl
@[simp] theorem State.setSlot_now (n : Nat) (x : PiSt) : (s.setSlot n x).now = s.now := id rfl
@[simp] theorem State.setSlot_locked (n : Nat) (x : PiSt) : (s.setSlot n x).locked = s.locked := id rfl
@[simp] theorem State.setSlot_fatal (n : Nat) (x : PiSt) : (s.setSlot n x).fatal = s.fatal := id rfl
@[simp] theorem State.setSlot_tbs (n : Nat) (x : PiSt) : (s.setSlot n x).tbs = s.tbs := id rfl
@[simp] theorem State.setSlot_tick (n : Nat) (x : PiSt) : (s.setSlot n x).tick = s.tick := id rfl
@[simp] theorem State.setSlot_ports (n : Nat) (x : PiSt) : (s.setSlot n x).ports = s.ports := id rfl
@[simp] theorem State.setSlot_rxSas (n : Nat) (x : PiSt) : (s.setSlot n x).rxSas = s.rxSas := id rfl
@[simp] theorem State.setSlot_keys (n : Nat) (x : PiSt) : (s.setSlot n x).keys = s.keys := id rfl
@[simp] theorem State.setSlot_get (n : Nat) (x : PiSt) (g : F) : (s.setSlot n x).get g = s.get g := id rfl
@[simp] theorem State.setSlot_flag (n : Nat) (x : PiSt) (g : F) : (s.setSlot n x).flag g = s.flag g := id rfl

/-! ### State.setStn -/

@[simp] theorem State.setStn_regs (st : Nat) (x : StnSt) : (s.setStn st x).regs = s.regs := id rfl
@[simp] theorem State.setStn_mem (st : Nat) (x : StnSt) : (s.setStn st x).mem = s.mem := id rfl
@[simp] theorem State.setStn_hostMem (st : Nat) (x : StnSt) : (s.setStn st x).hostMem = s.hostMem := id rfl
@[simp] theorem State.setStn_pending (st : Nat) (x : StnSt) : (s.setStn st x).pending = s.pending := id rfl
@[simp] theorem State.setStn_free (st : Nat) (x : StnSt) : (s.setStn st x).free = s.free := id rfl
@[simp] theorem State.setStn_out (st : Nat) (x : StnSt) : (s.setStn st x).out = s.out := id rfl
@[simp] theorem State.setStn_now (st : Nat) (x : StnSt) : (s.setStn st x).now = s.now := id rfl
@[simp] theorem State.setStn_locked (st : Nat) (x : StnSt) : (s.setStn st x).locked = s.locked := id rfl
@[simp] theorem State.setStn_fatal (st : Nat) (x : StnSt) : (s.setStn st x).fatal = s.fatal := id rfl
@[simp] theorem State.setStn_tbs (st : Nat) (x : StnSt) : (s.setStn st x).tbs = s.tbs := id rfl
@[simp] theorem State.setStn_tick (st : Nat) (x : StnSt) : (s.setStn st x).tick = s.tick := id rfl
@[simp] theorem State.setStn_ports (st : Nat) (x : StnSt) : (s.setStn st x).ports = s.ports := id rfl
@[simp] theorem State.setStn_rxSas (st : Nat) (x : StnSt) : (s.setStn st x).rxSas = s.rxSas := id rfl
@[simp] theorem State.setStn_keys (st : Nat) (x : StnSt) : (s.setStn st x).keys = s.keys := id rfl
@[simp] theorem State.setStn_get (st : Nat) (x : StnSt) (g : F) : (s.setStn st x).get g = s.get g := id rfl
@[simp] theorem State.setStn_flag (st : Nat) (x : StnSt) (g : F) : (s.setStn st x).flag g = s.flag g := id rfl

/-! ### State.setCar -/

@[simp] theorem State.setCar_regs (c : Nat) (x : CarSt) : (s.setCar c x).regs = s.regs := id rfl
@[simp] theorem State.setCar_mem (c : Nat) (x : CarSt) : (s.setCar c x).mem = s.mem := id rfl
@[simp] theorem State.setCar_hostMem (c : Nat) (x : CarSt) : (s.setCar c x).hostMem = s.hostMem := id rfl
@[simp] theorem State.setCar_pending (c : Nat) (x : CarSt) : (s.setCar c x).pending = s.pending := id rfl
@[simp] theorem State.setCar_free (c : Nat) (x : CarSt) : (s.setCar c x).free = s.free := id rfl
@[simp] theorem State.setCar_out (c : Nat) (x : CarSt) : (s.setCar c x).out = s.out := id rfl
@[simp] theorem State.setCar_now (c : Nat) (x : CarSt) : (s.setCar c x).now = s.now := id rfl
@[simp] theorem State.setCar_locked (c : Nat) (x : CarSt) : (s.setCar c x).locked = s.locked := id rfl
@[simp] theorem State.setCar_fatal (c : Nat) (x : CarSt) : (s.setCar c x).fatal = s.fatal := id rfl
@[simp] theorem State.setCar_tbs (c : Nat) (x : CarSt) : (s.setCar c x).tbs = s.tbs := id rfl
@[simp] theorem State.setCar_tick (c : Nat) (x : CarSt) : (s.setCar c x).tick = s.tick := id rfl
@[simp] theorem State.setCar_ports (c : Nat) (x : CarSt) : (s.setCar c x).ports = s.ports := id rfl
@[simp] theorem State.setCar_rxSas (c : Nat) (x : CarSt) : (s.setCar c x).rxSas = s.rxSas := id rfl
@[simp] theorem State.setCar_keys (c : Nat) (x : CarSt) : (s.setCar c x).keys = s.keys := id rfl
@[simp] theorem State.setCar_get (c : Nat) (x : CarSt) (g : F) : (s.setCar c x).get g = s.get g := id rfl
@[simp] theorem State.setCar_flag (c : Nat) (x : CarSt) (g : F) : (s.setCar c x).flag g = s.flag g := id rfl

/-! ### State.setNode -/

@[simp] theorem State.setNode_regs (n j : Nat) (x : NodeSt) : (s.setNode n j x).regs = s.regs := id rfl
@[simp] theorem State.setNode_mem (n j : Nat) (x : NodeSt) : (s.setNode n j x).mem = s.mem := id rfl
@[simp] theorem State.setNode_hostMem (n j : Nat) (x : NodeSt) : (s.setNode n j x).hostMem = s.hostMem := id rfl
@[simp] theorem State.setNode_pending (n j : Nat) (x : NodeSt) : (s.setNode n j x).pending = s.pending := id rfl
@[simp] theorem State.setNode_free (n j : Nat) (x : NodeSt) : (s.setNode n j x).free = s.free := id rfl
@[simp] theorem State.setNode_out (n j : Nat) (x : NodeSt) : (s.setNode n j x).out = s.out := id rfl
@[simp] theorem State.setNode_now (n j : Nat) (x : NodeSt) : (s.setNode n j x).now = s.now := id rfl
@[simp] theorem State.setNode_locked (n j : Nat) (x : NodeSt) : (s.setNode n j x).locked = s.locked := id rfl
@[simp] theorem State.setNode_fatal (n j : Nat) (x : NodeSt) : (s.setNode n j x).fatal = s.fatal := id rfl
@[simp] theorem State.setNode_tbs (n j : Nat) (x : NodeSt) : (s.setNode n j x).tbs = s.tbs := id rfl
@[simp] theorem State.setNode_tick (n j : Nat) (x : NodeSt) : (s.setNode n j x).tick = s.tick := id rfl
@[simp] theorem State.setNode_ports (n j : Nat) (x : NodeSt) : (s.setNode n j x).ports = s.ports := id rfl
@[simp] theorem State.setNode_rxSas (n j : Nat) (x : NodeSt) : (s.setNode n j x).rxSas = s.rxSas := id rfl
@[simp] theorem State.setNode_keys (n j : Nat) (x : NodeSt) : (s.setNode n j x).keys = s.keys := id rfl
@[simp] theorem State.setNode_get (n j : Nat) (x : NodeSt) (g : F) : (s.setNode n j x).get g = s.get g := id rfl
@[simp] theorem State.setNode_flag (n j : Nat) (x : NodeSt) (g : F) : (s.setNode n j x).flag g = s.flag g := id rfl

/-! ### State.setPath -/

@[simp] theorem State.setPath_regs (n j p : Nat) (x : PathSt) : (s.setPath n j p x).regs = s.regs := id rfl
@[simp] theorem State.setPath_mem (n j p : Nat) (x : PathSt) : (s.setPath n j p x).mem = s.mem := id rfl
@[simp] theorem State.setPath_hostMem (n j p : Nat) (x : PathSt) : (s.setPath n j p x).hostMem = s.hostMem := id rfl
@[simp] theorem State.setPath_pending (n j p : Nat) (x : PathSt) : (s.setPath n j p x).pending = s.pending := id rfl
@[simp] theorem State.setPath_free (n j p : Nat) (x : PathSt) : (s.setPath n j p x).free = s.free := id rfl
@[simp] theorem State.setPath_out (n j p : Nat) (x : PathSt) : (s.setPath n j p x).out = s.out := id rfl
@[simp] theorem State.setPath_now (n j p : Nat) (x : PathSt) : (s.setPath n j p x).now = s.now := id rfl
@[simp] theorem State.setPath_locked (n j p : Nat) (x : PathSt) : (s.setPath n j p x).locked = s.locked := id rfl
@[simp] theorem State.setPath_fatal (n j p : Nat) (x : PathSt) : (s.setPath n j p x).fatal = s.fatal := id rfl
@[simp] theorem State.setPath_tbs (n j p : Nat) (x : PathSt) : (s.setPath n j p x).tbs = s.tbs := id rfl
@[simp] theorem State.setPath_tick (n j p : Nat) (x : PathSt) : (s.setPath n j p x).tick = s.tick := id rfl
@[simp] theorem State.setPath_ports (n j p : Nat) (x : PathSt) : (s.setPath n j p x).ports = s.ports := id rfl
@[simp] theorem State.setPath_rxSas (n j p : Nat) (x : PathSt) : (s.setPath n j p x).rxSas = s.rxSas := id rfl
@[simp] theorem State.setPath_keys (n j p : Nat) (x : PathSt) : (s.setPath n j p x).keys = s.keys := id rfl
@[simp] theorem State.setPath_get (n j p : Nat) (x : PathSt) (g : F) : (s.setPath n j p x).get g = s.get g := id rfl
@[simp] theorem State.setPath_flag (n j p : Nat) (x : PathSt) (g : F) : (s.setPath n j p x).flag g = s.flag g := id rfl

/-! ### State.setSyn -/

@[simp] theorem State.setSyn_regs (n : Nat) (x : SynSt) : (s.setSyn n x).regs = s.regs := id rfl
@[simp] theorem State.setSyn_mem (n : Nat) (x : SynSt) : (s.setSyn n x).mem = s.mem := id rfl
@[simp] theorem State.setSyn_hostMem (n : Nat) (x : SynSt) : (s.setSyn n x).hostMem = s.hostMem := id rfl
@[simp] theorem State.setSyn_pending (n : Nat) (x : SynSt) : (s.setSyn n x).pending = s.pending := id rfl
@[simp] theorem State.setSyn_free (n : Nat) (x : SynSt) : (s.setSyn n x).free = s.free := id rfl
@[simp] theorem State.setSyn_out (n : Nat) (x : SynSt) : (s.setSyn n x).out = s.out := id rfl
@[simp] theorem State.setSyn_now (n : Nat) (x : SynSt) : (s.setSyn n x).now = s.now := id rfl
@[simp] theorem State.setSyn_locked (n : Nat) (x : SynSt) : (s.setSyn n x).locked = s.locked := id rfl
@[simp] theorem State.setSyn_fatal (n : Nat) (x : SynSt) : (s.setSyn n x).fatal = s.fatal := id rfl
@[simp] theorem State.setSyn_tbs (n : Nat) (x : SynSt) : (s.setSyn n x).tbs = s.tbs := id rfl
@[simp] theorem State.setSyn_tick (n : Nat) (x : SynSt) : (s.setSyn n x).tick = s.tick := id rfl
@[simp] theorem State.setSyn_ports (n : Nat) (x : SynSt) : (s.setSyn n x).ports = s.ports := id rfl
@[simp] theorem State.setSyn_rxSas (n : Nat) (x : SynSt) : (s.setSyn n x).rxSas = s.rxSas := id rfl
@[simp] theorem State.setSyn_keys (n : Nat) (x : SynSt) : (s.setSyn n x).keys = s.keys := id rfl
@[simp] theorem State.setSyn_get (n : Nat) (x : SynSt) (g : F) : (s.setSyn n x).get g = s.get g := id rfl
@[simp] theorem State.setSyn_flag (n : Nat) (x : SynSt) (g : F) : (s.setSyn n x).flag g = s.flag g := id rfl

/-! ### State.setPtp -/

@[simp] theorem State.setPtp_regs (n b : Nat) (x : PtpSt) : (s.setPtp n b x).regs = s.regs := id rfl
@[simp] theorem State.setPtp_mem (n b : Nat) (x : PtpSt) : (s.setPtp n b x).mem = s.mem := id rfl
@[simp] theorem State.setPtp_hostMem (n b : Nat) (x : PtpSt) : (s.setPtp n b x).hostMem = s.hostMem := id rfl
@[simp] theorem State.setPtp_pending (n b : Nat) (x : PtpSt) : (s.setPtp n b x).pending = s.pending := id rfl
@[simp] theorem State.setPtp_free (n b : Nat) (x : PtpSt) : (s.setPtp n b x).free = s.free := id rfl
@[simp] theorem State.setPtp_out (n b : Nat) (x : PtpSt) : (s.setPtp n b x).out = s.out := id rfl
@[simp] theorem State.setPtp_now (n b : Nat) (x : PtpSt) : (s.setPtp n b x).now = s.now := id rfl
@[simp] theorem State.setPtp_locked (n b : Nat) (x : PtpSt) : (s.setPtp n b x).locked = s.locked := id rfl
@[simp] theorem State.setPtp_fatal (n b : Nat) (x : PtpSt) : (s.setPtp n b x).fatal = s.fatal := id rfl
@[simp] theorem State.setPtp_tbs (n b : Nat) (x : PtpSt) : (s.setPtp n b x).tbs = s.tbs := id rfl
@[simp] theorem State.setPtp_tick (n b : Nat) (x : PtpSt) : (s.setPtp n b x).tick = s.tick := id rfl
@[simp] theorem State.setPtp_ports (n b : Nat) (x : PtpSt) : (s.setPtp n b x).ports = s.ports := id rfl
@[simp] theorem State.setPtp_rxSas (n b : Nat) (x : PtpSt) : (s.setPtp n b x).rxSas = s.rxSas := id rfl
@[simp] theorem State.setPtp_keys (n b : Nat) (x : PtpSt) : (s.setPtp n b x).keys = s.keys := id rfl
@[simp] theorem State.setPtp_get (n b : Nat) (x : PtpSt) (g : F) : (s.setPtp n b x).get g = s.get g := id rfl
@[simp] theorem State.setPtp_flag (n b : Nat) (x : PtpSt) (g : F) : (s.setPtp n b x).flag g = s.flag g := id rfl

/-! ### State.setAsw -/

@[simp] theorem State.setAsw_regs (n w : Nat) (x : AswSt) : (s.setAsw n w x).regs = s.regs := id rfl
@[simp] theorem State.setAsw_mem (n w : Nat) (x : AswSt) : (s.setAsw n w x).mem = s.mem := id rfl
@[simp] theorem State.setAsw_hostMem (n w : Nat) (x : AswSt) : (s.setAsw n w x).hostMem = s.hostMem := id rfl
@[simp] theorem State.setAsw_pending (n w : Nat) (x : AswSt) : (s.setAsw n w x).pending = s.pending := id rfl
@[simp] theorem State.setAsw_free (n w : Nat) (x : AswSt) : (s.setAsw n w x).free = s.free := id rfl
@[simp] theorem State.setAsw_out (n w : Nat) (x : AswSt) : (s.setAsw n w x).out = s.out := id rfl
@[simp] theorem State.setAsw_now (n w : Nat) (x : AswSt) : (s.setAsw n w x).now = s.now := id rfl
@[simp] theorem State.setAsw_locked (n w : Nat) (x : AswSt) : (s.setAsw n w x).locked = s.locked := id rfl
@[simp] theorem State.setAsw_fatal (n w : Nat) (x : AswSt) : (s.setAsw n w x).fatal = s.fatal := id rfl
@[simp] theorem State.setAsw_tbs (n w : Nat) (x : AswSt) : (s.setAsw n w x).tbs = s.tbs := id rfl
@[simp] theorem State.setAsw_tick (n w : Nat) (x : AswSt) : (s.setAsw n w x).tick = s.tick := id rfl
@[simp] theorem State.setAsw_ports (n w : Nat) (x : AswSt) : (s.setAsw n w x).ports = s.ports := id rfl
@[simp] theorem State.setAsw_rxSas (n w : Nat) (x : AswSt) : (s.setAsw n w x).rxSas = s.rxSas := id rfl
@[simp] theorem State.setAsw_keys (n w : Nat) (x : AswSt) : (s.setAsw n w x).keys = s.keys := id rfl
@[simp] theorem State.setAsw_get (n w : Nat) (x : AswSt) (g : F) : (s.setAsw n w x).get g = s.get g := id rfl
@[simp] theorem State.setAsw_flag (n w : Nat) (x : AswSt) (g : F) : (s.setAsw n w x).flag g = s.flag g := id rfl

/-! ### State.setCst -/

@[simp] theorem State.setCst_regs (n : Nat) (x : CstSt) : (s.setCst n x).regs = s.regs := id rfl
@[simp] theorem State.setCst_mem (n : Nat) (x : CstSt) : (s.setCst n x).mem = s.mem := id rfl
@[simp] theorem State.setCst_hostMem (n : Nat) (x : CstSt) : (s.setCst n x).hostMem = s.hostMem := id rfl
@[simp] theorem State.setCst_pending (n : Nat) (x : CstSt) : (s.setCst n x).pending = s.pending := id rfl
@[simp] theorem State.setCst_free (n : Nat) (x : CstSt) : (s.setCst n x).free = s.free := id rfl
@[simp] theorem State.setCst_out (n : Nat) (x : CstSt) : (s.setCst n x).out = s.out := id rfl
@[simp] theorem State.setCst_now (n : Nat) (x : CstSt) : (s.setCst n x).now = s.now := id rfl
@[simp] theorem State.setCst_locked (n : Nat) (x : CstSt) : (s.setCst n x).locked = s.locked := id rfl
@[simp] theorem State.setCst_fatal (n : Nat) (x : CstSt) : (s.setCst n x).fatal = s.fatal := id rfl
@[simp] theorem State.setCst_tbs (n : Nat) (x : CstSt) : (s.setCst n x).tbs = s.tbs := id rfl
@[simp] theorem State.setCst_tick (n : Nat) (x : CstSt) : (s.setCst n x).tick = s.tick := id rfl
@[simp] theorem State.setCst_ports (n : Nat) (x : CstSt) : (s.setCst n x).ports = s.ports := id rfl
@[simp] theorem State.setCst_rxSas (n : Nat) (x : CstSt) : (s.setCst n x).rxSas = s.rxSas := id rfl
@[simp] theorem State.setCst_keys (n : Nat) (x : CstSt) : (s.setCst n x).keys = s.keys := id rfl
@[simp] theorem State.setCst_get (n : Nat) (x : CstSt) (g : F) : (s.setCst n x).get g = s.get g := id rfl
@[simp] theorem State.setCst_flag (n : Nat) (x : CstSt) (g : F) : (s.setCst n x).flag g = s.flag g := id rfl

/-! ### State.setGrd -/

@[simp] theorem State.setGrd_regs (p : Nat) (x : GrdSt) : (s.setGrd p x).regs = s.regs := id rfl
@[simp] theorem State.setGrd_mem (p : Nat) (x : GrdSt) : (s.setGrd p x).mem = s.mem := id rfl
@[simp] theorem State.setGrd_hostMem (p : Nat) (x : GrdSt) : (s.setGrd p x).hostMem = s.hostMem := id rfl
@[simp] theorem State.setGrd_pending (p : Nat) (x : GrdSt) : (s.setGrd p x).pending = s.pending := id rfl
@[simp] theorem State.setGrd_free (p : Nat) (x : GrdSt) : (s.setGrd p x).free = s.free := id rfl
@[simp] theorem State.setGrd_out (p : Nat) (x : GrdSt) : (s.setGrd p x).out = s.out := id rfl
@[simp] theorem State.setGrd_now (p : Nat) (x : GrdSt) : (s.setGrd p x).now = s.now := id rfl
@[simp] theorem State.setGrd_locked (p : Nat) (x : GrdSt) : (s.setGrd p x).locked = s.locked := id rfl
@[simp] theorem State.setGrd_fatal (p : Nat) (x : GrdSt) : (s.setGrd p x).fatal = s.fatal := id rfl
@[simp] theorem State.setGrd_tbs (p : Nat) (x : GrdSt) : (s.setGrd p x).tbs = s.tbs := id rfl
@[simp] theorem State.setGrd_tick (p : Nat) (x : GrdSt) : (s.setGrd p x).tick = s.tick := id rfl
@[simp] theorem State.setGrd_ports (p : Nat) (x : GrdSt) : (s.setGrd p x).ports = s.ports := id rfl
@[simp] theorem State.setGrd_rxSas (p : Nat) (x : GrdSt) : (s.setGrd p x).rxSas = s.rxSas := id rfl
@[simp] theorem State.setGrd_keys (p : Nat) (x : GrdSt) : (s.setGrd p x).keys = s.keys := id rfl
@[simp] theorem State.setGrd_get (p : Nat) (x : GrdSt) (g : F) : (s.setGrd p x).get g = s.get g := id rfl
@[simp] theorem State.setGrd_flag (p : Nat) (x : GrdSt) (g : F) : (s.setGrd p x).flag g = s.flag g := id rfl

/-! ### State.setMember -/

@[simp] theorem State.setMember_regs (c m : Nat) (x : UlcMem) : (s.setMember c m x).regs = s.regs := id rfl
@[simp] theorem State.setMember_mem (c m : Nat) (x : UlcMem) : (s.setMember c m x).mem = s.mem := id rfl
@[simp] theorem State.setMember_hostMem (c m : Nat) (x : UlcMem) : (s.setMember c m x).hostMem = s.hostMem := id rfl
@[simp] theorem State.setMember_pending (c m : Nat) (x : UlcMem) : (s.setMember c m x).pending = s.pending := id rfl
@[simp] theorem State.setMember_free (c m : Nat) (x : UlcMem) : (s.setMember c m x).free = s.free := id rfl
@[simp] theorem State.setMember_out (c m : Nat) (x : UlcMem) : (s.setMember c m x).out = s.out := id rfl
@[simp] theorem State.setMember_now (c m : Nat) (x : UlcMem) : (s.setMember c m x).now = s.now := id rfl
@[simp] theorem State.setMember_locked (c m : Nat) (x : UlcMem) : (s.setMember c m x).locked = s.locked := id rfl
@[simp] theorem State.setMember_fatal (c m : Nat) (x : UlcMem) : (s.setMember c m x).fatal = s.fatal := id rfl
@[simp] theorem State.setMember_tbs (c m : Nat) (x : UlcMem) : (s.setMember c m x).tbs = s.tbs := id rfl
@[simp] theorem State.setMember_tick (c m : Nat) (x : UlcMem) : (s.setMember c m x).tick = s.tick := id rfl
@[simp] theorem State.setMember_ports (c m : Nat) (x : UlcMem) : (s.setMember c m x).ports = s.ports := id rfl
@[simp] theorem State.setMember_rxSas (c m : Nat) (x : UlcMem) : (s.setMember c m x).rxSas = s.rxSas := id rfl
@[simp] theorem State.setMember_keys (c m : Nat) (x : UlcMem) : (s.setMember c m x).keys = s.keys := id rfl
@[simp] theorem State.setMember_get (c m : Nat) (x : UlcMem) (g : F) : (s.setMember c m x).get g = s.get g := id rfl
@[simp] theorem State.setMember_flag (c m : Nat) (x : UlcMem) (g : F) : (s.setMember c m x).flag g = s.flag g := id rfl

/-! ### State.setStr -/

@[simp] theorem State.setStr_regs (t i w v : Nat) : (s.setStr t i w v).regs = s.regs := id rfl
@[simp] theorem State.setStr_mem (t i w v : Nat) : (s.setStr t i w v).mem = s.mem := id rfl
@[simp] theorem State.setStr_hostMem (t i w v : Nat) : (s.setStr t i w v).hostMem = s.hostMem := id rfl
@[simp] theorem State.setStr_pending (t i w v : Nat) : (s.setStr t i w v).pending = s.pending := id rfl
@[simp] theorem State.setStr_free (t i w v : Nat) : (s.setStr t i w v).free = s.free := id rfl
@[simp] theorem State.setStr_out (t i w v : Nat) : (s.setStr t i w v).out = s.out := id rfl
@[simp] theorem State.setStr_now (t i w v : Nat) : (s.setStr t i w v).now = s.now := id rfl
@[simp] theorem State.setStr_locked (t i w v : Nat) : (s.setStr t i w v).locked = s.locked := id rfl
@[simp] theorem State.setStr_fatal (t i w v : Nat) : (s.setStr t i w v).fatal = s.fatal := id rfl
@[simp] theorem State.setStr_tbs (t i w v : Nat) : (s.setStr t i w v).tbs = s.tbs := id rfl
@[simp] theorem State.setStr_tick (t i w v : Nat) : (s.setStr t i w v).tick = s.tick := id rfl
@[simp] theorem State.setStr_ports (t i w v : Nat) : (s.setStr t i w v).ports = s.ports := id rfl
@[simp] theorem State.setStr_rxSas (t i w v : Nat) : (s.setStr t i w v).rxSas = s.rxSas := id rfl
@[simp] theorem State.setStr_keys (t i w v : Nat) : (s.setStr t i w v).keys = s.keys := id rfl
@[simp] theorem State.setStr_get (t i w v : Nat) (g : F) : (s.setStr t i w v).get g = s.get g := id rfl
@[simp] theorem State.setStr_flag (t i w v : Nat) (g : F) : (s.setStr t i w v).flag g = s.flag g := id rfl

/-! ### State.setFr -/

@[simp] theorem State.setFr_regs (t i w v : Nat) : (s.setFr t i w v).regs = s.regs := id rfl
@[simp] theorem State.setFr_mem (t i w v : Nat) : (s.setFr t i w v).mem = s.mem := id rfl
@[simp] theorem State.setFr_hostMem (t i w v : Nat) : (s.setFr t i w v).hostMem = s.hostMem := id rfl
@[simp] theorem State.setFr_pending (t i w v : Nat) : (s.setFr t i w v).pending = s.pending := id rfl
@[simp] theorem State.setFr_free (t i w v : Nat) : (s.setFr t i w v).free = s.free := id rfl
@[simp] theorem State.setFr_out (t i w v : Nat) : (s.setFr t i w v).out = s.out := id rfl
@[simp] theorem State.setFr_now (t i w v : Nat) : (s.setFr t i w v).now = s.now := id rfl
@[simp] theorem State.setFr_locked (t i w v : Nat) : (s.setFr t i w v).locked = s.locked := id rfl
@[simp] theorem State.setFr_fatal (t i w v : Nat) : (s.setFr t i w v).fatal = s.fatal := id rfl
@[simp] theorem State.setFr_tbs (t i w v : Nat) : (s.setFr t i w v).tbs = s.tbs := id rfl
@[simp] theorem State.setFr_tick (t i w v : Nat) : (s.setFr t i w v).tick = s.tick := id rfl
@[simp] theorem State.setFr_ports (t i w v : Nat) : (s.setFr t i w v).ports = s.ports := id rfl
@[simp] theorem State.setFr_rxSas (t i w v : Nat) : (s.setFr t i w v).rxSas = s.rxSas := id rfl
@[simp] theorem State.setFr_keys (t i w v : Nat) : (s.setFr t i w v).keys = s.keys := id rfl
@[simp] theorem State.setFr_get (t i w v : Nat) (g : F) : (s.setFr t i w v).get g = s.get g := id rfl
@[simp] theorem State.setFr_flag (t i w v : Nat) (g : F) : (s.setFr t i w v).flag g = s.flag g := id rfl

/-! ### State.setSlot_ -/

@[simp] theorem State.setSlot__regs (i : Nat) (x : OwnerSlot) : (s.setSlot_ i x).regs = s.regs := id rfl
@[simp] theorem State.setSlot__mem (i : Nat) (x : OwnerSlot) : (s.setSlot_ i x).mem = s.mem := id rfl
@[simp] theorem State.setSlot__hostMem (i : Nat) (x : OwnerSlot) : (s.setSlot_ i x).hostMem = s.hostMem := id rfl
@[simp] theorem State.setSlot__pending (i : Nat) (x : OwnerSlot) : (s.setSlot_ i x).pending = s.pending := id rfl
@[simp] theorem State.setSlot__free (i : Nat) (x : OwnerSlot) : (s.setSlot_ i x).free = s.free := id rfl
@[simp] theorem State.setSlot__out (i : Nat) (x : OwnerSlot) : (s.setSlot_ i x).out = s.out := id rfl
@[simp] theorem State.setSlot__now (i : Nat) (x : OwnerSlot) : (s.setSlot_ i x).now = s.now := id rfl
@[simp] theorem State.setSlot__locked (i : Nat) (x : OwnerSlot) : (s.setSlot_ i x).locked = s.locked := id rfl
@[simp] theorem State.setSlot__fatal (i : Nat) (x : OwnerSlot) : (s.setSlot_ i x).fatal = s.fatal := id rfl
@[simp] theorem State.setSlot__tbs (i : Nat) (x : OwnerSlot) : (s.setSlot_ i x).tbs = s.tbs := id rfl
@[simp] theorem State.setSlot__tick (i : Nat) (x : OwnerSlot) : (s.setSlot_ i x).tick = s.tick := id rfl
@[simp] theorem State.setSlot__ports (i : Nat) (x : OwnerSlot) : (s.setSlot_ i x).ports = s.ports := id rfl
@[simp] theorem State.setSlot__rxSas (i : Nat) (x : OwnerSlot) : (s.setSlot_ i x).rxSas = s.rxSas := id rfl
@[simp] theorem State.setSlot__keys (i : Nat) (x : OwnerSlot) : (s.setSlot_ i x).keys = s.keys := id rfl
@[simp] theorem State.setSlot__get (i : Nat) (x : OwnerSlot) (g : F) : (s.setSlot_ i x).get g = s.get g := id rfl
@[simp] theorem State.setSlot__flag (i : Nat) (x : OwnerSlot) (g : F) : (s.setSlot_ i x).flag g = s.flag g := id rfl

/-! ### State.push -/

@[simp] theorem State.push_regs (c : Instr) : (s.push c).regs = s.regs := id rfl
@[simp] theorem State.push_mem (c : Instr) : (s.push c).mem = s.mem := id rfl
@[simp] theorem State.push_hostMem (c : Instr) : (s.push c).hostMem = s.hostMem := id rfl
@[simp] theorem State.push_free (c : Instr) : (s.push c).free = s.free := id rfl
@[simp] theorem State.push_out (c : Instr) : (s.push c).out = s.out := id rfl
@[simp] theorem State.push_now (c : Instr) : (s.push c).now = s.now := id rfl
@[simp] theorem State.push_locked (c : Instr) : (s.push c).locked = s.locked := id rfl
@[simp] theorem State.push_fatal (c : Instr) : (s.push c).fatal = s.fatal := id rfl
@[simp] theorem State.push_tbs (c : Instr) : (s.push c).tbs = s.tbs := id rfl
@[simp] theorem State.push_tick (c : Instr) : (s.push c).tick = s.tick := id rfl
@[simp] theorem State.push_ports (c : Instr) : (s.push c).ports = s.ports := id rfl
@[simp] theorem State.push_rxSas (c : Instr) : (s.push c).rxSas = s.rxSas := id rfl
@[simp] theorem State.push_keys (c : Instr) : (s.push c).keys = s.keys := id rfl
@[simp] theorem State.push_get (c : Instr) (g : F) : (s.push c).get g = s.get g := id rfl
@[simp] theorem State.push_flag (c : Instr) (g : F) : (s.push c).flag g = s.flag g := id rfl

/-! ### Reading back -/

@[simp] theorem State.tb_setTb_same (n : Nat) (x : Tb) : (s.setTb n x).tb n = x := tget_tset_same _ _ _ _
theorem State.tb_setTb_ne (n : Nat) (m : Nat) (x : Tb) (h : m ≠ n) : (s.setTb n x).tb m = s.tb m := tget_tset_ne _ _ _ _ h
@[simp] theorem State.port_setPort_same (p : Nat) (x : PortSt) : (s.setPort p x).port p = x := tget_tset_same _ _ _ _
theorem State.port_setPort_ne (p : Nat) (q : Nat) (x : PortSt) (h : q ≠ p) : (s.setPort p x).port q = s.port q := tget_tset_ne _ _ _ _ h
@[simp] theorem State.lane_setLane_same (l : Nat) (x : LaneSt) : (s.setLane l x).lane l = x := tget_tset_same _ _ _ _
theorem State.lane_setLane_ne (l : Nat) (m : Nat) (x : LaneSt) (h : m ≠ l) : (s.setLane l x).lane m = s.lane m := tget_tset_ne _ _ _ _ h
@[simp] theorem State.sp_setSp_same (g : Nat) (x : Sp) : (s.setSp g x).sp g = x := tget_tset_same _ _ _ _
theorem State.sp_setSp_ne (g : Nat) (j : Nat) (x : Sp) (h : j ≠ g) : (s.setSp g x).sp j = s.sp j := tget_tset_ne _ _ _ _ h
@[simp] theorem State.rec__setRec_same (i : Nat) (x : RecSt) : (s.setRec i x).rec_ i = x := tget_tset_same _ _ _ _
theorem State.rec__setRec_ne (i : Nat) (j : Nat) (x : RecSt) (h : j ≠ i) : (s.setRec i x).rec_ j = s.rec_ j := tget_tset_ne _ _ _ _ h
@[simp] theorem State.key_setKey_same (p : Nat) (x : KeySt) : (s.setKey p x).key p = x := tget_tset_same _ _ _ _
theorem State.key_setKey_ne (p : Nat) (q : Nat) (x : KeySt) (h : q ≠ p) : (s.setKey p x).key q = s.key q := tget_tset_ne _ _ _ _ h
@[simp] theorem State.ch_setCh_same (c : Nat) (x : DmaCh) : (s.setCh c x).ch c = x := tget_tset_same _ _ _ _
theorem State.ch_setCh_ne (c : Nat) (d : Nat) (x : DmaCh) (h : d ≠ c) : (s.setCh c x).ch d = s.ch d := tget_tset_ne _ _ _ _ h
@[simp] theorem State.slot_setSlot_same (n : Nat) (x : PiSt) : (s.setSlot n x).slot n = x := tget_tset_same _ _ _ _
theorem State.slot_setSlot_ne (n : Nat) (m : Nat) (x : PiSt) (h : m ≠ n) : (s.setSlot n x).slot m = s.slot m := tget_tset_ne _ _ _ _ h
@[simp] theorem State.stn_setStn_same (i : Nat) (x : StnSt) : (s.setStn i x).stn i = x := tget_tset_same _ _ _ _
theorem State.stn_setStn_ne (i : Nat) (j : Nat) (x : StnSt) (h : j ≠ i) : (s.setStn i x).stn j = s.stn j := tget_tset_ne _ _ _ _ h
@[simp] theorem State.car_setCar_same (c : Nat) (x : CarSt) : (s.setCar c x).car c = x := tget_tset_same _ _ _ _
theorem State.car_setCar_ne (c : Nat) (d : Nat) (x : CarSt) (h : d ≠ c) : (s.setCar c x).car d = s.car d := tget_tset_ne _ _ _ _ h
@[simp] theorem State.syn_setSyn_same (n : Nat) (x : SynSt) : (s.setSyn n x).syn n = x := tget_tset_same _ _ _ _
theorem State.syn_setSyn_ne (n : Nat) (m : Nat) (x : SynSt) (h : m ≠ n) : (s.setSyn n x).syn m = s.syn m := tget_tset_ne _ _ _ _ h
@[simp] theorem State.cst_setCst_same (n : Nat) (x : CstSt) : (s.setCst n x).cst n = x := tget_tset_same _ _ _ _
theorem State.cst_setCst_ne (n : Nat) (m : Nat) (x : CstSt) (h : m ≠ n) : (s.setCst n x).cst m = s.cst m := tget_tset_ne _ _ _ _ h
@[simp] theorem State.grd_setGrd_same (p : Nat) (x : GrdSt) : (s.setGrd p x).grd p = x := tget_tset_same _ _ _ _
theorem State.grd_setGrd_ne (p : Nat) (q : Nat) (x : GrdSt) (h : q ≠ p) : (s.setGrd p x).grd q = s.grd q := tget_tset_ne _ _ _ _ h
@[simp] theorem State.ring_setRing_same (kind ring : Nat) (x : Ring) : (s.setRing kind ring x).ring kind ring = x :=
  tget_tset_same _ _ _ _
@[simp] theorem State.queue_setQueue_same (p tc : Nat) (q : List QFrame) : (s.setQueue p tc q).queue p tc = q :=
  tget_tset_same _ _ _ _
@[simp] theorem State.node_setNode_same (n j : Nat) (x : NodeSt) : (s.setNode n j x).node n j = x :=
  tget_tset_same _ _ _ _
@[simp] theorem State.ptp_setPtp_same (n b : Nat) (x : PtpSt) : (s.setPtp n b x).ptp n b = x :=
  tget_tset_same _ _ _ _
@[simp] theorem State.asw_setAsw_same (n w : Nat) (x : AswSt) : (s.setAsw n w x).asw n w = x :=
  tget_tset_same _ _ _ _
@[simp] theorem State.emit_out (e : Emit) : (s.emit e).out = s.out ++ [e] := id rfl
@[simp] theorem State.push_pending (c : Instr) : (s.push c).pending = c :: s.pending := id rfl
@[simp] theorem State.draw_fst : s.draw.1 = Config.freeNat s.free := id rfl
@[simp] theorem State.draw_snd : s.draw.2 = { s with free := s.free + 1 } := id rfl

end Sys2Proof.Machine
end

