-- ==== Sys2Proof/Laws/Frames.lean ====
section
/-! SUPPORT. Frames: how the relations "only these fields changed" and "these fields read as before" compose, and that each register
update keeps them. They are stated for any field, so that no proof has to compare whole states at fixed offsets. -/

namespace Sys2Proof.Machine

theorem State.keepsFields.refl (s : State) (L : List F) : s.keepsFields s L := fun _ _ => Eq.refl _

theorem State.keepsFields.trans {s t u : State} {L : List F} (h : s.keepsFields t L) (g : t.keepsFields u L) :
    s.keepsFields u L := fun f hf => (g f hf).trans (h f hf)

theorem State.keepsFields.mono {s t : State} {L M : List F} (h : s.keepsFields t L) (hm : ∀ f ∈ L, f ∈ M) :
    s.keepsFields t M := fun f hf => h f (fun x hx => hf x (hm x hx))

theorem State.keepsFields.of_regs {s t : State} (L : List F) (h : t.regs = s.regs) : s.keepsFields t L :=
  fun f _ => by rw [State.get, State.get, h]

theorem State.keeps_set (s : State) {L : List F} {f : F} (v : Nat) (hf : f ∈ L) (h : f.fits) :
    s.keepsFields (s.set f v) L := fun _ hg => State.get_set_ne s v h (hg f hf)

theorem State.keeps_inc (s : State) {L : List F} {f : F} (hf : f ∈ L) (h : f.fits) : s.keepsFields (s.inc f) L :=
  fun _ hg => State.get_inc_ne s h (hg f hf)

theorem State.get_incW_same (s : State) (f : F) (h : f.fits) : (s.incW f).get f = (s.get f + 1) % 2 ^ f.w :=
  fget_fset_same s.regs f _ h

theorem State.get_incW_ne (s : State) {f g : F} (h : f.fits) (ha : f.apart g) : (s.incW f).get g = s.get g :=
  fget_fset_ne s.regs _ h ha

theorem State.keeps_incW (s : State) {L : List F} {f : F} (hf : f ∈ L) (h : f.fits) : s.keepsFields (s.incW f) L :=
  fun _ hg => State.get_incW_ne s h (hg f hf)

theorem State.keeps_incBy (s : State) {L : List F} {f : F} (n : Nat) (hf : f ∈ L) (h : f.fits) :
    s.keepsFields (s.incBy f n) L := fun _ hg => State.get_incBy_ne s n h (hg f hf)

theorem State.keeps_setB (s : State) {L : List F} {f : F} (b : Bool) (hf : f ∈ L) (h : f.fits) :
    s.keepsFields (s.setB f b) L := State.keeps_set s b.toNat hf h

theorem State.get_setB_same (s : State) (f : F) (b : Bool) (h : f.fits) : (s.setB f b).get f = b.toNat % 2 ^ f.w :=
  State.get_set_same s f b.toNat h

theorem State.get_setB_ne (s : State) {f g : F} (b : Bool) (h : f.fits) (ha : f.apart g) : (s.setB f b).get g = s.get g :=
  State.get_set_ne s b.toNat h ha

/-! ### Registers alone -/

theorem State.onlyFields.refl (s : State) (L : List F) : s.onlyFields s L := ⟨rfl, .refl s L⟩

theorem State.onlyFields.trans {s t u : State} {L : List F} (h : s.onlyFields t L) (g : t.onlyFields u L) :
    s.onlyFields u L := by
  refine ⟨g.1.trans ?_, h.2.trans g.2⟩
  rw [h.1]

theorem State.onlyFields.mono {s t : State} {L M : List F} (h : s.onlyFields t L) (hm : ∀ f ∈ L, f ∈ M) :
    s.onlyFields t M := ⟨h.1, h.2.mono hm⟩

theorem State.only_set (s : State) {L : List F} {f : F} (v : Nat) (hf : f ∈ L) (h : f.fits) :
    s.onlyFields (s.set f v) L := ⟨rfl, State.keeps_set s v hf h⟩

theorem State.only_setB (s : State) {L : List F} {f : F} (b : Bool) (hf : f ∈ L) (h : f.fits) :
    s.onlyFields (s.setB f b) L := ⟨rfl, State.keeps_setB s b hf h⟩

theorem State.only_inc (s : State) {L : List F} {f : F} (hf : f ∈ L) (h : f.fits) : s.onlyFields (s.inc f) L :=
  ⟨rfl, State.keeps_inc s hf h⟩

theorem State.only_incW (s : State) {L : List F} {f : F} (hf : f ∈ L) (h : f.fits) : s.onlyFields (s.incW f) L :=
  ⟨rfl, State.keeps_incW s hf h⟩

theorem State.only_incBy (s : State) {L : List F} {f : F} (n : Nat) (hf : f ∈ L) (h : f.fits) :
    s.onlyFields (s.incBy f n) L := ⟨rfl, State.keeps_incBy s n hf h⟩

end Sys2Proof.Machine
end

