-- ==== Sys2Proof/Laws/Collector.lean ====
section
/-! SUPPORT. The fault collector's shared operations, said once each: what recording, merging and noting an event may change, and
what they change it to. -/

namespace Sys2Proof.Machine

/-! ### Recording -/

/-- Between `s` and `t` nothing changed but registers, the recorded sources and the clocks of their events, pending vectors and
MSI-X messages sent. -/
def State.eventFrame (s t : State) : Prop :=
  t = { s with regs := t.regs, srcs := t.srcs, vecs := t.vecs, evAt := t.evAt, out := t.out } ∧
    ∃ l, t.out = s.out ++ l ∧ ∀ e ∈ l, ∃ v, e = .msix v

theorem State.eventFrame.refl (s : State) : s.eventFrame s := ⟨rfl, [], by simp, by simp⟩

theorem State.eventFrame.trans {s t u : State} (h : s.eventFrame t) (g : t.eventFrame u) : s.eventFrame u := by
  obtain ⟨h1, l, h2, h3⟩ := h
  obtain ⟨g1, m, g2, g3⟩ := g
  refine ⟨?_, l ++ m, ?_, ?_⟩
  · refine g1.trans ?_
    rw [h1]
  · rw [g2, h2, List.append_assoc]
  · intro e he
    exact (List.mem_append.1 he).elim (h3 e) (g3 e)

/-- Registers and sources alone. -/
theorem State.eventFrame.of_eq {s t : State} (h : t = { s with regs := t.regs, srcs := t.srcs, vecs := t.vecs, evAt := t.evAt }) :
    s.eventFrame t := by
  have e : t.out = s.out := by rw [h]
  refine ⟨?_, [], by simp [e], by simp⟩
  refine h.trans ?_
  rw [h]

theorem State.eventFrame.set (s : State) (f : F) (v : Nat) : s.eventFrame (s.set f v) := .of_eq rfl

theorem State.eventFrame.inc (s : State) (f : F) : s.eventFrame (s.inc f) := .of_eq rfl

theorem State.eventFrame.incW (s : State) (f : F) : s.eventFrame (s.incW f) := .of_eq rfl

theorem State.eventFrame.stampEv (s : State) (k : Nat) : s.eventFrame (s.stampEv k) := .of_eq rfl

theorem State.eventFrame.msix (s : State) (v : Nat) : s.eventFrame (s.emit (.msix v)) :=
  ⟨rfl, [.msix v], rfl, fun e he => ⟨v, by simpa using he⟩⟩

theorem msixNow_frame (s : State) (v : Nat) : s.eventFrame (msixNow s v) :=
  (((State.eventFrame.set _ _ _).trans (.set _ _ _)).trans (.incW _ _)).trans (.msix _ _)

theorem sendMsix_frame (s : State) (f v : Nat) : s.eventFrame (sendMsix s f v) := by
  unfold sendMsix
  split
  · exact .refl s
  · split
    · exact .of_eq rfl
    · exact msixNow_frame s v

theorem raiseNew_frame (s : State) (c : Cls) (k : Nat) : s.eventFrame (raiseNew s c k) := by
  unfold raiseNew
  split
  · exact .refl s
  · dsimp only
    have h := (State.eventFrame.set s FLT_NEW_NEW (s.get FLT_NEW_NEW ||| 2 ^ k)).trans (.stampEv _ (newK k))
    split
    · exact h.trans (sendMsix_frame _ _ _)
    · exact h

@[simp] theorem State.stampEv_srcs (s : State) (k : Nat) : (s.stampEv k).srcs = s.srcs := rfl

theorem msixNow_srcs (s : State) (v : Nat) : (msixNow s v).srcs = s.srcs := by
  unfold msixNow
  simp

theorem raiseNew_srcs (s : State) (c : Cls) (k : Nat) : (raiseNew s c k).srcs = s.srcs := by
  unfold raiseNew sendMsix
  dsimp only
  split
  · rfl
  · split
    · split
      · simp
      · split
        · simp
        · simp [msixNow_srcs]
    · simp

/-- Recording an event (R428, R429, R444) gives its source the event's class and changes no other source. -/
theorem record_srcs (s : State) (k bit : Nat) (c : Cls) :
    (record s k bit c).srcs = tset Cls.none s.srcs (srcK k bit) c := by
  unfold record
  generalize scopesOf k c = L
  suffices h : ∀ t : State, (L.foldl (fun t sc => raiseNew t c sc) t).srcs = t.srcs from h _
  induction L with
  | nil => exact fun _ => rfl
  | cons a r ih => exact fun t => (ih _).trans (raiseNew_srcs _ _ _)

theorem record_frame (s : State) (k bit : Nat) (c : Cls) : s.eventFrame (record s k bit c) := by
  unfold record
  generalize scopesOf k c = L
  have h0 : s.eventFrame (({ s with srcs := tset Cls.none s.srcs (srcK k bit) c } : State).stampEv (srcK k bit)) := .of_eq rfl
  refine h0.trans ?_
  suffices h : ∀ t : State, t.eventFrame (L.foldl (fun t sc => raiseNew t c sc) t) from h _
  induction L with
  | nil => exact fun t => .refl t
  | cons a r ih => exact fun t => (raiseNew_frame _ _ _).trans (ih _)

@[simp] theorem record_src (s : State) (k bit : Nat) (c : Cls) : (record s k bit c).src k bit = c := by
  rw [State.src, record_srcs, tget_tset_same]

theorem record_src_ne (s : State) {k bit k' bit' : Nat} (c : Cls) (h : srcK k' bit' ≠ srcK k bit) :
    (record s k bit c).src k' bit' = s.src k' bit' := by
  rw [State.src, record_srcs, tget_tset_ne _ _ _ _ h, State.src]

/-- An event that no reset masks and no reaction in progress takes in is admitted as it is (R428). -/
theorem note_admitted {s : State} {k bit : Nat} {c : Cls} (hc : s.collector = true) (hm : maskedBy s k bit = none)
    (hr : s.reacting k bit = false) : note s k bit c = record s k bit c := by
  unfold note admitEvent
  by_cases hf : c = .fatal
  · simp [hc, hf]
  · simp [hc, hf, hm, hr]

theorem mergeInto_frame (s : State) (k : Nat) : s.eventFrame (mergeInto s k) :=
  ((State.eventFrame.inc _ _).trans (.set _ _ _)).trans (.stampEv _ _)

theorem admitEvent_frame (s : State) (k bit : Nat) (f : Bool) : s.eventFrame (admitEvent s k bit f).2 := by
  unfold admitEvent
  split
  · exact .refl s
  · split
    · exact .refl s
    · split
      · dsimp only
        split
        · exact .refl s
        · exact mergeInto_frame _ _
      · split
        · exact mergeInto_frame _ _
        · exact .refl s

theorem note_frame (s : State) (k bit : Nat) (c : Cls) : s.eventFrame (note s k bit c) := by
  have h := admitEvent_frame s k bit (decide (c = .fatal))
  unfold note
  split
  · rename_i e
    rw [e] at h
    exact h.trans (record_frame _ _ _ _)
  · rename_i e
    rw [e] at h
    exact h

end Sys2Proof.Machine
end

