-- ==== Sys2Proof/WellFormed.lean ====
section
/-! DEFINITION. Which operands a command can carry on the hardware: sizes, address ranges and number ranges that the types of
Sys2Proof/Syntax.lean leave wider. `exec` gives every command a meaning, well-formed or not; statements may take these checks as
premises. -/

namespace Sys2Proof

/-- Source bits a unit's shell has (R431 to R435, R508): lanes 0 to 3, ports 0 to 6, port groups 0 to 5, slices 0 to 2, the device 0 to
15, compound shells 0 to 4. -/
def ShellId.sources : ShellId → Nat
  | .dev k => if k.val = 0 then 16 else if k.val < 5 then 3 else if k.val < 21 then 6 else if k.val < 149 then 7 else 4
  | .comp _ => 5

/-- The two fields of an SFD fit in their 16 and 8 bits. -/
def sfdOk (x : Sfd) : Bool := decide (x < 2 ^ 24)

/-- The SFDs of what leaves several ports: of ports there are, each an SFD. -/
def txSfdsOk (x : TxSfds) : Bool := x.all (fun e => decide (e.1 < 128) && sfdOk e.2)

/-- A frame header: at least the addresses and a type, no longer than L, which counts an FCS; a packet number of at most 64 bits. -/
def RxHdr.ok (h : RxHdr) : Bool :=
  decide (14 ≤ h.bytes.length) && decide (h.bytes.length + 4 ≤ h.len) && decide (h.sec.pn < 2 ^ 64) && sfdOk h.varRx &&
  txSfdsOk h.varTx

/-- Host memory writes lie in a 64-bit address space (R342). -/
def hostWritesOk (hw : HostWrites) : Bool := hw.all (fun e => decide (e.1 < 2 ^ 64))

/-- Numbers of an 8-byte (R27) signed time field fit in it. -/
def timeOk (x : Int) : Bool := decide (-(2 ^ 63) ≤ x ∧ x < 2 ^ 63)

/-- A keyID has 32 bits. -/
def tlvOk (x : Option TlvIn) : Bool := x.all (fun y => decide (y.keyId < 2 ^ 32))

/-- A PTP message's times fit in 8 bytes, its rate offset in 4, its packet number in 64 bits. -/
def PtpMsg.ok (m : PtpMsg) : Bool :=
  timeOk m.origin && timeOk m.corr && decide (-(2 ^ 31) ≤ m.cum ∧ m.cum < 2 ^ 31) && tlvOk m.tlv && decide (m.sec.pn < 2 ^ 64)

/-- A PTP message and its SFD fit. -/
def PtpRx.ok (x : PtpRx) : Bool := x.msg.ok && sfdOk x.varRx

/-- The well-formed commands. -/
def Instr.wellFormed : Instr → Bool
  | .registerWrite off size _ => decide (off < 0x7040000) && decide (1 ≤ size ∧ size ≤ 4096)
  | .sourceLatch u bit _ _ _ => decide (bit.val < u.sources)
  | .frameReceive _ h => h.ok
  | .transmitSelection _ x => sfdOk x
  | .timedReleaseLaunch _ x => sfdOk x
  | .carafeLaunch _ a b => sfdOk a && sfdOk b
  | .frameEnd _ _ e => tlvOk e.tlv
  | .copyReceive _ h x => h.ok && sfdOk x
  | .copyVerify _ _ e _ => tlvOk e.tlv
  | .carafeReturn _ h e => h.ok && tlvOk e.tlv
  | .coldStartFrame _ _ h x => h.ok && txSfdsOk x
  | .coldStartSend x => txSfdsOk x.varTx
  | .syncMessage _ _ m _ x => m.ok && sfdOk x
  | .followUp _ _ x => x.ok
  | .syncTransmit _ _ x => sfdOk x
  | .pdelayReq _ _ x => sfdOk x
  | .pdelayResp _ _ r x => timeOk r.t2 && timeOk r.t3 && x.ok
  | .pdelayReqReceive _ _ x => x.msg.ok && sfdOk x.varRx && sfdOk x.varTx
  | .dbTx _ _ x => hostWritesOk x.hw
  | .dbRx _ _ x => hostWritesOk x.hw
  | .dbJob _ _ x => hostWritesOk x.hw
  | .dbCmd _ _ x => hostWritesOk x.hw
  | .dmaKick _ x => hostWritesOk x.hw
  | .hs1 _ x => sfdOk x.varRx
  | .hs2 _ x => sfdOk x.varRx
  | .mkpdu _ _ _ sci sak x => decide (sci < 2 ^ 64) && sak.all (fun y => decide (y.key.length ≤ 32)) && sfdOk x.varRx
  | .spdmRequest src _ => src.all (fun q => decide (q.sec.pn < 2 ^ 64) && sfdOk q.varRx)
  | .identityDigest _ d => decide (d.length = 48)
  | .timeWord _ t1 t2 t3 t4 _ _ _ => timeOk t1 && timeOk t2 && timeOk t3 && timeOk t4
  | .faultSummary _ _ shell _ _ => decide (shell.length ≤ 16)
  | .uliconFrame _ cells _ bytes len _ _ _ _ _ _ => decide (0 < cells) && decide (bytes.length ≤ len)
  | .remoteStationData _ _ _ data => decide (data.length ≤ 1024)
  | _ => true

end Sys2Proof
end

