-- ==== Sys2Proof/Tests/Slice0.lean ====
section
/-! SUPPORT. The tests of the model: worked examples of the spec, the refusal of ill-formed commands, and for every statement a
named theorem in which the hypotheses of each of its clauses hold together. -/

namespace Sys2Proof.Tests

open Sys2Proof Sys2Proof.Machine

set_option linter.unusedVariables false
set_option Elab.async false

/-! ### Small states -/

/-- The state right after reset. -/
def R : State := State.reset
/-- The reset state with some fields set. -/
def S (l : List (F × Nat)) : State := l.foldl (fun t e => t.set e.1 e.2) State.reset
/-- A microword from its fields (R117): the comparison, the branch and the staging given. -/
def uwx (op dst src mask imm bm next cs stage : Nat) : Nat :=
  ((((((next * 8 + bm) * 16 + cs) * 8 + 7) * 2 * 2 + stage) * 128 + op) * 256 + dst) * 2 ^ 88 + src * 2 ^ 80 + mask * 2 ^ 64 + imm
/-- A microword that falls through to 0x1234. -/
def uw (op dst src mask imm : Nat) : Nat := uwx op dst src mask imm 1 0x1234 0 0
/-- A tick that is running. -/
def TK : Tick := { Tick.rst with run := true, cur := true }
/-- Ticks of one millisecond. -/
def TF : List (F × Nat) := [(GLB_TICK_PER_NS, 1000000)]
/-- An executing processor with an armed comparator. -/
def X : Sp := { Sp.rst with run := .exec, w := [(1, 5)], tcmp := [(3, ⟨7, true, true, false⟩)] }
/-- Processor 15 with microword `n` at its program counter. -/
def W (n : Nat) (l : List (F × Nat)) (x : Sp) : State :=
  { S (TF ++ l) with sps := [(15, x)], cs := [(csK 15 x.pc, withParity n)], tick := TK }
/-- A queued frame of 64 bytes. -/
def Q (id : Nat) : QFrame :=
  { id, bytes := List.replicate 60 0, len := 64, inPort := 1, seq := none, handle := none, tc := 0, vid := 1, pcp := 0, dei := false,
    tagged := false, arriving := false, held := false, cue := true, skip := false, due := false, t := 0, host := none,
    tsReq := false, keep := false, recovered := false, cutOk := false }
/-- A check of the next state. -/
def onNext (o : Host.Outcome State Fault Refusal) (f : State → Bool) : Bool := match o with | .next t => f t | _ => false
/-- The bytes of a data frame. -/
def FB : Bytes := beBytes 6 0x021122334455 ++ beBytes 6 0x02AABBCCDDEE ++ beBytes 2 0x0800 ++ List.replicate 46 0x55
/-- A received frame of `n` bytes. -/
def H (n : Nat) : RxHdr := ⟨FB, n, 0x1234, false, ⟨false, 0, 0, 0⟩, []⟩
/-- A frame under reception at port 127. -/
def RX : RxOpen :=
  { fr := { Q 5 with bytes := FB, cue := false, arriving := true }, port := 127, places := [(3, 2)], cts := [], dropped := false, blocked := false, toHost := false, stamps := [],
    stamped := false, marks := [], insts := [], handle := none, learn := false, trq := none, sec := none, ptp := none, vlanDrop := false, cut := none,
    late := false, varTx := [], came := 0 }
/-- The fields of a port that is up in mode 3. -/
def ULK (p : Nat) : List (F × Nat) := [(PRT_STAT_LINK p, 1), (PRT_GATE_OPEN p, 0xFF), (SHELL_PWR_CUR (shellBase (portK p)), 0), (PRT_VLAN_PVID p, 1), (PRT_STAT_STATE p, stUp), (PRT_STAT_CUR_MODE p, 3)]
/-- The state in which a port is up. -/
def LK (p : Nat) : State := S (ULK p)
/-- Ports 127 and 3 up; a stream entry and a forwarding entry lead from the one to the other. -/
def FW : State := { S (ULK 127 ++ ULK 3) with
  str := [(entK 5 1 0, 8), (entK 5 1 3, 0x80000000), (entK 5 1 8, 0x80000000), (entK 6 7 0, 0x02112233), (entK 6 7 1, 0x44550000), (entK 6 7 2, 0x80000003)] }
/-- A frame under transmission. -/
def T0 : TxSt := { id := 9, express := false, ct := false, startAt := 0, endAt := 10000, len := 500, fr := some (Q 9), again := false, wasCt := false }
/-- A frame under transmission for longer. -/
def T1 : TxSt := { T0 with endAt := 200000 }
/-- Port 127 with a preemptable frame in flight, 120 bytes of it sent. -/
def TP (l : List (F × Nat)) : State :=
  { S (ULK 127 ++ l) with now := 40, ports := [(127, { PortSt.rst with preempt := true, tx := some T0 })] }
/-- A carafe frame of carafe 63. -/
def CB (dirB : Bool) : Bytes :=
  beBytes 4 0x035A4200 ++ beBytes 2 0x1234 ++ beBytes 6 0x02AABBCCDDEE ++ beBytes 2 0xABCD ++ beBytes 2 0x1234 ++ beBytes 4 7 ++
    [0, 0x10 + (if dirB then 8 else 0), 4, 0] ++ beBytes 2 16 ++ List.replicate 28 0 ++ List.replicate 16 0x5A ++ [0, 0x7F, 0, 0]
/-- Carafe 63 with its ring ports. -/
def CFR : List (F × Nat) :=
  [(CRF_CTL_RUN, 1), (CRF_CTL_ETYPE, 0xABCD), (CRF_CAR_CFG_EN 63, 1), (CRF_CAR_CFG_CID 63, 0x1234), (CRF_CAR_CFG_DLEN 63, 16), (CRF_CAR_POS_NST 63, 4),
   (CRF_CAR_RING_A_IN 63, 127), (CRF_CAR_RING_A_OUT 63, 126), (CRF_CAR_RING_B_IN 63, 125), (CRF_CAR_RING_B_OUT 63, 124)]
/-- Station 62 of carafe 63. -/
def STN : List (F × Nat) :=
  [(CRF_ST_CFG_EN 62, 1), (CRF_ST_CFG_CAR 62, 63), (CRF_ST_CFG_POS 62, 3), (CRF_ST_SIPA_EN 62 3, 1), (CRF_ST_SIPA_OWNER 62 3, 2), (CRF_ST_SIPA_OFS 62 3, 4), (CRF_ST_SIPB_LEN 62 3, 4), (CRF_ST_GIVEUP_GIVEUP 62, 1)]
/-- The ports of carafe 63 up, within a cycle. -/
def CFP (l : List (F × Nat)) : State := { S (ULK 127 ++ ULK 126 ++ ULK 124 ++ CFR ++ l) with crf := ⟨true, 7, 0, false, none⟩, now := 100000 }
/-- The header of a received carafe frame. -/
def CH (d : Bool) : RxHdr := ⟨CB d, 78, 5, false, ⟨false, 0, 0, 0⟩, []⟩
/-- A copy under verification. -/
def CY (d : Bool) : CopySt :=
  { id := 77, car := 63, fate := .taken, bytes := CB d, uif := false, mism := false, sent := true, loop := none, broken := false, tick := 7,
    sec := none, rx := 5, cut := none, len := 78, sa := none }
/-- The bytes of a cold-start frame of instance 7. -/
def CSB (sync sender seq time : Nat) : Bytes :=
  beBytes 5 0x035A420100 ++ [5] ++ beBytes 6 0x02AABBCCDDEE ++ beBytes 2 0xABCD ++ beBytes 1 (16 + sync) ++ [5] ++ beBytes 1 sender ++ [1] ++
    beBytes 2 seq ++ beBytes 6 time ++ List.replicate 34 0
/-- The header of a received cold-start frame. -/
def CSH (sync sender seq time : Nat) : RxHdr := ⟨CSB sync sender seq time, 64, 5, false, ⟨false, 0, 0, 0⟩, []⟩
/-- Cold-start instance 7 in state `st`. -/
def CSF (st : Nat) (c : CstSt) : State :=
  { S (ULK 127 ++ [(CRF_CTL_ETYPE, 0xABCD), (SYN_CS_CTL_EN 7, 1), (SYN_CS_CTL_DOMAIN 7, 5), (SYN_CS_CTL_ID 7, 3), (SYN_CS_SLOT_SLOT 7, 10), (SYN_CS_PER_PERIOD 7, 100),
      (SYN_CS_PORTS_PORTS 7 3, 0x80000000), (SYN_CS_STAT_STATE 7, st)]) with csts := [(7, c)], now := 100000 }
/-- A PTP event message. -/
def PM : PtpMsg := ⟨256000, 512, false, 0, none, ⟨false, 0, 0, 0⟩⟩
/-- Time base 7 as a PTP follower on port 127. -/
def PT : List (F × Nat) := ULK 127 ++ [(TB_CTL_MODE 7, 2), (PTP_ROLE_B_EN 7, 1), (PTP_ROLE_SLAVE_B 7, 127), (PTP_MASTER_PORTS 7 3, 0x40000000), (PTP_MLD_MLD 7 1, 100)] ++ ULK 126
/-- A ring of 64 entries. -/
def RG : Ring := { Ring.none with created := true, fn := 63, loc := 5, log2 := 6, base := 0x10000, shadow := 0x20000, vec := 3 }
/-- One ring, of kind `k`. -/
def RS (k g : Nat) (r : Ring) : State := { R with rings := [(ringK k g, r)] }
/-- The eight words of a command-ring entry. -/
def EN (op kind loc w1 w3 w5 w6 : Nat) : List Nat := [op * 2 ^ 24 + kind * 65536 + loc, w1, 0, w3, 0, w5, w6, 2 ^ 31]
/-- What virtual function 63 may use. -/
def CMDF : List (F × Nat) := [(GLB_FN_TX_TBASE 63, 4000), (GLB_FN_TX_TN 63, 10), (GLB_FN_VEC_VN 63, 8)]
/-- A command ring of virtual function 63 with one entry fetched. -/
def CM (e : List Nat) (rest : List (Nat × Ring)) : State :=
  { S CMDF with rings := rest ++ [(ringK 4 63, { RG with loc := 0, tail := 1, copies := [(0, e)] })] }
/-- The command ring of the physical function with one entry fetched. -/
def CM0 (e : List Nat) : State :=
  { S CMDF with rings := [(ringK 4 0, { RG with fn := 0, loc := 0, tail := 1, copies := [(0, e)] })] }
/-- Channel 63 with a job ring. -/
def DM (x : DmaCh) : State :=
  { S [(DMA_CH_STAT_INDEX 63, 65535)] with dma := [(63, x)], dmaLast := 62, rings := [(ringK 2 63, { RG with tail := 2 })] }
/-- A fetched job of 100 bytes. -/
def JB : DmaCh := { DmaCh.idle with job := true, words := [0x1000, 0, 0x2000, 0, 100, 0, 0, 2 ^ 31] }
/-- A mailbox command waiting for execution. -/
def MB (cmd len : Nat) : State := S [(SEC_MB_STAT_BUSY, 1), (SEC_MB_CTL_CMD, cmd), (SEC_MB_CTL_LEN, len)]
/-- A boot stream of words at its place in the staging window. -/
def BIs (l : List (F × Nat)) (ws : List Nat) : State :=
  { (S l).putBytes (0x4000000 + 5528) (ws.flatMap (leBytes 4)) with boot := ⟨0x4000000, 5528, 0, none, (0, [])⟩ }
/-- A boot run at the front of a stream. -/
def BI (ws : List Nat) : State := BIs [(BOOT_STATE_STATE, 2)] ws
/-- Port 127 as an Ulicon port of compound node 3, joined, member 1. -/
def UF : List (F × Nat) :=
  ULK 127 ++ [(PRT_ULC_EN 127, 1), (PRT_ULC_DEPTH 127, 3), (PRT_ULC_PEER 127, 2), (PRT_ULC_STAT_UP 127, 1), (ULC_CN_CTL_EN 3, 1), (ULC_CN_CTL_ME 3, 1), (ULC_CN_STAT_LEADER 3, 2)]
/-- Member 2 of the compound, as heard. -/
def UM (m : UlcMem) : State := { S UF with ulc := { UlcSt.rst with mem := [(4 * 3 + 2, m)] } }

/-- What the checks of a PTP message at port `p` leave of a state. -/
def ptpU (s : State) (p : Port) : State := (ptpHears s (7 : TbIx).val p.val 5 PM).2
theorem ptpU_of {s : State} {p : Port} {b : Bool} (h : (ptpHears s (7 : TbIx).val p.val 5 PM).1 = b) :
    ptpHears s (7 : TbIx).val p.val 5 PM = (b, ptpU s p) := Prod.ext h rfl
/-- What the checks of a frame at port 127 leave of a state. -/
def lineU (s : State) (b : Bytes) : State := (lineTakes s (127 : Port).val b 5 ⟨false, 0, 0, 0⟩).2
theorem lineU_of {s : State} {b : Bytes} (h : (lineTakes s (127 : Port).val b 5 ⟨false, 0, 0, 0⟩).1 = true) :
    lineTakes s (127 : Port).val b 5 ⟨false, 0, 0, 0⟩ = (true, lineU s b) := Prod.ext h rfl
/-- A short handshake message. -/
def HB : SecBody := ⟨1, 3, [1, 2, 3, 4], 5⟩
/-- What the checks of that message, of type `typ`, leave of a state. -/
def hsU (s : State) (typ : Nat) : State := (hsTakes s (127 : Port).val typ HB).2
theorem hsU_of {s : State} {typ : Nat} {pay : Bytes} (h : (hsTakes s (127 : Port).val typ HB).1 = some pay) :
    hsTakes s (127 : Port).val typ HB = (some pay, hsU s typ) := Prod.ext h rfl
/-! ### The word of a table row; ill-formed commands -/

/-- spec/opcode_table.json gives no row any bits: no word spells a command, and `withFetchWord` changes nothing. -/
theorem test_no_word_spells_a_command : decodeTableWord 64 5 = none ∧ State.withFetchWord R 64 5 = R := ⟨rfl, rfl⟩

/-- Each check of `wellFormed` refuses an ill-formed command. -/
theorem test_ill_formed_refused :
    Instr.wellFormed (.registerWrite 0x7040000 4 .read) = false ∧ Instr.wellFormed (.registerWrite 0 4097 (.write 0)) = false ∧
    Instr.wellFormed (.sourceLatch (.dev 149) 4 .pulse .corrected 0) = false ∧
    Instr.wellFormed (.frameReceive 0 ⟨List.replicate 13 0, 64, 0, false, ⟨false, 0, 0, 0⟩, []⟩) = false ∧
    Instr.wellFormed (.frameReceive 0 ⟨FB, 64, 2 ^ 24, false, ⟨false, 0, 0, 0⟩, []⟩) = false ∧
    Instr.wellFormed (.transmitSelection 0 (2 ^ 24)) = false ∧ Instr.wellFormed (.timedReleaseLaunch 0 (2 ^ 24)) = false ∧
    Instr.wellFormed (.carafeLaunch 0 0 (2 ^ 24)) = false ∧ Instr.wellFormed (.coldStartSend ⟨0, [(5, 2 ^ 24)]⟩) = false ∧
    Instr.wellFormed (.copyReceive 0 ⟨FB, 63, 0, false, ⟨false, 0, 0, 0⟩, []⟩ 0) = false ∧
    Instr.wellFormed (.carafeReturn 0 ⟨FB, 64, 0, false, ⟨true, 0, 0, 2 ^ 64⟩, []⟩ ⟨true, true, none, false⟩) = false ∧
    Instr.wellFormed (.coldStartFrame 0 0 (H 64) [(128, 0)]) = false ∧
    Instr.wellFormed (.syncMessage 0 0 { PM with origin := 2 ^ 63 } true 0) = false ∧
    Instr.wellFormed (.followUp 0 0 ⟨{ PM with corr := -(2 ^ 63) - 1 }, 0⟩) = false ∧
    Instr.wellFormed (.pdelayReqReceive 0 0 ⟨{ PM with cum := 2 ^ 31 }, 0, 0⟩) = false ∧
    Instr.wellFormed (.pdelayResp 0 0 ⟨0, 2 ^ 63⟩ ⟨PM, 0⟩) = false ∧
    Instr.wellFormed (.frameReceive 0 { H 64 with varTx := [(3, 2 ^ 24)] }) = false ∧
    Instr.wellFormed (.frameEnd 0 false ⟨true, true, some ⟨2 ^ 32, true⟩, false⟩) = false ∧
    Instr.wellFormed (.copyVerify 0 false ⟨true, true, some ⟨2 ^ 32, true⟩, false⟩ 64) = false ∧
    Instr.wellFormed (.followUp 0 0 ⟨{ PM with tlv := some ⟨2 ^ 32, true⟩ }, 0⟩) = false ∧
    Instr.wellFormed (.syncMessage 0 0 { PM with sec := ⟨true, 0, 0, 2 ^ 64⟩ } true 0) = false ∧
    Instr.wellFormed (.syncTransmit 0 0 (2 ^ 24)) = false ∧ Instr.wellFormed (.pdelayReq 0 0 (2 ^ 24)) = false := by decide +kernel

/-- The same for host memory, keys, reports of members and frames that cross. -/
theorem test_ill_formed_data_refused :
    Instr.wellFormed (.dbTx 0 0 ⟨[(2 ^ 64, 0)], none⟩) = false ∧ Instr.wellFormed (.dbRx 0 0 ⟨[(2 ^ 64, 0)], none⟩) = false ∧
    Instr.wellFormed (.dbJob 0 0 ⟨[(2 ^ 64, 0)], none⟩) = false ∧ Instr.wellFormed (.dbCmd 0 0 ⟨[(2 ^ 64, 0)], none⟩) = false ∧
    Instr.wellFormed (.dmaKick 0 ⟨[(2 ^ 64, 0)], none⟩) = false ∧ Instr.wellFormed (.mkpdu 0 0 0 (2 ^ 64) none ⟨true, 0⟩) = false ∧
    Instr.wellFormed (.mkpdu 0 0 0 0 none ⟨true, 2 ^ 24⟩) = false ∧ Instr.wellFormed (.mkpdu 0 0 0 0 (some ⟨0, List.replicate 33 0⟩) ⟨true, 0⟩) = false ∧
    Instr.wellFormed (.hs1 0 ⟨1, 0, [], 2 ^ 24⟩) = false ∧ Instr.wellFormed (.hs2 0 ⟨1, 0, [], 2 ^ 24⟩) = false ∧
    Instr.wellFormed (.spdmRequest (some ⟨0, 0, 1, ⟨false, 0, 0, 0⟩, 2 ^ 24⟩) []) = false ∧
    Instr.wellFormed (.spdmRequest (some ⟨0, 0, 1, ⟨true, 0, 0, 2 ^ 64⟩, 0⟩) []) = false ∧
    Instr.wellFormed (.identityDigest 0 [0]) = false ∧ Instr.wellFormed (.timeWord 0 0 0 0 (2 ^ 63) 0 0 true) = false ∧
    Instr.wellFormed (.faultSummary 0 ⟨0, 0, false⟩ (List.replicate 17 0) 0 0) = false ∧
    Instr.wellFormed (.uliconFrame 0 0 none [] 64 ⟨0, 0, none, false, false⟩ 0 false false false 0) = false ∧
    Instr.wellFormed (.remoteStationData 0 none 0 (List.replicate 1025 0)) = false := by decide +kernel

/-- Well-formed commands pass. -/
theorem test_well_formed_passes :
    Instr.wellFormed (.registerWrite 0x703FFFF 8 (.write 0)) = true ∧
    Instr.wellFormed (.sourceLatch (.dev 149) 3 .pulse .corrected 0) = true ∧
    Instr.wellFormed (.frameReceive 0 (H 64)) = true ∧ Instr.wellFormed (.pdelayReqReceive 0 0 ⟨PM, 0xFFFFFF, 0⟩) = true := by
  decide +kernel

/-! ### Worked examples of the spec -/

/-- R9: lane 17 is unit 0x1011; R11 and the example of 14_faults.md: lane 133 is shell 282 at 0x14680, port 33 shell 54 at
0x10D80; R13: its place among its parents' children. -/
theorem test_unit_numbers :
    unitNum (laneK 17) = 0x1011 ∧ laneK 133 = 282 ∧ shellBase 282 = 0x14680 ∧ unitNum (portK 33) = 0x2021 ∧
    shellBase (portK 33) = 0x10D80 ∧ parentOf (laneK 133) = portK 33 := by decide +kernel

/-- R36: the three ticks of a cycle of 625,000 ns begin at 0, P and 2P, the next cycle's first at 625,000 ns. -/
theorem test_tick_cycle :
    (List.range 4).map (fun (k : Nat) => tickStart (S [(GLB_TICK_PER_NS, 208333), (GLB_TICK_FRAC_FRAC, 0x5555), (GLB_TICK_CTL_CYCLE, 3),
      (GLB_TICK_CYCNS_CYCNS, 625000)]) (k : Int)) = [0, 208333 * 65536 + 21845, 2 * (208333 * 65536 + 21845), 625000 * 65536] := by
  decide +kernel

/-- R39, the example of PMS-A: slot 12 in tick 5,001, the PUBLISH at 190,000 ns with a buffer ready: OVF counts, buffer 0 is
ready, the host writes buffer 2. -/
theorem test_publish_over_ready :
    onNext (exec (.publish 12) { S [(CRF_PI_SLOT_EN 12, 1), (CRF_PI_SLOT_WR 12, 0)] with pi := [(12, { PiSt.rst with dev := 1, rdy := some 2 })] })
      (fun t => (t.slot 12).rdy == some 0 && t.get (CRF_PI_SLOT_WR 12) == 2 && t.get (CRF_PI_SLOT_OVF 12) == 1 && (t.slot 12).dev == 1) = true := by
  decide +kernel

/-- The same example: at tick 5,002 the flip makes buffer 0 current and sets NEW; at 5,003 the slot is stale. -/
theorem test_flip_then_stale :
    (let t := flipSlot { S [(CRF_PI_SLOT_EN 12, 1), (CRF_PI_SLOT_WR 12, 2)] with pi := [(12, { PiSt.rst with dev := 1, rdy := some 0 })] } 12
     let u := flipSlot t 12
     (t.slot 12).dev = 0 ∧ (t.slot 12).rdy = none ∧ t.get (CRF_PI_SLOT_NEW 12) = 1 ∧
       (u.slot 12).dev = 0 ∧ u.get (CRF_PI_SLOT_STALE 12) = 1 ∧ u.get (CRF_PI_SLOT_NEW 12) = 0) := by decide +kernel

/-- R279: TB_INC_LO = 0xFFCA_5026, then TB_INC_HI = 0x00FF: time base 2 counts with 0x00FF_FFCA_5026. -/
theorem test_inc_of_a_fast_reference :
    onNext (exec (.tbIncHi 2 0xFF) (S [(TB_INC_LO_INC_LO 2, 0xFFCA5026)])) (fun t => (t.tb 2).inc == 0xFFFFCA5026) = true := by
  decide +kernel

/-- R49, mode 2: 13.600 ns and 8.400 ns in 1/256 ns. -/
theorem test_fixed_parts : ps256 (modeFix 2).1 = 3482 ∧ ps256 (modeFix 2).2 = 2150 := by decide +kernel

/-- R118: even parity over each group of 16 data bits; a flipped data bit fails its group alone. -/
theorem test_parity :
    parityOf (2 ^ 127 + 2 ^ 16 + 1) = 0x83 ∧ csSyndrome (withParity 12345) = 0 ∧
    csSyndrome (withParity 12345 ^^^ BitVec.ofNat 136 (2 ^ 40)) = 4 := by decide +kernel

/-- R121 and its example: NEXT = 0x1048, CSEL = 13, tick start and sync round start set: the branch goes to 0x104D. -/
theorem test_multiway_branch :
    onNext (exec (.nop 15) (W (uwx 0 0 0 0 0 2 0x1048 13 0) [] X)) (fun t => (t.sp 15).pc == 0x104D) = true := by decide +kernel

/-- R343 and its example: with 1,024 entries, head 4 and tail 0x404 the ring is full, entry 0xFFF0 lies in slot 1,008, and a
doorbell of 0x405 halts the host interface. -/
theorem test_ring_numbers :
    (let r : Ring := { RG with log2 := 10, head := 4, tail := 0x404 }
     r.fill = 1024 ∧ r.slot 0xFFF0 = r.base + 32 * 1008 ∧
     onNext (exec (.dbTx 63 0x04050005 ⟨[], none⟩) (RS 0 9 r)) (fun t => t.halted) = true ∧
     onNext (exec (.dbTx 63 0x04040005 ⟨[], none⟩) (RS 0 9 r)) (fun t => !t.halted) = true) := by decide +kernel

/-- The example of 02_lanes_and_ports.md: port 33 in mode 10 with the standard table entry; lane 133 becomes severe (its sixteenth
bad sample), and the port takes lanes 134 and 135 in mode 8; 14_faults.md: lane 133's SHELL_STAT is 0x0200_0001. -/
theorem test_severe_lane_retreats :
    onNext (exec (.eyeMarginSample 133 0 0 0)
      { S ([(PRT_STAT_LINK 33, 1), (PRT_STAT_STATE 33, stUp), (PRT_STAT_CUR_MODE 33, 10), (PRT_STAT_ACT_LANES 33, 15), (PRT_MODE_RTR_EN 33, 1),
            (PRT_RTR_VALID 33 0, 1), (PRT_RTR_FROM 33 0, 10), (PRT_RTR_TO 33 0, 8), (PRT_RTR_SETA 33 0, 3), (PRT_RTR_SETB 33 0, 12),
            (LN_WATCH_VMIN 133, 1), (FLT_WATCH_N 0, 16), (SHELL_PWR_CUR (shellBase (laneK 133)), 0), (SHELL_PWR_CUR (shellBase (portK 33)), 0)] ++
            (List.range 4).map (fun i => (LN_STAT_ACTIVE (132 + i), 1))) with
        lanes := (List.range 4).map (fun i => (132 + i, { LaneSt.rst with sampled := true, healthy := true }))
        watch := [(watchK 0 133, ⟨15, 0, 0⟩)] })
      (fun t => t.get (PRT_STAT_CUR_MODE 33) == 8 && t.get (PRT_STAT_ACT_LANES 33) == 12 &&
        barRead t (shellBase (laneK 133) + 4) == 0x02000001) = true := by decide +kernel

/-- R27, R29: a misaligned read of the host answers all ones, and GLB_ACC_ERR holds it as a read. -/
theorem test_refused_read :
    onNext (exec (.registerWrite 6 4 .read) R) (fun t => t.out == [.reply 203 [0xFF, 0xFF, 0xFF, 0xFF]] &&
      t.get GLB_ACC_ERR_VALID == 1 && t.get GLB_ACC_ERR_WRITE == 0 && t.get GLB_ACC_ERR_OFFSET == 6) = true := by decide +kernel

/-! ### The hypotheses of the statements hold together -/

/-- The hypotheses of StepRunsFront hold together. -/
theorem witness_StepRunsFront :
    (∃ c : Instr, ∃ r : List Instr, ∃ s : State, s.pending = c :: r) ∧
    (∃ s : State, s.pending = []) :=
  ⟨⟨.snapshot, [.refLost], { R with pending := [.snapshot, .refLost] }, by decide +kernel⟩,
   ⟨R, by decide +kernel⟩⟩

/-- The hypotheses of FatalEndsAtPowerOnOnly hold together. -/
theorem witness_FatalEndsAtPowerOnOnly :
    (∃ s : State, ∃ t : State, s.fatal = true ∧ ((∀ straps ref r, s.pending ≠ .powerOnReset straps ref :: r)) ∧ step s = .next t) :=
  ⟨{ R with fatal := true, pending := [.snapshot] }, { R with fatal := true, pending := [] }, by decide +kernel, (by intro _ _ _ h; cases h), (by rfl)⟩

/-- The hypotheses of FatalStaysQuiet hold together. -/
theorem witness_FatalStaysQuiet :
    (∃ s : State, ∃ t : State, s.fatalQuiet ∧ ((∀ straps ref r, s.pending ≠ .powerOnReset straps ref :: r)) ∧ step s = .next t) :=
  ⟨{ R with fatal := true, pending := [.idcode] }, { R with fatal := true, pending := [], out := [.reply 201 [0x67, 0x8D, 0x12, 0xB5]] }, by decide +kernel, (by intro _ _ _ h; cases h), (by rfl)⟩

/-- The hypotheses of ResetIsDark hold together. -/
theorem witness_ResetIsDark :
    (∃ n, n < 9) ∧
    (∃ p, p < 128) ∧
    (∃ k, k < 661) :=
  ⟨⟨8, by decide +kernel⟩,
   ⟨127, by decide +kernel⟩,
   ⟨660, by decide +kernel⟩⟩

/-- The hypotheses of PowerOnReset hold together. -/
theorem witness_PowerOnReset :
    (∃ straps : Fin 4, ∃ ref : Fin 3, ∃ s : State, ref ≠ 0) :=
  ⟨3, 2, { R with fatal := true, now := 7 }, by decide +kernel⟩

/-- The hypotheses of WarmDeviceReset hold together. -/
theorem witness_WarmDeviceReset :
    (∃ cause : WrstCause, ∃ ramOk : Bool, ∃ s : State, s.fatal = false ∧ s.get BOOT_STATE_AUTO = 0 ∧ s.get (SHELL_LIVE_LIVE (shellBase 0)) = 0) ∧
    (∃ cause : WrstCause, ∃ ramOk : Bool, ∃ s : State, s.fatal = true) :=
  ⟨⟨.pin, true, S [(BOOT_STATE_STATE, 5), (BOOT_STATE_RETAINED, 1)], by decide +kernel⟩,
   ⟨.bootCtl, true, { R with fatal := true }, by decide +kernel⟩⟩

/-- The hypotheses of HostInterfaceResets hold together. -/
theorem witness_HostInterfaceResets :
    (∃ cause : HirCause, ∃ s : State, s.fatal = false) ∧
    (∃ cause : HirCause, ∃ s : State, s.fatal = true) ∧
    (∃ f : Fn, ∃ s : State, f ≠ 0 ∧ s.fatal = false) ∧
    (∃ f : Fn, ∃ s : State, s.fatal = true) :=
  ⟨⟨(.linkDown ⟨3, .x8⟩), S [(BOOT_STATUS_HIHALT, 1)], by decide +kernel⟩,
   ⟨(.perst ⟨4, .x16⟩), { R with fatal := true }, by decide +kernel⟩,
   ⟨63, { R with rings := [(5, { Ring.none with created := true, fn := 63 }), (6, { Ring.none with created := true, fn := 1 })] }, by decide +kernel⟩,
   ⟨63, { R with fatal := true }, by decide +kernel⟩⟩

/-- The hypotheses of RegisterWriteByAccessCode hold together. -/
theorem witness_RegisterWriteByAccessCode :
    (∃ off : Nat, ∃ data : BitVec 64, ∃ r : RegDesc, ∃ s : State, s.fatal = false ∧ 0x100000 ≤ off ∧ off < 0x300000 ∧ off % 4 = 0 ∧ regDesc off = some r) :=
  ⟨0x100000, 0xFFFFFFFF, ((regDesc 0x100000).getD ⟨0,0,0,0,0,0,0,0,0,0,0⟩), S [], by decide +kernel⟩

/-- The hypotheses of RegisterWriteAccessRules hold together. -/
theorem witness_RegisterWriteAccessRules :
    (∃ off : Nat, ∃ size : Nat, ∃ data : BitVec 64, ∃ s : State, off < 0x4000000 ∧ ((¬ (size = 4 ∨ size = 8) ∨ off % size ≠ 0)) ∧ s.fatal = false ∧ s.get GLB_ACC_ERR_VALID = 0) ∧
    (∃ off : Nat, ∃ size : Nat, ∃ data : BitVec 64, ∃ s : State, off < 0x4000000 ∧ ((¬ (size = 4 ∨ size = 8) ∨ off % size ≠ 0)) ∧ s.get GLB_ACC_ERR_VALID = 1) ∧
    (∃ off : Nat, ∃ data : BitVec 64, ∃ s : State, ∃ u : State, (off < 0x4000000 ∧ off % 8 = 0) ∧ exec (.registerWrite off 4 (.write (data % 0x100000000))) s = .next u) ∧
    (∃ off : Nat, ∃ size : Nat, ∃ data : BitVec 64, ∃ s : State, off < 0x4000000 ∧ s.fatal = true) ∧
    (∃ off : Nat, ∃ s : State, 0x200000 ≤ off ∧ off < 0x300000 ∧ off % 4 = 0) ∧
    (∃ off : Nat, ∃ s : State, off < 0x4000000 ∧ off % 4 ≠ 0 ∧ s.fatal = false ∧ s.get GLB_ACC_ERR_VALID = 0) :=
  ⟨⟨0x3FFFFFD, 2, 0xFFFF, R, by decide +kernel⟩,
   ⟨0x3FFFFFD, 4, 0xFFFF, S [(GLB_ACC_ERR_VALID, 1)], by decide +kernel⟩,
   ⟨0x3FFFFF8, 0xFFFFFFFFFFFFFFFF, R, R, by decide +kernel, (by rfl)⟩,
   ⟨0x100, 4, 5, { R with fatal := true }, by decide +kernel⟩,
   ⟨0x2FFFFC, S [(BOOT_STATE_STATE, 3)], by decide +kernel⟩,
   ⟨0x3FFFFFD, R, by decide +kernel⟩⟩

/-- The hypotheses of StagingWindowWrites hold together. -/
theorem witness_StagingWindowWrites :
    (∃ o : Nat, ∃ size : Nat, ∃ data : BitVec 64, ∃ s : State, o < 0x1000000 ∧ size ≤ 8 ∧ ((s.get BOOT_STATE_STATE = 0 ∨ s.get BOOT_STATE_STATE = 5 ∨ s.get BOOT_STATE_STATE = 6))) ∧
    (∃ o : Nat, ∃ size : Nat, ∃ data : BitVec 64, ∃ s : State, o < 0x1000000 ∧ 1 ≤ s.get BOOT_STATE_STATE ∧ s.get BOOT_STATE_STATE ≤ 4) :=
  ⟨⟨0xFFFFFF, 1, 0xAB, S [(BOOT_STATE_STATE, 6)], by decide +kernel⟩,
   ⟨0xFFFFF0, 8, 0xAB, S [(BOOT_STATE_STATE, 4)], by decide +kernel⟩⟩

/-- The hypotheses of ShellStatWriteClears hold together. -/
theorem witness_ShellStatWriteClears :
    (∃ u : ShellId, ∃ v : Word, ∃ s : State, s.fatal = false ∧ s.get (SHELL_LIVE_LIVE (shellBase (shellKey u))) = 0) ∧
    (∃ u : ShellId, ∃ v : Word, ∃ s : State, s.fatal = true) :=
  ⟨⟨.dev 660, 0x0800FFFF, { S [(SHELL_STAT_MERGED (shellBase 660), 1)] with srcs := [(srcK 660 0, .corr), (srcK 660 1, .cont)] }, by decide +kernel⟩,
   ⟨.comp 3, 1, { R with fatal := true }, by decide +kernel⟩⟩

/-- The hypotheses of UnitResetStarts hold together. -/
theorem witness_UnitResetStarts :
    (∃ k : Fin 661, ∃ s : State, s.fatal = false ∧ (s.rst k.val).running = false) ∧
    (∃ k : Fin 661, ∃ s : State, (s.rst k.val).running = true) ∧
    (∃ c : Fin 4, ∃ s : State, s.fatal = false ∧ (s.rst 0).running = false) ∧
    (∃ u : ShellId, ∃ s : State, s.fatal = true) ∧
    (∃ l : Lane, ∃ s : State, s.fatal = false ∧ (s.rst (laneK l.val)).running = false ∧ s.get (SHELL_LIVE_LIVE (shellBase (laneK l.val))) = 0 ∧ latchedNow s (laneK l.val) = [] ∧ severeNow s (fun e => e == watchK 0 l.val) = []) :=
  ⟨⟨0, R, by decide +kernel⟩,
   ⟨660, { R with resets := [(660, ⟨true, true, none, 0⟩)] }, by decide +kernel⟩,
   ⟨3, R, by decide +kernel⟩,
   ⟨.comp 3, { R with fatal := true }, by decide +kernel⟩,
   ⟨511, R, by decide +kernel⟩⟩

/-- The hypotheses of UnitResetEnds hold together. -/
theorem witness_UnitResetEnds :
    (∃ k : Fin 661, ∃ s : State, s.fatal = false ∧ (s.rst k.val).running = true ∧ ((∀ u ∈ unitsOf k.val, s.get (SHELL_RST_SHADOW (shellBase u)) ≠ 0))) ∧
    (∃ c : Fin 4, ∃ s : State, s.fatal = false ∧ (s.rst (compK c.val)).running = true ∧ (s.rst (compK c.val)).relatch = none) ∧
    (∃ u : ShellId, ∃ s : State, s.fatal = false ∧ (s.rst (shellKey u)).running = false) ∧
    (∃ u : ShellId, ∃ s : State, s.fatal = false ∧ (s.rst (shellKey u)).active = true ∧ (s.rst (shellKey u)).running = false ∧ (s.rst (shellKey u)).shadowEnd ≤ s.now ∧ ((∀ k ∈ unitsOf (shellKey u), s.get (SHELL_LIVE_LIVE (shellBase k)) = 0)) ∧ ((∀ e ∈ besides (shellKey u), (s.get (SHELL_LIVE_LIVE (shellBase e.1))).testBit e.2 = false))) ∧
    (∃ u : ShellId, ∃ s : State, s.now < (s.rst (shellKey u)).shadowEnd) :=
  ⟨⟨660, { R with resets := [(660, ⟨true, true, none, 0⟩)] }, by decide +kernel⟩,
   ⟨3, { R with resets := [(703, ⟨true, true, none, 0⟩)] }, by decide +kernel⟩,
   ⟨.dev 660, R, by decide +kernel⟩,
   ⟨.dev 660, { R with resets := [(660, ⟨true, false, none, 5⟩)], now := 5 }, by decide +kernel⟩,
   ⟨.comp 0, { R with resets := [(700, ⟨true, false, none, 5⟩)], now := 4 }, by decide +kernel⟩⟩

/-- The hypotheses of DeviceSourceLatches hold together. -/
theorem witness_DeviceSourceLatches :
    (∃ bit : Fin 16, ∃ sev : Sev, ∃ info : Nat, ∃ s : State, bit.val ∈ [6, 7, 8, 10, 11, 12, 13, 15] ∧ s.collector = true ∧ maskedBy s 0 bit.val = none ∧ s.reacting 0 bit.val = false) ∧
    (∃ bit : Fin 16, ∃ sev : Sev, ∃ info : Nat, ∃ r : Nat, ∃ s : State, bit.val ∈ [6, 7, 8, 10, 11, 12, 13, 15] ∧ s.collector = true ∧ maskedBy s 0 bit.val = some r ∧ s.get (SHELL_RST_SHADOW (shellBase r)) ≠ 0) :=
  ⟨⟨15, .corrected, 0, { R with collector := true }, by decide +kernel⟩,
   ⟨15, .corrected, 0, 0, { R with collector := true, resets := [(0, ⟨true, false, none, 5⟩)] }, by decide +kernel⟩⟩

/-- The hypotheses of FatalSourceEntersFatal hold together. -/
theorem witness_FatalSourceEntersFatal :
    (∃ bit : Fin 16, ∃ sev : Sev, ∃ info : Nat, ∃ s : State, bit.val ≤ 5 ∧ s.collector = true) :=
  ⟨5, .corrected, 0, { R with collector := true }, by decide +kernel⟩

/-- The hypotheses of CollectorCommands hold together. -/
theorem witness_CollectorCommands :
    (∃ k : Fin 6, ∃ v : Word, ∃ s : State, s.fatal = false ∧ severeNow s (fun e => e / 4096 == k.val) = []) ∧
    (∃ v : Word, ∃ i : Nat, ∃ s : State, s.fatal = false ∧ s.watch = [(watchK 5 i, ⟨0, 1, s.now⟩)] ∧ i < 128) ∧
    (∃ x : BitVec 16, ∃ s : State, tempOf x < 16 * (s.get FLT_TEMP_WARN : Int) - 16 * (s.get FLT_TEMP_HYST : Int) ∧ tempOf x < 2000) ∧
    (∃ x : BitVec 16, ∃ s : State, 16 * (s.get FLT_TEMP_WARN : Int) ≤ tempOf x ∧ tempOf x < 2000 ∧ s.collector = true ∧ maskedBy s 0 6 = none ∧ s.reacting 0 6 = false ∧ (s.get (SHELL_LIVE_LIVE (shellBase 0))).testBit 6 = false) ∧
    (∃ x : BitVec 16, ∃ s : State, 16 * (s.get FLT_TEMP_WARN : Int) ≤ tempOf x ∧ tempOf x < 2000 ∧ (s.get (SHELL_LIVE_LIVE (shellBase 0))).testBit 6 = true) ∧
    (∃ x : BitVec 16, ∃ s : State, 2000 ≤ tempOf x ∧ s.collector = true) :=
  ⟨⟨5, 0xFF00FFFF, { R with watch := [(watchK 5 3, ⟨2, 0, 0⟩)] }, by decide +kernel⟩,
   ⟨0xFF00FFFF, 127, { R with watch := [(watchK 5 127, ⟨0, 1, 7⟩)], now := 7 }, by decide +kernel⟩,
   ⟨0x0500, { R with collector := true }, by decide +kernel⟩,
   ⟨1760, { R with collector := true }, by decide +kernel⟩,
   ⟨1760, { S [(SHELL_LIVE_LIVE (shellBase 0), 64)] with collector := true }, by decide +kernel⟩,
   ⟨2000, { R with collector := true }, by decide +kernel⟩⟩

/-- The hypotheses of TickBoundaryStartsTick hold together. -/
theorem witness_TickBoundaryStartsTick :
    (∃ s : State, s.fatal = false ∧ s.tick.run = true ∧ isPast48 s.tick.next (s.tbStamp s.tickTb) = true ∧ ((∀ k < 3, partDone s k = true)) ∧ ((∀ c < 4, cnOn s c = false)) ∧ ((∀ g < 16, cuttable s g = false))) ∧
    (∃ s : State, ((s.tick.run = false ∨ isPast48 s.tick.next (s.tbStamp s.tickTb) = false))) :=
  ⟨⟨{ R with tick := ⟨true, 0, 7, 3, 0, true, 0, false, false, [0, 1, 2], 0⟩ }, by decide +kernel⟩,
   ⟨R, by decide +kernel⟩⟩

/-- The hypotheses of OverrunCutsOff hold together. -/
theorem witness_OverrunCutsOff :
    (∃ g : Grp, ∃ s : State, s.fatal = false ∧ s.tick.cur = true ∧ beforeC s = false ∧ cuttable s g.val = true ∧ maskedBy s (grpK g.val) 0 = none ∧ s.reacting (grpK g.val) 0 = false ∧ s.collector = true ∧ 2 ≤ watchN s 4 ∧ (tget WatchSt.zero s.watch (watchK 4 g.val)).count = 0 ∧ curPs s (grpK g.val) < 3 ∧ ((∀ u, (s.sp g.val).undoCommit = some u → u.1 ≠ s.now))) ∧
    (∃ g : Grp, ∃ s : State, ((beforeC s = true ∨ (s.sp g.val).run = .waitTick))) :=
  ⟨⟨15, { S [(FLT_WATCH_N 4, 2), (GLB_TICK_PER_NS, 1000000), (SHELL_PWR_CUR (shellBase (grpK 15)), 2)] with
        tbs := [(0, { Tb.rst with acc := 999950 * 2 ^ 40 })]
        tick := { Tick.rst with run := true, cur := true }, collector := true
        sps := [(15, { Sp.rst with run := .exec, stack := [0x1001], stage := [(.gate 3, 1)] })] }, by decide +kernel⟩,
   ⟨15, { R with sps := [(15, { Sp.rst with run := .waitTick })] }, by decide +kernel⟩⟩

/-- The hypotheses of ImageSlotsFlip hold together. -/
theorem witness_ImageSlotsFlip :
    (∃ s : State, ∃ n : Nat, (n < 256 ∧ partDone s 0 = false ∧ s.get (CRF_PI_SLOT_EN n) = 1 ∧ s.get (CRF_PI_SLOT_DIR n) = 0) ∧ ∃ r, (s.slot n).rdy = some r) ∧
    (∃ s : State, ∃ n : Nat, n < 256 ∧ partDone s 0 = false ∧ s.get (CRF_PI_SLOT_EN n) = 1 ∧ s.get (CRF_PI_SLOT_DIR n) = 0 ∧ (s.slot n).rdy = none) ∧
    (∃ s : State, ∃ n : Nat, (n < 256 ∧ partDone s 0 = false ∧ s.get (CRF_PI_SLOT_EN n) = 1 ∧ s.get (CRF_PI_SLOT_DIR n) = 1) ∧ ∃ r, (s.slot n).rdy = some r) ∧
    (∃ s : State, ∃ n : Nat, n < 256 ∧ partDone s 0 = false ∧ s.get (CRF_PI_SLOT_EN n) = 1 ∧ s.get (CRF_PI_SLOT_DIR n) = 1 ∧ (s.slot n).rdy = none) ∧
    (∃ s : State, ∃ n : Nat, n < 256 ∧ partDone s 0 = false ∧ s.get (CRF_PI_SLOT_EN n) = 1) :=
  ⟨⟨{ S [(CRF_PI_SLOT_EN 255, 1)] with pi := [(255, ⟨0, some 2, false, false, false⟩)] }, 255, by decide +kernel, 2, by decide +kernel⟩,
   ⟨S [(CRF_PI_SLOT_EN 255, 1)], 255, by decide +kernel⟩,
   ⟨{ S [(CRF_PI_SLOT_EN 255, 1), (CRF_PI_SLOT_DIR 255, 1)] with pi := [(255, ⟨0, some 2, false, false, false⟩)] }, 255, by decide +kernel, 2, by decide +kernel⟩,
   ⟨S [(CRF_PI_SLOT_EN 255, 1), (CRF_PI_SLOT_DIR 255, 1), (CRF_PI_SLOT_RD 255, 1)], 255, by decide +kernel⟩,
   ⟨S [(CRF_PI_SLOT_EN 255, 1), (CRF_PI_SLOT_DIR 255, 1), (CRF_PI_SLOT_RD 255, 1)], 255, by decide +kernel⟩⟩

/-- The hypotheses of ImageSlotsExchange hold together. -/
theorem witness_ImageSlotsExchange :
    (∃ n : Fin 256, ∃ s : State, s.fatal = false ∧ s.halted = false ∧ s.get (CRF_PI_SLOT_DIR n.val) = 0 ∧ withinSeq s (40 * 65536) = false ∧ (s.slot n.val).rdy = none) ∧
    (∃ n : Fin 256, ∃ r : Fin 3, ∃ s : State, s.fatal = false ∧ s.halted = false ∧ s.get (CRF_PI_SLOT_DIR n.val) = 0 ∧ withinSeq s (40 * 65536) = false ∧ (s.slot n.val).rdy = some r.val) ∧
    (∃ n : Fin 256, ∃ s : State, s.halted = true) ∧
    (∃ n : Fin 256, ∃ s : State, s.fatal = false ∧ s.halted = false ∧ s.get (CRF_PI_SLOT_DIR n.val) = 0 ∧ withinSeq s (40 * 65536) = true) ∧
    (∃ n : Fin 256, ∃ s : State, s.get (CRF_PI_SLOT_DIR n.val) = 1) ∧
    (∃ n : Fin 256, ∃ r : Fin 3, ∃ s : State, s.fatal = false ∧ s.get (CRF_PI_SLOT_DIR n.val) = 1 ∧ withinSeq s (40 * 65536) = false ∧ (s.slot n.val).rdy = some r.val) ∧
    (∃ n : Fin 256, ∃ s : State, withinSeq s (40 * 65536) = false ∧ (s.slot n.val).rdy = none) ∧
    (∃ n : Fin 256, ∃ r : Fin 3, ∃ s : State, s.fatal = false ∧ s.get (CRF_PI_SLOT_DIR n.val) = 1 ∧ withinSeq s (40 * 65536) = true ∧ ((partFlip s).slot n.val).rdy = some r.val) ∧
    (∃ n : Fin 256, ∃ s : State, s.get (CRF_PI_SLOT_DIR n.val) = 0) :=
  ⟨⟨255, S [(CRF_PI_SLOT_WR 255, 1)], by decide +kernel⟩,
   ⟨255, 2, { S [(CRF_PI_SLOT_WR 255, 1)] with pi := [(255, ⟨0, some 2, false, false, false⟩)] }, by decide +kernel⟩,
   ⟨255, S [(BOOT_STATUS_HIHALT, 1)], by decide +kernel⟩,
   ⟨255, { S [(CRF_PI_SLOT_EN 255, 1), (CRF_PI_SLOT_WR 255, 1)] with
                pi := [(255, ⟨0, some 2, false, false, false⟩)], tick := { Tick.rst with run := true } }, by decide +kernel⟩,
   ⟨255, S [(CRF_PI_SLOT_DIR 255, 1)], by decide +kernel⟩,
   ⟨255, 2, { S [(CRF_PI_SLOT_DIR 255, 1), (CRF_PI_SLOT_NEW 255, 1)] with pi := [(255, ⟨0, some 2, false, false, false⟩)] }, by decide +kernel⟩,
   ⟨255, S [(CRF_PI_SLOT_DIR 255, 1)], by decide +kernel⟩,
   ⟨255, 1, { S [(CRF_PI_SLOT_DIR 255, 1)] with
                pi := [(255, ⟨0, some 1, false, false, false⟩)], tick := { Tick.rst with run := true } }, by decide +kernel⟩,
   ⟨255, R, by decide +kernel⟩⟩

/-- The hypotheses of AluResultsAndFlags hold together. -/
theorem witness_AluResultsAndFlags :
    (∃ o : AluOp, ∃ d : BitVec 32, ∃ x : BitVec 32, ∃ old : BitVec 8, ∃ i, 4 ≤ i ∧ i < 8) :=
  ⟨.sub, 0x80000000, 1, 0xA0, 7, by decide +kernel⟩

/-- The hypotheses of RegisterWords hold together. -/
theorem witness_RegisterWords :
    (∃ o : AluOp, ∃ g : Grp, ∃ s : State, s.wordRuns g.val o.code ∧ (spWord s g.val).bmode ≠ 7) ∧
    (∃ g : Grp, ∃ s : State, s.wordRuns g.val 0x00 ∧ gclSection (s.sp g.val).pc = false ∧ (spWord s g.val).bmode ≠ 7) ∧
    (∃ g : Grp, ∃ s : State, s.wordRuns g.val 0x09 ∧ (spWord s g.val).bmode ≠ 7) ∧
    (∃ g : Grp, ∃ s : State, ∃ v : Nat, (((s.wordRuns g.val 0x01 ∧ (spWord s g.val).dst ≠ 0x1D ∧ v = operand s g.val (spWord s g.val) (spWord s g.val).src) ∨
        (s.wordRuns g.val 0x0A ∧
          let o := ((operand s g.val (spWord s g.val) (spWord s g.val).src + (spWord s g.val).imm % 2 ^ 15) % 2 ^ 15) / 4 * 4
          let was := (s.sp g.val).hostW.find? (fun e => decide ((s.sp g.val).rd.at_ ≤ e.1) && e.2.1 == o)
          v = (match was with
            | some e => e.2.2
            | none => s.mem.getLE (tmA g.val 0 + o) 4)))) ∧ (spWord s g.val).bmode ≠ 7) :=
  ⟨⟨.sub, 15, W (uw AluOp.sub.code 1 0x10 0 9) [] X, by decide +kernel⟩,
   ⟨15, W (uw 0 0 0 0 9) [] X, by decide +kernel⟩,
   ⟨15, W (uw 9 1 0x10 0 9) [] X, by decide +kernel⟩,
   ⟨15, W (uw 0x0A 2 0x10 0 0x10) [] { X with hostW := [(1, 12, 5), (1, 32, 9)] }, 9, by decide +kernel⟩⟩

/-- The hypotheses of GateAndStagedWords hold together. -/
theorem witness_GateAndStagedWords :
    (∃ g : Grp, ∃ s : State, s.wordRuns g.val 0x18 ∧ (spWord s g.val).stage = false ∧ ((∀ p ∈ portsIn g.val (spWord s g.val).mask, ∀ x, (s.port p).tx = some x → x.startAt ≠ s.now))) ∧
    (∃ g : Grp, ∃ s : State, s.wordRuns g.val 0x18 ∧ (spWord s g.val).stage = false) ∧
    (∃ g : Grp, ∃ s : State, s.wordRuns g.val 0x19 ∧ (spWord s g.val).stage = false ∧ 
      let i := operand s g.val (spWord s g.val) (spWord s g.val).src
      i < 4096 ∧ bits (s.strW 3 i 0) 23 20 = g.val) ∧
    (∃ g : Grp, ∃ s : State, s.wordRuns g.val 0x19 ∧ 
      let i := operand s g.val (spWord s g.val) (spWord s g.val).src
      (¬ (i < 4096 ∧ bits (s.strW 3 i 0) 23 20 = g.val))) ∧
    (∃ g : Grp, ∃ s : State, s.wordRuns g.val 0x1A ∧ (spWord s g.val).stage = false) ∧
    (∃ g : Grp, ∃ s : State, s.wordRuns g.val 0x1B ∧ (spWord s g.val).stage = false) ∧
    (∃ g : Grp, ∃ s : State, s.wordRuns g.val 0x0B ∧ (spWord s g.val).stage = false) ∧
    (∃ g : Grp, ∃ s : State, s.wordRuns g.val 0x01 ∧ (spWord s g.val).dst = 0x1D ∧ (spWord s g.val).stage = false) ∧
    (∃ g : Grp, ∃ c : Instr, ∃ s : State, ∃ ws : List (StageKey × Nat), ∃ b : List (StageKey × Nat), ((let u := spWord s g.val
        let v := operand s g.val u u.src
        (c = .gate g ∧ u.op = 0x18 ∧ ws = (portsIn g.val u.mask).map (fun p => (.gate p, v % 256))) ∨
        (c = .sgate g ∧ u.op = 0x19 ∧ v < 4096 ∧ bits (s.strW 3 v 0) 23 20 = g.val ∧ ws = [(.sgate v, u.mask % 2)]) ∨
        (c = .hold g ∧ u.op = 0x1A ∧ ws = (portsIn g.val u.mask).map (fun p => (.hold p, 1))) ∨
        (c = .release g ∧ u.op = 0x1B ∧ ws = (portsIn g.val u.mask).map (fun p => (.hold p, 0))) ∨
        (c = .stt g ∧ u.op = 0x0B ∧
          ws = [(.table ((operand s g.val u u.dst + u.imm % 2 ^ 15) % 2 ^ 15 / 4 * 4), v)]) ∨
        (c = .mov g ∧ u.op = 0x01 ∧ u.dst = 0x1D ∧ ws = [(.nextev (8 * g.val + (s.sp g.val).psel), v)]))) ∧ s.wordRuns g.val (spWord s g.val).op ∧ (spWord s g.val).stage = true ∧ stagePut (s.sp g.val).stage ws = some b) ∧
    (∃ g : Grp, ∃ s : State, (s.wordRuns g.val 0x30 ∧ ((s.sp g.val).stage.map (·.1)).Nodup) ∧ ((∀ e ∈ (s.sp g.val).stage, ∀ a, e.1 = .table a → a % 4 = 0))) :=
  ⟨⟨15, W (uw 0x18 0 0x10 0x81 0x1A5) [] X, by decide +kernel⟩,
   ⟨15, W (uw 0x18 0 0x10 0x81 0x1A5) [] X, by decide +kernel⟩,
   ⟨15, { W (uw 0x19 0 0x10 0x1 0xFFF) [] X with str := [(entK 3 4095 0, 0x00F00000)] }, by decide +kernel⟩,
   ⟨15, W (uw 0x19 0 0x10 0x1 0x1000) [] X, by decide +kernel⟩,
   ⟨15, W (uw 0x1A 0 0 0x81 0) [(PRT_MM_MM_EN 127, 1)] X, by decide +kernel⟩,
   ⟨15, W (uw 0x1B 0 0 0x81 0) [(PRT_MM_HOLD 127, 1)] X, by decide +kernel⟩,
   ⟨15, W (uw 0x0B 1 0x10 0 0x7FFFFFFF) [] X, by decide +kernel⟩,
   ⟨15, W (uw 0x01 0x1D 0x10 0 0x7FFFFFFF) [] X, by decide +kernel⟩,
   ⟨15, .mov 15, W (uwx 0x01 0x1D 0x10 0 0x7FFFFFFF 1 0 0 1) [] { X with stage := [(.nextev 120, 3), (.gate 120, 3)] }, [(.nextev 120, 0x7FFFFFFF)], [(.nextev 120, 0x7FFFFFFF), (.gate 120, 3)], by decide +kernel⟩,
   ⟨15, W (uw 0x30 0 0 0 0) [] { X with stage := [(.gate 127, 3), (.table 4, 9)] }, by decide +kernel, (by intro e he a h; simp only [show ((W (uw 0x30 0 0 0 0) [] { X with stage := [(.gate 127, 3), (.table 4, 9)] }).sp (15 : Grp).val).stage = [(.gate 127, 3), (.table 4, 9)] from by decide +kernel, List.mem_cons, List.not_mem_nil, or_false] at he; rcases he with rfl | rfl <;> cases h; rfl)⟩⟩

/-- The hypotheses of Comparators hold together. -/
theorem witness_Comparators :
    (∃ g : Grp, ∃ s : State, s.wordRuns g.val 0x10 ∧ (spWord s g.val).mask / 2 % 2 = 0) ∧
    (∃ g : Grp, ∃ s : State, s.wordRuns g.val 0x10 ∧ (spWord s g.val).mask / 2 % 2 = 1) ∧
    (∃ g : Grp, ∃ k : Fin 32, ∃ s : State, s.fatal = false ∧ ((s.sp g.val).cmp k.val).armed = true ∧ isPast ((s.sp g.val).cmp k.val).target s.tickNs = true) ∧
    (∃ g : Grp, ∃ k : Fin 32, ∃ s : State, ((((s.sp g.val).cmp k.val).armed = false ∨ isPast ((s.sp g.val).cmp k.val).target s.tickNs = false))) :=
  ⟨⟨15, W (uw 0x10 0x3F 0x10 0 77) [] X, by decide +kernel⟩,
   ⟨15, W (uw 0x10 0x23 0x10 2 77) [] X, by decide +kernel⟩,
   ⟨15, 31, W 0 [] { X with tcmp := [(31, ⟨0, true, false, true⟩)] }, by decide +kernel⟩,
   ⟨15, 31, R, by decide +kernel⟩⟩

/-- The hypotheses of LaunchBlockAndEventWords hold together. -/
theorem witness_LaunchBlockAndEventWords :
    (∃ g : Grp, ∃ s : State, s.wordRuns g.val 0x1C) ∧
    (∃ g : Grp, ∃ s : State, s.wordRuns g.val 0x20 ∧ (s.sp g.val).hostW = [] ∧ remoteDue s (s.sp g.val).stsel = false) ∧
    (∃ g : Grp, ∃ s : State, s.wordRuns g.val 0x20 ∧ remoteDue s (s.sp g.val).stsel = true) ∧
    (∃ g : Grp, ∃ s : State, s.wordRuns g.val 0x21 ∧ ((∀ e ∈ (s.stn (s.sp g.val).stsel).olds, e.1 < (s.sp g.val).rd.at_))) ∧
    (∃ g : Grp, ∃ s : State, s.wordRuns g.val 0x22 ∧ (spWord s g.val).mask % 2 = 0) ∧
    (∃ g : Grp, ∃ s : State, s.wordRuns g.val 0x22 ∧ (spWord s g.val).mask % 2 = 1 ∧ (s.sp g.val).hostW = []) ∧
    (∃ g : Grp, ∃ s : State, s.wordRuns g.val 0x28) :=
  ⟨⟨15, { W (uw 0x1C 0 0x10 0x80 1) [(PRT_STAT_LINK 127, 1)] X with
                  queues := [(qK 127 8, [Q 1, Q 2])] }, by decide +kernel⟩,
   ⟨15, W (uw 0x20 0 0x10 0 (31 * 2 ^ 32 + 16 * 65536 + 64)) [(CRF_ST_CFG_EN 63, 1), (CRF_ST_CFG_SP 63, 15), (CRF_ST_POUR_LEN 63, 48)] { X with stsel := 63 }, by decide +kernel⟩,
   ⟨15, { W (uw 0x20 0 0x10 0 (31 * 2 ^ 32 + 16 * 65536 + 64)) [(CRF_CTL_RUN, 1), (CRF_ST_CFG_EN 63, 1), (CRF_ST_CFG_SP 63, 15), (CRF_ST_REMOTE_EN 63, 1), (CRF_ST_POUR_LEN 63, 48)] { X with stsel := 63 } with
        tbs := [(0, { Tb.rst with acc := 999000 * 2 ^ 40 })], tick := { TK with next := 1000000 * 65536 } }, by decide +kernel⟩,
   ⟨15, W (uw 0x21 0 0x10 0 (31 * 2 ^ 32 + 16 * 65536 + 64)) [(CRF_ST_CFG_EN 63, 1), (CRF_ST_CFG_SP 63, 15), (CRF_ST_POUR_LEN 63, 48)] { X with stsel := 63 }, by decide +kernel⟩,
   ⟨15, W (uw 0x22 0 0x10 0 (31 * 2 ^ 32 + 16 * 65536 + 64)) [(CRF_PI_SLOT_EN 255, 1)] { X with pisel := 255 }, by decide +kernel⟩,
   ⟨15, W (uw 0x22 0 0x10 1 (31 * 2 ^ 32 + 16 * 65536 + 64)) [(CRF_PI_SLOT_EN 255, 1), (CRF_PI_SLOT_DIR 255, 1)] { X with pisel := 255 }, by decide +kernel⟩,
   ⟨15, { W (uw 0x28 0 0x10 5 9) [(EVT_ROUTE_EN 16, 1), (EVT_ROUTE_RING 16, 63)] X with
                  rings := [(ringK 3 63, { Ring.none with created := true, log2 := 4, base := 0x1000, shadow := 0x2000 })] }, by decide +kernel⟩⟩

/-- The hypotheses of BranchModes hold together. -/
theorem witness_BranchModes :
    (∃ g : Nat, ∃ eff : UWord → State → Option State, ∃ s : State, ∃ s1 : State, (csSyndrome (csWord s g (s.sp g).pc) = 0 ∧ wordLegal s g (spWord s g) = true ∧ stackFault (s.sp g) (spWord s g) = false) ∧ eff (spWord s g) s = some s1 ∧ (s1.sp g).run = .exec ∧ spWord s1 g = spWord s g ∧ 
      let u := spWord s g
      u.bmode = 0) ∧
    (∃ g : Nat, ∃ eff : UWord → State → Option State, ∃ s : State, ∃ s1 : State, (csSyndrome (csWord s g (s.sp g).pc) = 0 ∧ wordLegal s g (spWord s g) = true ∧ stackFault (s.sp g) (spWord s g) = false) ∧ eff (spWord s g) s = some s1 ∧ (s1.sp g).run = .exec ∧ spWord s1 g = spWord s g ∧ 
      let u := spWord s g
      u.bmode = 1) ∧
    (∃ g : Nat, ∃ eff : UWord → State → Option State, ∃ s : State, ∃ s1 : State, (csSyndrome (csWord s g (s.sp g).pc) = 0 ∧ wordLegal s g (spWord s g) = true ∧ stackFault (s.sp g) (spWord s g) = false) ∧ eff (spWord s g) s = some s1 ∧ (s1.sp g).run = .exec ∧ spWord s1 g = spWord s g ∧ 
      let u := spWord s g
      u.bmode = 2) ∧
    (∃ g : Nat, ∃ eff : UWord → State → Option State, ∃ s : State, ∃ s1 : State, (csSyndrome (csWord s g (s.sp g).pc) = 0 ∧ wordLegal s g (spWord s g) = true ∧ stackFault (s.sp g) (spWord s g) = false) ∧ eff (spWord s g) s = some s1 ∧ (s1.sp g).run = .exec ∧ spWord s1 g = spWord s g ∧ 
      let u := spWord s g
      u.bmode = 3) ∧
    (∃ g : Nat, ∃ eff : UWord → State → Option State, ∃ s : State, ∃ s1 : State, (csSyndrome (csWord s g (s.sp g).pc) = 0 ∧ wordLegal s g (spWord s g) = true ∧ stackFault (s.sp g) (spWord s g) = false) ∧ eff (spWord s g) s = some s1 ∧ ((s1.sp g).run = .exec ∧ spWord s1 g = spWord s g) ∧ 
      let u := spWord s g
      u.bmode = 4 ∧ ∃ a, ∃ r, (s1.sp g).stack = a :: r) ∧
    (∃ g : Nat, ∃ eff : UWord → State → Option State, ∃ s : State, ∃ s1 : State, (csSyndrome (csWord s g (s.sp g).pc) = 0 ∧ wordLegal s g (spWord s g) = true ∧ stackFault (s.sp g) (spWord s g) = false) ∧ eff (spWord s g) s = some s1 ∧ (s1.sp g).run = .exec ∧ spWord s1 g = spWord s g ∧ 
      let u := spWord s g
      u.bmode = 5 ∧ (s1.sp g).crossed = false) ∧
    (∃ g : Nat, ∃ eff : UWord → State → Option State, ∃ s : State, ∃ s1 : State, (csSyndrome (csWord s g (s.sp g).pc) = 0 ∧ wordLegal s g (spWord s g) = true ∧ stackFault (s.sp g) (spWord s g) = false) ∧ eff (spWord s g) s = some s1 ∧ (s1.sp g).run = .exec ∧ spWord s1 g = spWord s g ∧ 
      let u := spWord s g
      u.bmode = 5 ∧ (s1.sp g).crossed = true) ∧
    (∃ g : Nat, ∃ eff : UWord → State → Option State, ∃ s : State, ∃ s1 : State, (csSyndrome (csWord s g (s.sp g).pc) = 0 ∧ wordLegal s g (spWord s g) = true ∧ stackFault (s.sp g) (spWord s g) = false) ∧ eff (spWord s g) s = some s1 ∧ (s1.sp g).run = .exec ∧ spWord s1 g = spWord s g ∧ 
      let u := spWord s g
      
      let t := runWord s g eff
      u.bmode = 6 ∧ condGroup t g u.csel ≠ 0) ∧
    (∃ g : Nat, ∃ eff : UWord → State → Option State, ∃ s : State, ∃ s1 : State, (csSyndrome (csWord s g (s.sp g).pc) = 0 ∧ wordLegal s g (spWord s g) = true ∧ stackFault (s.sp g) (spWord s g) = false) ∧ eff (spWord s g) s = some s1 ∧ (s1.sp g).run = .exec ∧ spWord s1 g = spWord s g ∧ 
      let u := spWord s g
      
      let t := runWord s g eff
      u.bmode = 6 ∧ condGroup t g u.csel = 0) ∧
    (∃ g : Nat, ∃ eff : UWord → State → Option State, ∃ s : State, ∃ s1 : State, (csSyndrome (csWord s g (s.sp g).pc) = 0 ∧ wordLegal s g (spWord s g) = true ∧ stackFault (s.sp g) (spWord s g) = false) ∧ eff (spWord s g) s = some s1 ∧ (s1.sp g).run = .exec ∧ spWord s1 g = spWord s g ∧ 
      let u := spWord s g
      u.bmode = 7) ∧
    (∃ g : Nat, ∃ eff : UWord → State → Option State, ∃ s : State, ∃ s1 : State, (csSyndrome (csWord s g (s.sp g).pc) = 0 ∧ wordLegal s g (spWord s g) = true ∧ stackFault (s.sp g) (spWord s g) = false) ∧ eff (spWord s g) s = some s1 ∧ ((s1.sp g).run = .exec ∧ spWord s1 g = spWord s g) ∧ 
      let u := spWord s g
      u.bmode = 7 ∧ ∃ i, i < 4) ∧
    (∃ g : Nat, ∃ eff : UWord → State → Option State, ∃ s : State, ∃ s1 : State, (csSyndrome (csWord s g (s.sp g).pc) = 0 ∧ wordLegal s g (spWord s g) = true ∧ stackFault (s.sp g) (spWord s g) = false) ∧ eff (spWord s g) s = some s1 ∧ (s1.sp g).run = .exec ∧ spWord s1 g = spWord s g ∧ 
      let u := spWord s g
      u.bmode ≠ 5 ∧ u.bmode ≠ 6 ∧ u.bmode ≠ 7) :=
  ⟨⟨15, fun _ s => some s, W (uwx 0 0 0 0 0 0 0x1234 0 0) [] { X with pc := 8191 }, W (uwx 0 0 0 0 0 0 0x1234 0 0) [] { X with pc := 8191 }, by decide +kernel, (by rfl), by decide +kernel⟩,
   ⟨15, fun _ s => some s, W (uwx 0 0 0 0 0 1 0x1FFF 0 0) [] X, W (uwx 0 0 0 0 0 1 0x1FFF 0 0) [] X, by decide +kernel, (by rfl), by decide +kernel⟩,
   ⟨15, fun _ s => some s, W (uwx 0 0 0 0 0 2 0x1FF0 0 0) [] X, W (uwx 0 0 0 0 0 2 0x1FF0 0 0) [] X, by decide +kernel, (by rfl), by decide +kernel⟩,
   ⟨15, fun _ s => some s, W (uwx 0 0 0 0 0 3 0x1FF0 0 0) [] { X with stack := [1, 2, 3] }, W (uwx 0 0 0 0 0 3 0x1FF0 0 0) [] { X with stack := [1, 2, 3] }, by decide +kernel, (by rfl), by decide +kernel⟩,
   ⟨15, fun _ s => some s, W (uwx 0 0 0 0 0 4 0x1FF0 0 0) [] { X with stack := [0x1FFF] }, W (uwx 0 0 0 0 0 4 0x1FF0 0 0) [] { X with stack := [0x1FFF] }, by decide +kernel, (by rfl), by decide +kernel, by decide +kernel, 0x1FFF, ([] : List Nat), by decide +kernel⟩,
   ⟨15, fun _ s => some s, W (uwx 0 0 0 0 0 5 0x1FF0 0 0) [] X, W (uwx 0 0 0 0 0 5 0x1FF0 0 0) [] X, by decide +kernel, (by rfl), by decide +kernel⟩,
   ⟨15, fun _ s => some s, W (uwx 0 0 0 0 0 5 0x1FF0 0 0) [] { X with crossed := true }, W (uwx 0 0 0 0 0 5 0x1FF0 0 0) [] { X with crossed := true }, by decide +kernel, (by rfl), by decide +kernel⟩,
   ⟨15, fun _ s => some s, W (uwx 0 0 0 0 0 6 0x1FF0 0 0) [] X, W (uwx 0 0 0 0 0 6 0x1FF0 0 0) [] X, by decide +kernel, (by rfl), by decide +kernel⟩,
   ⟨15, fun _ s => some s, W (uwx 0 0 0 0 0 6 0x1FF0 7 0) [] X, W (uwx 0 0 0 0 0 6 0x1FF0 7 0) [] X, by decide +kernel, (by rfl), by decide +kernel⟩,
   ⟨15, fun _ s => some s, W (uwx 0 0 0 0 0 7 0x1FF0 7 0) [(SP_TF_CTL_PC 15, 0x1FFF), (SP_TF_CTL_FLAGS 15, 0xA5)] { X with inTrap := true }, W (uwx 0 0 0 0 0 7 0x1FF0 7 0) [(SP_TF_CTL_PC 15, 0x1FFF), (SP_TF_CTL_FLAGS 15, 0xA5)] { X with inTrap := true }, by decide +kernel, (by rfl), by decide +kernel⟩,
   ⟨15, fun _ s => some s, W (uwx 0 0 0 0 0 7 0x1FF0 7 0) [(SP_TF_W_W 15 3, 0x1FFF)] { X with inTrap := true }, W (uwx 0 0 0 0 0 7 0x1FF0 7 0) [(SP_TF_W_W 15 3, 0x1FFF)] { X with inTrap := true }, by decide +kernel, (by rfl), by decide +kernel, by decide +kernel, 3, by decide +kernel⟩,
   ⟨15, fun _ s => some s, W (uwx 0 0 0 0 0 4 0x1FF0 0 0) [] { X with stack := [0x1FFF] }, W (uwx 0 0 0 0 0 4 0x1FF0 0 0) [] { X with stack := [0x1FFF] }, by decide +kernel, (by rfl), by decide +kernel⟩⟩

/-- The hypotheses of SynchronousTraps hold together. -/
theorem witness_SynchronousTraps :
    (∃ g : Grp, ∃ v : Nat, ∃ eff : UWord → State → Option State, ∃ s : State, csSyndrome (csWord s g.val (s.sp g.val).pc) = 0 ∧ (((v = 1 ∧ wordLegal s g.val (spWord s g.val) = false) ∨
        (v = 2 ∧ wordLegal s g.val (spWord s g.val) = true ∧ stackFault (s.sp g.val) (spWord s g.val) = true) ∨
        (v = 3 ∧ wordLegal s g.val (spWord s g.val) = true ∧ stackFault (s.sp g.val) (spWord s g.val) = false ∧
          eff (spWord s g.val) s = none))) ∧ (s.sp g.val).inTrap = false ∧ (s.sp g.val).run = .exec) ∧
    (∃ g : Grp, ∃ v : Nat, ∃ eff : UWord → State → Option State, ∃ s : State, (csSyndrome (csWord s g.val (s.sp g.val).pc) = 0 ∧ (((v = 1 ∧ wordLegal s g.val (spWord s g.val) = false) ∨
        (v = 2 ∧ wordLegal s g.val (spWord s g.val) = true ∧ stackFault (s.sp g.val) (spWord s g.val) = true) ∨
        (v = 3 ∧ wordLegal s g.val (spWord s g.val) = true ∧ stackFault (s.sp g.val) (spWord s g.val) = false ∧
          eff (spWord s g.val) s = none))) ∧ (s.sp g.val).inTrap = false ∧ (s.sp g.val).run = .exec) ∧ ∃ j, j ≠ g.val) ∧
    (∃ g : Grp, ∃ v : Nat, ∃ eff : UWord → State → Option State, ∃ s : State, (csSyndrome (csWord s g.val (s.sp g.val).pc) = 0 ∧ (((v = 1 ∧ wordLegal s g.val (spWord s g.val) = false) ∨
        (v = 2 ∧ wordLegal s g.val (spWord s g.val) = true ∧ stackFault (s.sp g.val) (spWord s g.val) = true) ∨
        (v = 3 ∧ wordLegal s g.val (spWord s g.val) = true ∧ stackFault (s.sp g.val) (spWord s g.val) = false ∧
          eff (spWord s g.val) s = none))) ∧ (s.sp g.val).inTrap = false ∧ (s.sp g.val).run = .exec) ∧ ∃ i, i < 4) ∧
    (∃ g : Grp, ∃ v : Nat, ∃ eff : UWord → State → Option State, ∃ s : State, csSyndrome (csWord s g.val (s.sp g.val).pc) = 0 ∧ (((v = 1 ∧ wordLegal s g.val (spWord s g.val) = false) ∨
        (v = 2 ∧ wordLegal s g.val (spWord s g.val) = true ∧ stackFault (s.sp g.val) (spWord s g.val) = true) ∨
        (v = 3 ∧ wordLegal s g.val (spWord s g.val) = true ∧ stackFault (s.sp g.val) (spWord s g.val) = false ∧
          eff (spWord s g.val) s = none))) ∧ (s.sp g.val).inTrap = true) :=
  ⟨⟨15, 1, fun _ s => some s, W (uwx 0x7F 0 0 0 0 4 0x1FF0 0 0) [] X, by decide +kernel⟩,
   ⟨15, 2, fun _ s => some s, W (uwx 0 0 0 0 0 4 0x1FF0 0 0) [] X, by decide +kernel, 3, by decide +kernel⟩,
   ⟨15, 3, fun _ _ => none, W (uwx 0 0 0 0 0 1 0x1FF0 0 0) [] X, by decide +kernel, 1, by decide +kernel⟩,
   ⟨15, 3, fun _ _ => none, W (uwx 0 0 0 0 0 1 0x1FF0 0 0) [] { X with inTrap := true }, by decide +kernel⟩⟩

/-- The hypotheses of WaitsAndDeferredTraps hold together. -/
theorem witness_WaitsAndDeferredTraps :
    (∃ g : Grp, ∃ s : State, s.fatal = false ∧ (s.sp g.val).run = .waitTime ∧ beforeC s = true ∧ condGroup s g.val (spWord s g.val).csel ≠ 0) ∧
    (∃ g : Grp, ∃ s : State, ((condGroup s g.val (spWord s g.val).csel = 0 ∨ (s.sp g.val).run ≠ .waitTime))) ∧
    (∃ g : Grp, ∃ v : Nat, ∃ s : State, trapDue s g.val = some v ∧ trapAllowed s g.val = true) ∧
    (∃ g : Grp, ∃ s : State, s.fatal = false ∧ s.tick.cur = true ∧ (((s.sp g.val).run = .exec ∨ (s.sp g.val).run = .waitTime)) ∧ (s.sp g.val).lowRaised = false ∧ bleft s g.val < s.get (SP_BUDGET_LOW_LOW g.val)) ∧
    (∃ g : Grp, ∃ s : State, (s.sp g.val).lowRaised = true) :=
  ⟨⟨15, W (uwx 0 0 0 0 0 6 0x1FF0 0 0) [] { X with run := .waitTime }, by decide +kernel⟩,
   ⟨15, R, by decide +kernel⟩,
   ⟨15, 4, W (uwx 0 0 0 0 0 6 0x1FF0 0 0) [(SP_TRAP_EN 15, 0x1F), (SP_TRAP_PEND 15, 0x1F0)] X, by decide +kernel⟩,
   ⟨15, W (uwx 0 0 0 0 0 6 0x1FF0 0 0) [(SP_BUDGET_LOW_LOW 15, 0xFFFFF)] { X with run := .waitTime }, by decide +kernel⟩,
   ⟨15, { R with sps := [(15, { X with lowRaised := true })] }, by decide +kernel⟩⟩

/-- The hypotheses of ProcessorHaltsAndHostAccess hold together. -/
theorem witness_ProcessorHaltsAndHostAccess :
    (∃ g : Grp, ∃ cause : McCause, ∃ synd : Byte, ∃ s : State, s.fatal = false ∧ (((s.sp g.val).run = .exec ∨ (s.sp g.val).run = .waitTick ∨ (s.sp g.val).run = .waitTime)) ∧ s.collector = true ∧ ((∀ b < 4, maskedBy s (grpK g.val) b = none ∧ s.reacting (grpK g.val) b = false)) ∧ s.get FLT_CTL_ARST / 4 % 2 = 0) ∧
    (∃ g : Grp, ∃ cause : McCause, ∃ synd : Byte, ∃ s : State, (((s.sp g.val).run = .mck ∨ (s.sp g.val).run = .halted ∨ (s.sp g.val).run = .reload)) ∧ cutNow s g.val = false ∧ 
      let n := match cause with | .parity => 1 | .table => 2 | .doubleTrap => 3
      s.reacting (grpK g.val) n = false ∧ maskedBy s (grpK g.val) n = none) ∧
    (∃ g : Grp, ∃ cause : McCause, ∃ synd : Byte, ∃ s : State, s.fatal = false ∧ s.collector = true ∧ (((s.sp g.val).run = .mck ∨ (s.sp g.val).run = .halted ∨ (s.sp g.val).run = .reload)) ∧ cutNow s g.val = false ∧ 
      let n := match cause with | .parity => 1 | .table => 2 | .doubleTrap => 3
      s.reacting (grpK g.val) n = true ∧ maskedBy s (grpK g.val) n = none) ∧
    (∃ g : Grp, ∃ v : Word, ∃ s : State, s.fatal = false ∧ s.get (SP_HOSTREQ_REQ g.val) = 0) ∧
    (∃ g : Grp, ∃ v : Word, ∃ s : State, s.get (SP_HOSTREQ_REQ g.val) = 1) ∧
    (∃ g : Grp, ∃ v : Word, ∃ s : State, csBusy s g.val = true) ∧
    (∃ g : Grp, ∃ v : Word, ∃ s : State, s.fatal = false ∧ csBusy s g.val = false ∧ getField v 26 2 = 1) ∧
    (∃ g : Grp, ∃ v : Word, ∃ s : State, s.fatal = false ∧ csBusy s g.val = false ∧ getField v 26 2 = 2 ∧ 0x1000 ≤ getField v 0 13 ∧ s.locked = false) ∧
    (∃ g : Grp, ∃ v : Word, ∃ s : State, s.fatal = false ∧ csBusy s g.val = false ∧ getField v 26 2 = 2 ∧ ((getField v 0 13 < 0x1000 ∨ s.locked = true))) :=
  ⟨⟨15, .table, 7, W 0 [] { X with run := .waitTime, inTrap := true, stage := [(.gate 3, 3)] }, by decide +kernel⟩,
   ⟨15, .table, 7, R, by decide +kernel⟩,
   ⟨15, .table, 7, { R with collector := true, sps := [(15, { Sp.rst with run := .mck })], reacts := [(srcK (grpK 15) 2, true)] }, by decide +kernel⟩,
   ⟨15, 0xFFFFFFFF, R, by decide +kernel⟩,
   ⟨15, 0xFFFFFFFF, S [(SP_HOSTREQ_REQ 15, 1)], by decide +kernel⟩,
   ⟨15, 5, { R with sps := [(15, { X with csEnd := 9 })] }, by decide +kernel⟩,
   ⟨15, 0x14001000, W (uw 1 2 3 4 5) [] X, by decide +kernel⟩,
   ⟨15, 0x18001FFF, W (uw 1 2 3 4 5) [(SP_CS_DATA_DATA 15 0, 7), (SP_CS_DATA_DATA 15 3, 0xFFFFFFFF)] X, by decide +kernel⟩,
   ⟨15, 0x18000FFF, W (uw 1 2 3 4 5) [(SP_CS_DATA_DATA 15 0, 7), (SP_CS_DATA_DATA 15 3, 0xFFFFFFFF)] X, by decide +kernel⟩⟩

/-- The hypotheses of LaneHealth hold together. -/
theorem witness_LaneHealth :
    (∃ l : Lane, ∃ v : Byte, ∃ h : Byte, ∃ eye : Fin 3, ∃ s : State, s.fatal = false ∧ laneActive s l.val = true ∧ (s.lane l.val).lost = false ∧ s.get (LN_WATCH_VMIN l.val) ≤ v.toNat ∧ s.get (LN_WATCH_HMIN l.val) ≤ h.toNat) ∧
    (∃ l : Lane, ∃ v : Byte, ∃ h : Byte, ∃ eye : Fin 3, ∃ s : State, s.fatal = false ∧ laneActive s l.val = true ∧ (s.lane l.val).lost = false ∧ ((v.toNat < s.get (LN_WATCH_VMIN l.val) ∨ h.toNat < s.get (LN_WATCH_HMIN l.val))) ∧ curPs s (laneK l.val) < 3 ∧ s.countsBelow (laneK l.val) 0 0 l.val) ∧
    (∃ l : Lane, ∃ v : Byte, ∃ h : Byte, ∃ eye : Fin 3, ∃ s : State, s.fatal = false ∧ laneActive s l.val = true ∧ (s.lane l.val).lost = true) ∧
    (∃ l : Lane, ∃ metric : Nat, ∃ s : State, s.fatal = false ∧ laneActive s l.val = true ∧ (((s.lane l.val).lost = true ∨ (s.lane l.val).gapped = true))) ∧
    (∃ l : Lane, ∃ metric : Nat, ∃ s : State, s.fatal = false ∧ laneActive s l.val = true ∧ (s.lane l.val).lost = false ∧ (s.lane l.val).gapped = false ∧ metric ≤ s.get (LN_WATCH_ERR_MAX l.val)) ∧
    (∃ l : Lane, ∃ metric : Nat, ∃ s : State, s.fatal = false ∧ laneActive s l.val = true ∧ (s.lane l.val).lost = false ∧ (s.lane l.val).gapped = false ∧ s.get (LN_WATCH_ERR_MAX l.val) < metric ∧ curPs s (laneK l.val) < 3 ∧ s.countsBelow (laneK l.val) 0 0 l.val) ∧
    (∃ l : Lane, ∃ cdrOnly : Bool, ∃ s : State, s.fatal = false ∧ (s.lane l.val).lost = false ∧ laneCounts s l.val = false) ∧
    (∃ l : Lane, ∃ cdrOnly : Bool, ∃ s : State, s.fatal = false ∧ (s.lane l.val).lost = false ∧ laneActive s l.val = true ∧ curPs s (laneK l.val) < 3 ∧ s.get (PRT_STAT_STATE (laneP l.val)) ∉ [stUp, stTrain, stAn] ∧ s.countsBelow (laneK l.val) 0 0 l.val ∧ s.records (laneK l.val) 1) ∧
    (∃ l : Lane, ∃ s : State, (s.lane l.val).lost = true) ∧
    (∃ l : Lane, ∃ s : State, s.fatal = false ∧ (s.lane l.val).lost = true) ∧
    (∃ l : Lane, ∃ s : State, s.fatal = false ∧ laneActive s l.val = true ∧ curPs s (portK (laneP l.val)) ≠ 3) ∧
    (∃ l : Lane, ∃ lock : Bool, ∃ s : State, s.fatal = false ∧ laneActive s l.val = true ∧ curPs s (portK (laneP l.val)) = 3) :=
  ⟨⟨511, 10, 10, 2, S [(LN_STAT_ACTIVE 511, 1), (LN_WATCH_VMIN 511, 10), (LN_WATCH_HMIN 511, 10)], by decide +kernel⟩,
   ⟨511, 9, 10, 2, S [(LN_STAT_ACTIVE 511, 1), (LN_WATCH_VMIN 511, 10), (LN_WATCH_HMIN 511, 10), (SHELL_PWR_CUR (shellBase (laneK 511)), 2), (FLT_WATCH_N 0, 2)], by decide +kernel⟩,
   ⟨511, 9, 10, 2, { S [(LN_STAT_ACTIVE 511, 1), (LN_WATCH_VMIN 511, 10)] with lanes := [(511, { LaneSt.rst with lost := true })] }, by decide +kernel⟩,
   ⟨511, 10, { S [(LN_STAT_ACTIVE 511, 1), (LN_WATCH_ERR_MAX 511, 10)] with lanes := [(511, { LaneSt.rst with gapped := true })] }, by decide +kernel⟩,
   ⟨511, 10, S [(LN_STAT_ACTIVE 511, 1), (LN_WATCH_ERR_MAX 511, 10)], by decide +kernel⟩,
   ⟨511, 11, S [(LN_STAT_ACTIVE 511, 1), (LN_WATCH_ERR_MAX 511, 10), (SHELL_PWR_CUR (shellBase (laneK 511)), 2), (FLT_WATCH_N 0, 2)], by decide +kernel⟩,
   ⟨511, true, R, by decide +kernel⟩,
   ⟨511, false, S [(LN_STAT_ACTIVE 511, 1), (LN_STAT_SIG_DET 511, 1), (SHELL_PWR_CUR (shellBase (laneK 511)), 2), (FLT_WATCH_N 0, 2)], by decide +kernel⟩,
   ⟨511, { R with lanes := [(511, { LaneSt.rst with lost := true })] }, by decide +kernel⟩,
   ⟨511, { R with lanes := [(511, { LaneSt.rst with lost := true })] }, by decide +kernel⟩,
   ⟨511, S [(LN_STAT_ACTIVE 511, 1)], by decide +kernel⟩,
   ⟨511, true, S [(LN_STAT_ACTIVE 511, 1), (SHELL_PWR_CUR (shellBase (portK 127)), 3)], by decide +kernel⟩⟩

/-- The hypotheses of LinksAndClocks hold together. -/
theorem witness_LinksAndClocks :
    (∃ p : Port, ∃ s : State, s.fatal = false ∧ s.get (PRT_STAT_STATE p.val) = stAn ∧ clockLost s p.val = false ∧ curPs s (portK p.val) < 3 ∧ usesAn s p.val (s.get (PRT_STAT_CUR_MODE p.val)) = true) ∧
    (∃ p : Port, ∃ s : State, usesAn s p.val (s.get (PRT_STAT_CUR_MODE p.val)) = false) ∧
    (∃ p : Port, ∃ s : State, s.fatal = false ∧ ((s.get (PRT_STAT_STATE p.val) = stTrain ∨
        (s.get (PRT_STAT_STATE p.val) = stAn ∧ usesAn s p.val (s.get (PRT_STAT_CUR_MODE p.val)) = false))) ∧ clockLost s p.val = false) ∧
    (∃ p : Port, ∃ s : State, s.fatal = false ∧ s.get (PRT_STAT_STATE p.val) = stUp ∧ s.get (PRT_STAT_CUR_MODE p.val) ≠ 0) ∧
    (∃ p : Port, ∃ s : State, s.get (PRT_STAT_STATE p.val) ≠ stUp) ∧
    (∃ p : Port, ∃ mode : Fin 16, ∃ lane : Fin 4, ∃ m : Nat, ∃ s : State, s.fatal = false ∧ s.get (PRT_STAT_STATE p.val) ∉ [stUp, stOff, stRetired] ∧ s.get (PRT_MODE_RTR_EN p.val) = 1 ∧ followSet s p.val mode.val lane.val = some m ∧ s.records (portK p.val) 2) ∧
    (∃ p : Port, ∃ mode : Fin 16, ∃ lane : Fin 4, ∃ s : State, ((followSet s p.val mode.val lane.val = none ∨ s.get (PRT_MODE_RTR_EN p.val) = 0))) ∧
    (∃ p : Port, ∃ s : State, s.fatal = false ∧ (s.port p.val).retreating = true ∧ s.get (PRT_STAT_STATE p.val) ≠ stUp ∧ s.get (PRT_STAT_LINK p.val) = 0 ∧ 1000000 * max 1 (s.get (PRT_RTR_TMO_TMO p.val)) ≤ s.now - (s.port p.val).retreatAt ∧ s.records (portK p.val) 3) ∧
    (∃ p : Port, ∃ s : State, s.now - (s.port p.val).retreatAt < 1000000 * max 1 (s.get (PRT_RTR_TMO_TMO p.val))) ∧
    (∃ g : Grp, ∃ s : State, s.fatal = false ∧ tget false s.sdLost g.val = false) ∧
    (∃ g : Grp, ∃ s : State, tget false s.sdLost g.val = true) ∧
    (∃ g : Grp, ∃ s : State, s.fatal = false ∧ tget false s.sdLost g.val = true) ∧
    (∃ g : Grp, ∃ s : State, tget false s.sdLost g.val = false) :=
  ⟨⟨127, S [(PRT_STAT_STATE 127, stAn), (PRT_STAT_CUR_MODE 127, 6), (SHELL_PWR_CUR (shellBase (portK 127)), 2)], by decide +kernel⟩,
   ⟨127, S [(PRT_STAT_STATE 127, stAn)], by decide +kernel⟩,
   ⟨127, S [(PRT_STAT_STATE 127, stTrain), (PRT_STAT_CUR_MODE 127, 3)], by decide +kernel⟩,
   ⟨127, S [(PRT_STAT_STATE 127, stUp), (PRT_STAT_CUR_MODE 127, 3), (PRT_STAT_LINK 127, 1)], by decide +kernel⟩,
   ⟨127, R, by decide +kernel⟩,
   ⟨127, 6, 3, 8, S [(PRT_STAT_STATE 127, stTrain), (PRT_STAT_CUR_MODE 127, 10), (PRT_MODE_RTR_EN 127, 1), (PRT_RTR_VALID 127 3, 1),
                 (PRT_RTR_FROM 127 3, 10), (PRT_RTR_TO 127 3, 6), (PRT_RTR_BEST 127 3, 1)], by decide +kernel⟩,
   ⟨127, 3, 3, R, by decide +kernel⟩,
   ⟨127, { S [(PRT_STAT_STATE 127, stTrain)] with ports := [(127, { PortSt.rst with retreating := true, retreatAt := 0 })], now := 1000000000 }, by decide +kernel⟩,
   ⟨127, R, by decide +kernel⟩,
   ⟨15, S [(PRT_STAT_STATE 127, stUp), (PRT_STAT_LINK 127, 1), (PRT_STAT_CUR_MODE 127, 3), (PRT_STAT_STATE 121, stTrain)], by decide +kernel⟩,
   ⟨15, { R with sdLost := [(15, true)] }, by decide +kernel⟩,
   ⟨15, { S [(PRT_STAT_STATE 127, stAn), (PRT_STAT_CUR_MODE 127, 3)] with sdLost := [(15, true)] }, by decide +kernel⟩,
   ⟨15, R, by decide +kernel⟩⟩

/-- The hypotheses of FrameHeaders hold together. -/
theorem witness_FrameHeaders :
    (∃ p : Port, ∃ h : RxHdr, ∃ s : State, macUp s p.val = true ∧ copyOf s p.val h.bytes = none ∧ csOf s p.val h.bytes = none) ∧
    (∃ p : Port, ∃ h : RxHdr, ∃ s : State, macUp s p.val = true ∧ copyOf s p.val h.bytes = none ∧ csOf s p.val h.bytes = none ∧ s.arriving (rxK p.val h.preempt) = none ∧ ((h.len < 64 ∨ macControl h.bytes = true)) ∧ s.get (PRT_GRD_CTL_EN p.val) = 0) ∧
    (∃ p : Port, ∃ h : RxHdr, ∃ s : State, macUp s p.val = true ∧ copyOf s p.val h.bytes = none ∧ csOf s p.val h.bytes = none ∧ s.arriving (rxK p.val h.preempt) = none ∧ 64 ≤ h.len ∧ macControl h.bytes = false ∧ selfFrame s h.bytes = false ∧ s.get (PRT_GRD_CTL_EN p.val) = 0 ∧ s.get (PRT_SEC_CFG_EN p.val) = 0 ∧ s.reacting (grpK (p.val / 8)) 5 = false ∧ 
      let s2 := noteRx (demand s (portK p.val)) p.val h.varRx
      
      let x := parse (untagFrame s2 p.val h.bytes).bytes
      vlanAccepts s2 p.val x (classify s2 p.val x) = false) ∧
    (∃ p : Port, ∃ q : Nat, ∃ h : RxHdr, ∃ s : State, macUp s p.val = true ∧ copyOf s p.val h.bytes = none ∧ csOf s p.val h.bytes = none ∧ s.arriving (rxK p.val h.preempt) = none ∧ 64 ≤ h.len ∧ macControl h.bytes = false ∧ selfFrame s h.bytes = false ∧ s.get (PRT_GRD_CTL_EN p.val) = 0 ∧ s.get (PRT_SEC_CFG_EN p.val) = 0 ∧ s.reacting (grpK (p.val / 8)) 5 = false ∧ meshStops s p.val q = false ∧ 
      let s2 := noteRx (demand s (portK p.val)) p.val h.varRx
      
      let x := parse h.bytes
      
      let v := classify s2 p.val x
      
      let tc := classOf v.pcp
      vlanAccepts s2 p.val x v = true ∧ sidOf s2 x = none ∧ etherType h.bytes ≠ 0x88F7 ∧ linkLocal h.bytes = false ∧ untagFrame s2 p.val h.bytes = ⟨h.bytes, none, false⟩ ∧ groupOf s2 p.val = none ∧ groupOf s2 q = none ∧ decide6 s2 (asPort s2 p.val false) v.vid x.da false = ([q], false) ∧ s2.get (PRT_GRD_STAT_STATE q) ≠ 3 ∧ isUlc s2 q = false ∧ admits s2 q tc (cellsOf h.len) = true ∧ cutsThrough s2 p.val q tc = false) :=
  ⟨⟨127, H 60, LK 127, by decide +kernel⟩,
   ⟨127, H 63, LK 127, by decide +kernel⟩,
   ⟨127, H 64, LK 127, by decide +kernel⟩,
   ⟨127, 3, H 64, FW, by decide +kernel⟩⟩

/-- The hypotheses of FrameEnds hold together. -/
theorem witness_FrameEnds :
    (∃ p : Port, ∃ pre : Bool, ∃ e : RxEnd, ∃ o : RxOpen, ∃ s : State, s.fatal = false ∧ s.arriving (rxK p.val pre) = some o ∧ o.blocked = false ∧ o.marks = [] ∧ o.cts = [] ∧ s.heldFrames = [] ∧ (((e.frag = true ∧ pre = true) ∨ e.fcs = false ∨ s.get (PRT_STAT_LINK p.val) = 0 ∨ o.fr.len < 64))) ∧
    (∃ p : Port, ∃ pre : Bool, ∃ e : RxEnd, ∃ o : RxOpen, ∃ s : State, s.fatal = false ∧ s.arriving (rxK p.val pre) = some o ∧ o.blocked = false ∧ o.dropped = false ∧ o.late = false ∧ o.marks = [] ∧ o.cts = [] ∧ o.insts = [] ∧ o.handle = none ∧ o.sec = none ∧ o.ptp = none ∧ o.trq = none ∧ o.toHost = false ∧ o.learn = false ∧ s.heldFrames = [] ∧ (e.frag && pre) = false ∧ e.fcs = true ∧ s.get (PRT_STAT_LINK p.val) = 1 ∧ 64 ≤ o.fr.len ∧ macControl o.fr.bytes = false ∧ etherType o.fr.bytes ≠ 0x88F7) ∧
    (∃ p : Port, ∃ pre : Bool, ∃ e : RxEnd, ∃ o : RxOpen, ∃ i : Nat, ∃ s : State, s.fatal = false ∧ s.arriving (rxK p.val pre) = some o ∧ o.blocked = false ∧ o.dropped = false ∧ o.late = false ∧ o.marks = [] ∧ o.cts = [] ∧ o.insts = [] ∧ o.handle = none ∧ o.sec = none ∧ o.ptp = none ∧ o.trq = none ∧ o.toHost = false ∧ o.learn = true ∧ s.heldFrames = [] ∧ (e.frag && pre) = false ∧ e.fcs = true ∧ s.get (PRT_STAT_LINK p.val) = 1 ∧ 64 ≤ o.fr.len ∧ macControl o.fr.bytes = false ∧ etherType o.fr.bytes ≠ 0x88F7 ∧ learnPort s o.fr.inPort < 128 ∧ fdbFind s (beField o.fr.bytes 6 6) (vlanFid s o.fr.vid) = some i ∧ bits (s.strW 6 i 2) 30 28 = 0) ∧
    (∃ p : Port, ∃ pre : Bool, ∃ e : RxEnd, ∃ o : RxOpen, ∃ s : State, s.fatal = false ∧ s.arriving (rxK p.val pre) = some o ∧ o.blocked = true ∧ (e.frag && pre) = false ∧ e.fcs = true ∧ s.get (PRT_STAT_LINK p.val) = 1 ∧ 64 ≤ o.fr.len) ∧
    (∃ p : Port, ∃ pre : Bool, ∃ e : RxEnd, ∃ s : State, s.arriving (rxK p.val pre) = none) ∧
    (∃ i : Fin 262144, ∃ s : State, s.fatal = false ∧ bits (s.strW 6 i.val 2) 31 31 = 1 ∧ bits (s.strW 6 i.val 2) 30 30 = 0 ∧ s.get FWD_CFG_AGE ≠ 0 ∧ tget 0 s.fdbSeen i.val + s.get FWD_CFG_AGE * 1000000000 ≤ s.now + 1) ∧
    (∃ i : Fin 262144, ∃ s : State, ((bits (s.strW 6 i.val 2) 31 31 = 0 ∨ bits (s.strW 6 i.val 2) 30 30 = 1 ∨
        s.get FWD_CFG_AGE = 0 ∨ s.now + 1 < tget 0 s.fdbSeen i.val + s.get FWD_CFG_AGE * 1000000000))) :=
  ⟨⟨127, false, ⟨false, true, none, false⟩, RX, { LK 127 with rxOpen := [(254, some RX)], queues := [(qK 3 2, [RX.fr])] }, by decide +kernel⟩,
   ⟨127, false, ⟨true, true, none, false⟩, RX, { LK 127 with rxOpen := [(254, some RX)], queues := [(qK 3 2, [RX.fr])] }, by decide +kernel⟩,
   ⟨127, false, ⟨true, true, none, false⟩, { RX with learn := true }, 7, { LK 127 with rxOpen := [(254, some { RX with learn := true })], queues := [(qK 3 2, [RX.fr])], str := [(entK 6 7 0, 0x02AABBCC), (entK 6 7 1, 0xDDEE0000), (entK 6 7 2, 0x80000009)] }, by decide +kernel⟩,
   ⟨127, false, ⟨true, true, none, false⟩, { RX with blocked := true }, { LK 127 with rxOpen := [(254, some { RX with blocked := true })] }, by decide +kernel⟩,
   ⟨127, true, ⟨true, true, none, false⟩, R, by decide +kernel⟩,
   ⟨262143, { S [(FWD_CFG_AGE, 1)] with str := [(entK 6 262143 0, 0x02AABBCC), (entK 6 262143 1, 0xDDEE0000), (entK 6 262143 2, 0x80000009)], now := 999999999 }, by decide +kernel⟩,
   ⟨262143, R, by decide +kernel⟩⟩

/-- The hypotheses of TransmitSelection hold together. -/
theorem witness_TransmitSelection :
    (∃ p : Port, ∃ varTx : Nat, ∃ tc : Nat, ∃ f : QFrame, ∃ s : State, isUlc s p.val = false ∧ macUp s p.val = true ∧ ((∀ f ∈ s.queue p.val 8, fallsDue (planeNs s p.val varTx) f = false)) ∧ copyDue s p.val = false ∧ curPs s (portK p.val) = 0 ∧ inFlight s p.val = none ∧ hasWork s p.val = true ∧ ((expressHead s p.val = some (tc, f) ∨
        (expressHead s p.val = none ∧ held s p.val = false ∧ (s.port p.val).rest = none ∧
          (classesDown.filter (fun c => !expressTc s p.val c)).findSome? (classHead s p.val) = some (tc, f)))) ∧ f.host = none ∧ (egressBytes s p.val f).length ≤ 9212 ∧ s.get (PRT_SEC_CFG_EN p.val) = 0) ∧
    (∃ p : Port, ∃ varTx : Nat, ∃ n : Nat, ∃ f : QFrame, ∃ s : State, isUlc s p.val = false ∧ macUp s p.val = true ∧ ((∀ f ∈ s.queue p.val 8, fallsDue (planeNs s p.val varTx) f = false)) ∧ copyDue s p.val = false ∧ curPs s (portK p.val) = 0 ∧ inFlight s p.val = none ∧ expressHead s p.val = none ∧ held s p.val = false ∧ (s.port p.val).rest = some (f, n)) ∧
    (∃ p : Port, ∃ varTx : Nat, ∃ b : Nat, ∃ x : TxSt, ∃ f : QFrame, ∃ s : State, isUlc s p.val = false ∧ macUp s p.val = true ∧ ((∀ f ∈ s.queue p.val 8, fallsDue (planeNs s p.val varTx) f = false)) ∧ curPs s (portK p.val) = 0 ∧ inFlight s p.val = some x ∧ (((expressHead s p.val).isSome = true ∨ held s p.val = true)) ∧ yields s p.val x = true ∧ cutPoint s p.val x = some b ∧ x.fr = some f) ∧
    (∃ p : Port, ∃ varTx : Nat, ∃ x : TxSt, ∃ s : State, isUlc s p.val = false ∧ macUp s p.val = true ∧ ((∀ f ∈ s.queue p.val 8, fallsDue (planeNs s p.val varTx) f = false)) ∧ curPs s (portK p.val) = 0 ∧ inFlight s p.val = some x ∧ ((yields s p.val x = false ∨ cutPoint s p.val x = none))) ∧
    (∃ p : Port, ∃ varTx : Nat, ∃ s : State, isUlc s p.val = false ∧ macUp s p.val = true ∧ ((∀ f ∈ s.queue p.val 8, fallsDue (planeNs s p.val varTx) f = false)) ∧ curPs s (portK p.val) = 0 ∧ inFlight s p.val = none ∧ copyDue s p.val = true) ∧
    (∃ p : Port, ∃ varTx : Nat, ∃ s : State, ((s.fatal = true ∨ ∀ f ∈ s.queue p.val 8, fallsDue (planeNs s p.val varTx) f = false)) ∧ ((maySend s p.val = false ∨ (hasWork s p.val = false ∧ held s p.val = false)))) :=
  ⟨⟨127, 5, 2, { Q 4 with cue := false }, { LK 127 with queues := [(qK 127 2, [{ Q 4 with cue := false }])] }, by decide +kernel⟩,
   ⟨127, 5, 100, Q 4, { LK 127 with ports := [(127, { PortSt.rst with rest := some (Q 4, 100) })] }, by decide +kernel⟩,
   ⟨127, 5, 125, T0, Q 9, TP [(PRT_MM_HOLD 127, 1)], by decide +kernel⟩,
   ⟨127, 5, T0, { LK 127 with ports := [(127, { PortSt.rst with tx := some T0 })] }, by decide +kernel⟩,
   ⟨126, 5, { CFP [] with cars := [(63, { CarSt.rst with image := some (CB false) })] }, by decide +kernel⟩,
   ⟨127, 5, R, by decide +kernel⟩⟩

/-- The hypotheses of TimedReleaseVerifyTruncate hold together. -/
theorem witness_TimedReleaseVerifyTruncate :
    (∃ p : Port, ∃ varTx : Nat, ∃ s : State, s.fatal = false ∧ 
      let falls := fallsDue (planeNs s p.val varTx)
      
      let n := ((s.queue p.val 8).filter falls).length
      n ≠ 0 ∧ s.get (PRT_STAT_LINK p.val) = 0 ∧ ((∀ f ∈ s.queue p.val 8, f.host = none))) ∧
    (∃ p : Port, ∃ varTx : Nat, ∃ s : State, s.fatal = false ∧ 
      let falls := fallsDue (planeNs s p.val varTx)
      
      let n := ((s.queue p.val 8).filter falls).length
      n ≠ 0 ∧ s.get (PRT_STAT_LINK p.val) = 1 ∧ ((trqClear s p.val = false ∨ copyDue s p.val = true)) ∧ ((∀ x, inFlight s p.val = some x → yields s p.val x = false ∨ cutPoint s p.val x = none))) ∧
    (∃ p : Port, ∃ varTx : Nat, ∃ b : Nat, ∃ x : TxSt, ∃ f : QFrame, ∃ s : State, s.fatal = false ∧ 
      let falls := fallsDue (planeNs s p.val varTx)
      
      let n := ((s.queue p.val 8).filter falls).length
      n ≠ 0 ∧ s.get (PRT_STAT_LINK p.val) = 1 ∧ (s.port p.val).safe = false ∧ inFlight s p.val = some x ∧ yields s p.val x = true ∧ cutPoint s p.val x = some b ∧ x.fr = some f) ∧
    (∃ p : Port, ∃ varTx : Nat, ∃ f : QFrame, ∃ s : State, s.fatal = false ∧ 
      let falls := fallsDue (planeNs s p.val varTx)
      
      let g := { f with due := true }
      trqClear s p.val = true ∧ copyDue s p.val = false ∧ (s.queue p.val 8).find? falls = some f ∧ isUlc s p.val = false ∧ f.host = none ∧ (egressBytes s p.val g).length ≤ 9212 ∧ s.get (PRT_SEC_CFG_EN p.val) = 0) ∧
    (∃ p : Port, ∃ varTx : Nat, ∃ s : State, ((s.fatal = true ∨ ∀ f ∈ s.queue p.val 8, fallsDue (planeNs s p.val varTx) f = false))) ∧
    (∃ p : Port, ∃ s : State, s.fatal = false ∧ s.get (PRT_MM_VSTAT p.val) = 1 ∧ s.get (PRT_STAT_LINK p.val) = 1) ∧
    (∃ p : Port, ∃ s : State, s.fatal = false ∧ s.get (PRT_MM_VSTAT p.val) = 1 ∧ s.get (PRT_STAT_LINK p.val) = 1 ∧ ((s.port p.val).verAt + 1000000 * (if s.get (PRT_MM_VTIME p.val) ∈ List.range' 1 128 then s.get (PRT_MM_VTIME p.val) else 10)
        ≤ s.now)) ∧
    (∃ p : Port, ∃ s : State, s.now < (s.port p.val).verAt + verifyTime s p.val) ∧
    (∃ p : Port, ∃ ok : Bool, ∃ s : State, s.get (PRT_MM_VSTAT p.val) ≠ 1) ∧
    (∃ p : Port, ∃ pre : Bool, ∃ c : Nat, ∃ o : RxOpen, ∃ s : State, s.fatal = false ∧ s.arriving (rxK p.val pre) = some o ∧ o.blocked = false ∧ o.cut = some c ∧ 0 < diff48 (s.tbStamp 8) c ∧ ((∀ o', s.arriving (rxK p.val (!pre)) = some o' → o'.blocked = true ∨ grdOver s o'.cut = false)) ∧ ((∀ d x, tget none s.copies (copyK p.val d) = some x → grdOver s x.cut = false)) ∧ o.marks = [] ∧ o.cts = [] ∧ s.heldFrames = [] ∧ s.countsBelow (portK p.val) 4 2 p.val) ∧
    (∃ p : Port, ∃ s : State, ((∀ pre o, s.arriving (rxK p.val pre) = some o → o.blocked = true ∨ grdOver s o.cut = false)) ∧ ((∀ d x, tget none s.copies (copyK p.val d) = some x → grdOver s x.cut = false))) :=
  ⟨⟨127, 5, { R with queues := [(qK 127 8, [{ Q 4 with cue := false }])] }, by decide +kernel⟩,
   ⟨127, 5, { LK 127 with queues := [(qK 127 8, [{ Q 4 with cue := false }])], ports := [(127, { PortSt.rst with tx := some T0 })] }, by decide +kernel⟩,
   ⟨127, 5, 125, T0, Q 9, { TP [] with queues := [(qK 127 8, [{ Q 4 with cue := false }])] }, by decide +kernel⟩,
   ⟨127, 5, { Q 4 with cue := false }, { LK 127 with queues := [(qK 127 8, [{ Q 4 with cue := false }, { Q 5 with cue := false, skip := true }])] }, by decide +kernel⟩,
   ⟨127, 5, R, by decide +kernel⟩,
   ⟨127, S (ULK 127 ++ [(PRT_MM_VSTAT 127, 1)]), by decide +kernel⟩,
   ⟨127, { S (ULK 127 ++ [(PRT_MM_VSTAT 127, 1), (PRT_MM_VTIME 127, 0)]) with now := 10000000 }, by decide +kernel⟩,
   ⟨127, R, by decide +kernel⟩,
   ⟨127, true, R, by decide +kernel⟩,
   ⟨127, false, 0, { RX with cut := some 0 }, { S (ULK 127 ++ [(FLT_WATCH_N 2, 2)]) with
                  rxOpen := [(254, some { RX with cut := some 0 })], queues := [(qK 3 2, [RX.fr])], tbs := [(8, { Tb.rst with acc := 2 ^ 60 })] }, by decide +kernel⟩,
   ⟨127, R, by decide +kernel⟩⟩

/-- The hypotheses of TableAccesses hold together. -/
theorem witness_TableAccesses :
    (∃ tb : Fin 16, ∃ i : Fin 262144, ∃ s : State, s.fatal = false ∧ i.val < strSize tb.val) ∧
    (∃ tb : Fin 16, ∃ i : Fin 262144, ∃ s : State, s.fatal = false ∧ strSize tb.val ≤ i.val) ∧
    (∃ tb : Fin 16, ∃ i : Fin 262144, ∃ s : State, s.fatal = false ∧ strWriteOk tb.val i.val (fun k => s.get (STR_DATA_DATA k)) = true) ∧
    (∃ tb : Fin 16, ∃ i : Fin 262144, ∃ s : State, s.fatal = false ∧ strWriteOk tb.val i.val (fun k => s.get (STR_DATA_DATA k)) = false) ∧
    (∃ tb : Fin 16, ∃ i : Fin 262144, ∃ s : State, s.fatal = true) ∧
    (∃ tb : Fin 16, ∃ i : Fin 65536, ∃ s : State, s.fatal = false ∧ i.val < frSize tb.val) ∧
    (∃ tb : Fin 16, ∃ i : Fin 65536, ∃ s : State, s.fatal = false ∧ frSize tb.val ≤ i.val) ∧
    (∃ tb : Fin 16, ∃ i : Fin 65536, ∃ s : State, s.fatal = false ∧ ((tb.val = 0 ∨ tb.val = 1)) ∧ frWriteOk s tb.val i.val (fun k => s.get (FRER_DATA_DATA k)) = true) ∧
    (∃ i : Fin 65536, ∃ s : State, s.fatal = false ∧ frWriteOk s 2 i.val (fun k => s.get (FRER_DATA_DATA k)) = true ∧ s.heldFrames = []) ∧
    (∃ i : Fin 65536, ∃ s : State, s.fatal = false ∧ frWriteOk s 4 i.val (fun k => s.get (FRER_DATA_DATA k)) = true ∧ remoteEntry (s.frW 4 i.val 1) = false ∧ remoteEntry (s.get (FRER_DATA_DATA 1)) = false) ∧
    (∃ tb : Fin 16, ∃ i : Fin 65536, ∃ s : State, s.fatal = false ∧ frWriteOk s tb.val i.val (fun k => s.get (FRER_DATA_DATA k)) = false) :=
  ⟨⟨6, 262143, { R with str := [(entK 6 262143 2, 0x80000009)] }, by decide +kernel⟩,
   ⟨1, 16384, R, by decide +kernel⟩,
   ⟨5, 4094, S [(STR_DATA_DATA 8, 0x80000001)], by decide +kernel⟩,
   ⟨5, 4095, S [(STR_DATA_DATA 8, 0x80000001)], by decide +kernel⟩,
   ⟨5, 4095, { R with fatal := true }, by decide +kernel⟩,
   ⟨4, 4095, { R with frer := [(entK 4 4095 3, 0x80000009)] }, by decide +kernel⟩,
   ⟨1, 8192, R, by decide +kernel⟩,
   ⟨1, 8191, S [(FRER_DATA_DATA 0, 0xFFFF)], by decide +kernel⟩,
   ⟨16383, S [(FRER_DATA_DATA 0, 0xC0010005), (FRER_DATA_DATA 2, 0x80000000)], by decide +kernel⟩,
   ⟨4095, S [(FRER_DATA_DATA 1, 0xCF00), (DUP_RG_CFG_EN 15, 1)], by decide +kernel⟩,
   ⟨5, 4095, R, by decide +kernel⟩⟩

/-- The hypotheses of RecoveryTimers hold together. -/
theorem witness_RecoveryTimers :
    (∃ i : Fin 16384, ∃ s : State, s.fatal = false ∧ instValid s i.val = true ∧ bits (s.frW 2 i.val 0) 15 0 ≠ 0 ∧ (s.rec_ i.val).wasReset = false ∧ (s.rec_ i.val).lastPass + bits (s.frW 2 i.val 0) 15 0 * 1000000 < s.now) ∧
    (∃ i : Fin 16384, ∃ s : State, ((instValid s i.val = false ∨ bits (s.frW 2 i.val 0) 15 0 = 0 ∨ (s.rec_ i.val).wasReset = true ∨
        s.now ≤ (s.rec_ i.val).lastPass + bits (s.frW 2 i.val 0) 15 0 * 1000000))) ∧
    (∃ i : Fin 16384, ∃ k : Fin 4, ∃ s : State, s.fatal = false ∧ instValid s i.val = true ∧ instLossTmo s i.val ≠ 0 ∧ (instPathOk s i.val).testBit k.val = true ∧ ((∀ b, (s.rec_ i.val).good.getD k.val none = some b → b + instLossTmo s i.val * 1000000 ≤ s.now)) ∧ s.records 0 12) ∧
    (∃ i : Fin 16384, ∃ k : Fin 4, ∃ s : State, ((instLossTmo s i.val = 0 ∨ (instPathOk s i.val).testBit k.val = false ∨
        ∃ b, (s.rec_ i.val).good.getD k.val none = some b ∧ s.now < b + instLossTmo s i.val * 1000000))) ∧
    (∃ i : Fin 16384, ∃ s : State, s.fatal = false ∧ instValid s i.val = true ∧ bits (s.frW 2 i.val 0) 28 28 = 1 ∧ bits (s.frW 2 i.val 3) 31 16 ≠ 0 ∧ (s.rec_ i.val).perAt + bits (s.frW 2 i.val 3) 31 16 * 1000000 ≤ s.now) ∧
    (∃ i : Nat, ∃ s : State, s.laerrs = [i] ∧ latentDiff s i ≤ bits (s.frW 2 i 2) 15 0) ∧
    (∃ i : Fin 16384, ∃ s : State, s.laerrs = [i.val] ∧ instValid s i.val = true ∧ (bits (s.frW 2 i.val 2) 15 0 : Int) < latentDiff s i.val ∧ s.records 0 12) ∧
    (∃ i : Fin 16384, ∃ s : State, s.fatal = false ∧ instValid s i.val = true ∧ bits (s.frW 2 i.val 0) 28 28 = 1 ∧ (s.rec_ i.val).resetAt + bits (s.frW 2 i.val 3) 15 0 * 1000000 ≤ s.now) ∧
    (∃ e : Fin 4096, ∃ s : State, s.fatal = false ∧ bits (s.frW 4 e.val 1) 15 15 = 1 ∧ bits (s.frW 4 e.val 1) 13 13 = 0 ∧ tget 0 s.nodeSeen e.val + 1000 * max 1 (s.get DUP_CFG_NODE_FORGET) * 1000000 ≤ s.now) ∧
    (∃ e : Fin 4096, ∃ s : State, ((bits (s.frW 4 e.val 1) 15 15 = 0 ∨ bits (s.frW 4 e.val 1) 13 13 = 1 ∨
        s.now < tget 0 s.nodeSeen e.val + 1000 * max 1 (s.get DUP_CFG_NODE_FORGET) * 1000000))) :=
  ⟨⟨16383, { R with frer := [(entK 2 16383 0, 0x80010005)], now := 5000001 }, by decide +kernel⟩,
   ⟨16383, R, by decide +kernel⟩,
   ⟨16383, 3, { R with frer := [(entK 2 16383 0, 0x80010005), (entK 2 16383 2, 0x80050000), (entK 2 16383 4, 0x00000F00)], now := 5000000 }, by decide +kernel⟩,
   ⟨16383, 3, R, by decide +kernel⟩,
   ⟨16383, { R with frer := [(entK 2 16383 0, 0x90010005), (entK 2 16383 2, 0x80050000), (entK 2 16383 3, 0x00050005)], now := 5000000 }, by decide +kernel⟩,
   ⟨16383, { R with laerrs := [16383] }, by decide +kernel⟩,
   ⟨16383, { R with frer := [(entK 2 16383 0, 0x90010005), (entK 2 16383 2, 0x80050000), (entK 2 16383 3, 0x00050005), (entK 3 16383 0, 5)], now := 5000000, laerrs := [16383] }, by decide +kernel⟩,
   ⟨16383, { R with frer := [(entK 2 16383 0, 0x90010005), (entK 2 16383 3, 0x00050005), (entK 3 16383 0, 5)], now := 5000000 }, by decide +kernel⟩,
   ⟨4095, { R with frer := [(entK 4 4095 0, 0x90010005), (entK 4 4095 1, 0x8000)], now := 1000000000000 }, by decide +kernel⟩,
   ⟨4095, R, by decide +kernel⟩⟩

/-- The hypotheses of CarafeSends hold together. -/
theorem witness_CarafeSends :
    (∃ c : Fin 64, ∃ varA : Nat, ∃ varB : Nat, ∃ img : Bytes, ∃ s : State, s.fatal = false ∧ (s.car c.val).image = some img ∧ s.crf.win = true ∧ 
      let pa := s.get (CRF_CAR_RING_A_OUT c.val)
      
      let pb := s.get (CRF_CAR_RING_B_OUT c.val)
      0 ≤ sinceWin s (s.get (CRF_CAR_LOFS_LOFS c.val)) + max (txCorr s pa varA) (txCorr s pb varB) ∧ 0 ≤ launchLate s c.val pa varA ∧ 0 ≤ launchLate s c.val pb varB ∧ pa ≠ pb ∧ ((∀ p ∈ [pa, pb], s.get (PRT_STAT_LINK p) = 1 ∧ (s.port p).memHalt = false ∧ s.get (PRT_SEC_CFG_EN p) = 0 ∧
        inFlight s p = none ∧ curPs s (portK p) = 0 ∧ (s.port p).jobs = []))) ∧
    (∃ c : Fin 64, ∃ varA : Nat, ∃ varB : Nat, ∃ img : Bytes, ∃ s : State, s.fatal = false ∧ (s.car c.val).image = some img ∧ s.crf.win = true ∧ 
      let pa := s.get (CRF_CAR_RING_A_OUT c.val)
      
      let pb := s.get (CRF_CAR_RING_B_OUT c.val)
      0 ≤ sinceWin s (s.get (CRF_CAR_LOFS_LOFS c.val)) + max (txCorr s pa varA) (txCorr s pb varB) ∧ 0 ≤ launchLate s c.val pa varA ∧ 0 ≤ launchLate s c.val pb varB ∧ ((∀ p ∈ [pa, pb], s.get (PRT_STAT_LINK p) = 0 ∧ inFlight s p = none ∧ (s.port p).jobs = []))) ∧
    (∃ c : Fin 64, ∃ varA : Nat, ∃ varB : Nat, ∃ img : Bytes, ∃ xa : TxSt, ∃ xb : TxSt, ∃ s : State, s.fatal = false ∧ (s.car c.val).image = some img ∧ s.crf.win = true ∧ 
      let pa := s.get (CRF_CAR_RING_A_OUT c.val)
      
      let pb := s.get (CRF_CAR_RING_B_OUT c.val)
      0 ≤ sinceWin s (s.get (CRF_CAR_LOFS_LOFS c.val)) + max (txCorr s pa varA) (txCorr s pb varB) ∧ pa ≠ pb ∧ inFlight s pa = some xa ∧ yields s pa xa = false ∧ inFlight s pb = some xb ∧ yields s pb xb = false ∧ (s.port pa).jobs = [] ∧ (s.port pb).jobs = [] ∧ curPs s (portK pa) = 0 ∧ curPs s (portK pb) = 0) ∧
    (∃ c : Fin 64, ∃ varA : Nat, ∃ varB : Nat, ∃ s : State, (((s.car c.val).image = none ∨ s.crf.win = false ∨
        sinceWin s (s.get (CRF_CAR_LOFS_LOFS c.val)) +
          max (txCorr s (s.get (CRF_CAR_RING_A_OUT c.val)) varA) (txCorr s (s.get (CRF_CAR_RING_B_OUT c.val)) varB) < 0))) ∧
    (∃ p : Port, ∃ h : RxHdr, ∃ varTx : Nat, ∃ c : Nat, ∃ dirB : Bool, ∃ s : State, macUp s p.val = true ∧ dueParts s = s ∧ copyOf s p.val h.bytes = some (c, dirB) ∧ s.get (PRT_GRD_CTL_EN p.val) = 0 ∧ s.get (PRT_SEC_CFG_EN p.val) = 0 ∧ ((s.crf.win = false ∨ s.crf.tick ≠ beField h.bytes 16 4))) ∧
    (∃ p : Port, ∃ h : RxHdr, ∃ varTx : Nat, ∃ c : Nat, ∃ dirB : Bool, ∃ s : State, macUp s p.val = true ∧ dueParts s = s ∧ copyOf s p.val h.bytes = some (c, dirB) ∧ s.get (CRF_CAR_CFG_HEAD c) = 0 ∧ s.get (PRT_GRD_CTL_EN p.val) = 0 ∧ s.get (PRT_SEC_CFG_EN p.val) = 0 ∧ s.crf.win = true ∧ s.crf.tick = beField h.bytes 16 4 ∧ copyChecks s c dirB h.bytes = true ∧ 
      let o := s.get (if dirB then CRF_CAR_RING_B_OUT c else CRF_CAR_RING_A_OUT c)
      s.get (PRT_SEC_CFG_EN o) = 0 ∧ inFlight s o = none ∧ (s.port o).jobs = [] ∧ freshLink s p.val = false ∧ freshLink s o = false) ∧
    (∃ p : Port, ∃ h : RxHdr, ∃ varTx : Nat, ∃ c : Nat, ∃ dirB : Bool, ∃ s : State, macUp s p.val = true ∧ dueParts s = s ∧ copyOf s p.val h.bytes = some (c, dirB) ∧ s.get (CRF_CAR_CFG_HEAD c) = 1 ∧ s.get (PRT_GRD_CTL_EN p.val) = 0 ∧ s.get (PRT_SEC_CFG_EN p.val) = 0 ∧ s.crf.win = true ∧ s.crf.tick = beField h.bytes 16 4 ∧ copyChecks s c dirB h.bytes = true) ∧
    (∃ p : Nat, ∃ c : Nat, ∃ id : Nat, ∃ len : Nat, ∃ rx : Nat, ∃ r : Nat, ∃ var : Nat, ∃ k : Nat, ∃ dirB : Bool, ∃ b : Bytes, ∃ x : CopySt, ∃ s : State, canSend s p = true ∧ inFlight s p = none ∧ curPs s (portK p) = 0 ∧ s.get (PRT_SEC_CFG_EN p) = 0 ∧ (s.port p).jobs = [⟨.copy id c dirB len b rx true none, r, var⟩] ∧ r ≤ s.now ∧ freshLink s p = false ∧ (freshLink s (s.get (if dirB then CRF_CAR_RING_B_IN c else CRF_CAR_RING_A_IN c)) = false) ∧ tget none s.copies k = some x ∧ x.id = id) ∧
    (∃ p : Nat, ∃ c : Nat, ∃ id : Nat, ∃ len : Nat, ∃ rx : Nat, ∃ r : Nat, ∃ var : Nat, ∃ k : Nat, ∃ dirB : Bool, ∃ b : Bytes, ∃ x : CopySt, ∃ s : State, s.get (PRT_STAT_LINK p) = 0 ∧ inFlight s p = none ∧ (s.port p).jobs = [⟨.copy id c dirB len b rx true none, r, var⟩] ∧ r ≤ s.now ∧ tget none s.copies k = some x ∧ x.id = id) ∧
    (∃ p : Port, ∃ h : RxHdr, ∃ varTx : Nat, ∃ s : State, copyOf s p.val h.bytes = none) :=
  ⟨⟨63, 3, 4, CB false, { CFP [] with cars := [(63, { CarSt.rst with image := some (CB false) })] }, by decide +kernel⟩,
   ⟨63, 3, 4, CB false, { S CFR with cars := [(63, { CarSt.rst with image := some (CB false) })], crf := ⟨true, 7, 0, false, none⟩ }, by decide +kernel⟩,
   ⟨63, 3, 4, CB false, T1, T1, { CFP [] with
                  cars := [(63, { CarSt.rst with image := some (CB false) })], ports := [(124, { PortSt.rst with tx := some T1 }), (126, { PortSt.rst with tx := some T1 })] }, by decide +kernel⟩,
   ⟨63, 3, 4, R, by decide +kernel⟩,
   ⟨127, CH false, 5, 63, false, { CFP [] with crf := ⟨true, 8, 0, false, none⟩ }, by decide +kernel, (by rfl), by decide +kernel⟩,
   ⟨127, CH false, 5, 63, false, CFP STN, by decide +kernel, (by rfl), by decide +kernel⟩,
   ⟨127, CH false, 5, 63, false, CFP ([(CRF_CAR_CFG_HEAD 63, 1)] ++ STN), by decide +kernel, (by rfl), by decide +kernel⟩,
   ⟨126, 63, 77, 78, 5, 99999, 7, copyK 127 false, false, CB false, CY false, { CFP [] with
                  ports := [(126, { PortSt.rst with jobs := [⟨.copy 77 63 false 78 (CB false) 5 true none, 99999, 7⟩] })], copies := [(copyK 127 false, some (CY false))] }, by decide +kernel⟩,
   ⟨126, 63, 77, 78, 5, 99999, 7, copyK 127 false, false, CB false, CY false, { S CFR with
                  now := 100000, ports := [(126, { PortSt.rst with jobs := [⟨.copy 77 63 false 78 (CB false) 5 true none, 99999, 7⟩] })]
                  copies := [(copyK 127 false, some (CY false))] }, by decide +kernel⟩,
   ⟨127, H 64, 5, R, by decide +kernel⟩⟩

/-- The hypotheses of CarafeCopiesEnd hold together. -/
theorem witness_CarafeCopiesEnd :
    (∃ p : Port, ∃ dirB : Bool, ∃ e : RxEnd, ∃ rxLen : Nat, ∃ x : CopySt, ∃ s : State, s.fatal = false ∧ tget none s.copies (copyK p.val dirB) = some x ∧ x.fate = .dropped ∧ s.get (CRF_CAR_CFG_HEAD x.car) = 0 ∧ s.get (PRT_STAT_LINK p.val) = 1 ∧ (s.port p.val).memHalt = false ∧ s.get (PRT_SEC_CFG_EN p.val) = 0 ∧ e.fcs = true) ∧
    (∃ p : Port, ∃ dirB : Bool, ∃ e : RxEnd, ∃ rxLen : Nat, ∃ x : CopySt, ∃ s : State, s.fatal = false ∧ tget none s.copies (copyK p.val dirB) = some x ∧ s.get (CRF_CAR_CFG_HEAD x.car) = 0 ∧ ((x.fate = .cut ∨ (x.fate = .blocked ∧ e.fcs = true ∧ s.get (PRT_STAT_LINK p.val) = 1 ∧ (s.port p.val).memHalt = false)))) ∧
    (∃ p : Port, ∃ dirB : Bool, ∃ e : RxEnd, ∃ rxLen : Nat, ∃ s : State, tget none s.copies (copyK p.val dirB) = none) ∧
    (∃ p : Port, ∃ dirB : Bool, ∃ e : RxEnd, ∃ rxLen : Nat, ∃ l : Nat, ∃ x : CopySt, ∃ s : State, s.fatal = false ∧ tget none s.copies (copyK p.val dirB) = some x ∧ x.fate = .taken ∧ s.get (CRF_CAR_CFG_HEAD x.car) = 0 ∧ x.sec = none ∧ (x.uif = false) ∧ x.mism = false ∧ x.sent = true ∧ x.loop = some l ∧ x.broken = false ∧ x.sa = none ∧ rxLen = carLen s x.car ∧ stationsOf s x.car = [] ∧ cutDue s = false ∧ s.get (PRT_STAT_LINK p.val) = 1 ∧ (s.port p.val).memHalt = false) ∧
    (∃ p : Port, ∃ dirB : Bool, ∃ e : RxEnd, ∃ rxLen : Nat, ∃ x : CopySt, ∃ s : State, s.fatal = false ∧ tget none s.copies (copyK p.val dirB) = some x ∧ x.fate = .taken ∧ s.get (CRF_CAR_CFG_HEAD x.car) = 0 ∧ x.sec = none ∧ (x.uif = false) ∧ x.mism = false ∧ e.fcs = true ∧ s.get (PRT_STAT_LINK p.val) = 1 ∧ (s.port p.val).memHalt = false ∧ rxLen = carLen s x.car ∧ s.crf.win = true ∧ s.crf.tick = x.tick ∧ s.crf.cut = false ∧ cutDue s = false ∧ ((∀ st ∈ stationsOf s x.car, giveupDue s st = false))) ∧
    (∃ p : Port, ∃ dirB : Bool, ∃ e : RxEnd, ∃ rxLen : Nat, ∃ x : CopySt, ∃ s : State, s.fatal = false ∧ tget none s.copies (copyK p.val dirB) = some x ∧ x.fate = .taken ∧ s.get (CRF_CAR_CFG_HEAD x.car) = 0 ∧ x.sec = none ∧ e.fcs = false ∧ s.crf.win = true ∧ s.crf.tick = x.tick ∧ s.crf.cut = false ∧ cutDue s = false ∧ ((∀ st ∈ stationsOf s x.car, giveupDue s st = false))) ∧
    (∃ p : Port, ∃ dirB : Bool, ∃ e : RxEnd, ∃ rxLen : Nat, ∃ x : CopySt, ∃ s : State, s.fatal = false ∧ tget none s.copies (copyK p.val dirB) = some x ∧ x.fate = .taken ∧ s.get (CRF_CAR_CFG_HEAD x.car) = 0 ∧ x.sec = none ∧ (x.uif = false) ∧ x.mism = false ∧ e.fcs = true ∧ s.get (PRT_STAT_LINK p.val) = 1 ∧ (s.port p.val).memHalt = false ∧ rxLen = carLen s x.car ∧ s.crf.cut = true) ∧
    (∃ p : Port, ∃ h : RxHdr, ∃ e : RxEnd, ∃ c : Nat, ∃ dirB : Bool, ∃ s : State, macUp s p.val = true ∧ dueParts s = s ∧ copyOf s p.val h.bytes = some (c, dirB) ∧ s.get (CRF_CAR_CFG_HEAD c) = 1 ∧ tget none s.copies (copyK p.val dirB) = none ∧ s.get (PRT_GRD_CTL_EN p.val) = 0 ∧ s.get (PRT_SEC_CFG_EN p.val) = 0 ∧ ((∀ w, windowAt s (h.len * 8 * 65536 / max 1 (portSpeed s p.val)) = some w → w.1 ≠ beField h.bytes 16 4))) ∧
    (∃ p : Port, ∃ h : RxHdr, ∃ e : RxEnd, ∃ c : Nat, ∃ dirB : Bool, ∃ s : State, macUp s p.val = true ∧ dueParts s = s ∧ copyOf s p.val h.bytes = some (c, dirB) ∧ s.get (CRF_CAR_CFG_HEAD c) = 1 ∧ tget none s.copies (copyK p.val dirB) = none ∧ s.get (PRT_GRD_CTL_EN p.val) = 0 ∧ s.get (PRT_SEC_CFG_EN p.val) = 0 ∧ s.crf.win = true ∧ s.crf.cut = false ∧ cutDue s = false ∧ ((∀ st ∈ stationsOf s c, giveupDue s st = false)) ∧ windowAt s (h.len * 8 * 65536 / max 1 (portSpeed s p.val)) = some (s.crf.tick, true) ∧ s.crf.tick = beField h.bytes 16 4 ∧ copyChecks s c dirB h.bytes = true ∧ e.fcs = true ∧ (copyUif h.bytes = false) ∧ h.len = carLen s c ∧ sinceWin s (s.get (CRF_CAR_RDL_RDL c)) ≤ 0 ∧ (s.car c).retA = none ∧ (s.car c).retB = none ∧ (s.car c).first = none) ∧
    (∃ p : Port, ∃ h : RxHdr, ∃ e : RxEnd, ∃ c : Nat, ∃ dirB : Bool, ∃ x : CopySt, ∃ s : State, s.fatal = false ∧ copyOf s p.val h.bytes = some (c, dirB) ∧ s.get (CRF_CAR_CFG_HEAD c) = 1 ∧ tget none s.copies (copyK p.val dirB) = some x ∧ x.car = c ∧ x.fate = .taken ∧ x.sec = none ∧ (x.uif = false) ∧ x.mism = false ∧ e.fcs = true ∧ s.get (PRT_STAT_LINK p.val) = 1 ∧ (s.port p.val).memHalt = false ∧ h.len = carLen s c ∧ inWindow s x = true ∧ cutDue s = false ∧ ((∀ st ∈ stationsOf s c, giveupDue s st = false)) ∧ sinceWin s (s.get (CRF_CAR_RDL_RDL c)) ≤ 0 ∧ (s.car c).retA = none ∧ (s.car c).retB = none ∧ (s.car c).first = none) ∧
    (∃ p : Port, ∃ h : RxHdr, ∃ e : RxEnd, ∃ c : Nat, ∃ dirB : Bool, ∃ x : CopySt, ∃ s : State, s.fatal = false ∧ copyOf s p.val h.bytes = some (c, dirB) ∧ s.get (CRF_CAR_CFG_HEAD c) = 1 ∧ tget none s.copies (copyK p.val dirB) = some x ∧ x.car = c ∧ x.fate = .taken ∧ x.sec = none ∧ (x.uif = false) ∧ x.mism = false ∧ e.fcs = true ∧ s.get (PRT_STAT_LINK p.val) = 1 ∧ (s.port p.val).memHalt = false ∧ h.len = carLen s c ∧ inWindow s x = false ∧ cutDue s = false ∧ ((∀ st ∈ stationsOf s c, giveupDue s st = false))) ∧
    (∃ st : Fin 64, ∃ data : Bytes, ∃ reuse : Bool, ∃ s : State, s.fatal = false ∧ inRing s st.val = true ∧ s.crf.win = true ∧ s.crf.cut = false ∧ s.get (CRF_ST_GIVEUP_GIVEUP st.val) ≠ 0 ∧ (s.stn st.val).gpass = false ∧ 0 ≤ sinceWin s (s.get (CRF_ST_GIVEUP_GIVEUP st.val)) ∧ (s.stn st.val).first = some (data, reuse) ∧ (s.stn st.val).age.length = 4 ∧ rangesOf s st.val ≠ []) ∧
    (∃ st : Fin 64, ∃ s : State, s.fatal = false ∧ inRing s st.val = true ∧ s.crf.win = true ∧ s.crf.cut = false ∧ s.get (CRF_ST_GIVEUP_GIVEUP st.val) ≠ 0 ∧ (s.stn st.val).gpass = false ∧ 0 ≤ sinceWin s (s.get (CRF_ST_GIVEUP_GIVEUP st.val)) ∧ (s.stn st.val).first = none) ∧
    (∃ st : Fin 64, ∃ s : State, s.get (CRF_ST_GIVEUP_GIVEUP st.val) = 0) ∧
    (∃ c : Fin 64, ∃ s : State, s.fatal = false ∧ s.crf.win = true ∧ s.crf.cut = false ∧ s.get (CRF_CAR_CFG_EN c.val) = 1 ∧ s.get (CRF_CAR_CFG_HEAD c.val) = 1 ∧ 0 ≤ sinceWin s (s.get (CRF_CAR_RDL_RDL c.val))) ∧
    (∃ c : Fin 64, ∃ s : State, s.get (CRF_CAR_CFG_HEAD c.val) = 0) :=
  ⟨⟨127, false, ⟨true, true, none, false⟩, 78, { CY false with fate := .dropped }, { CFP STN with copies := [(copyK 127 false, some { CY false with fate := .dropped })] }, by decide +kernel⟩,
   ⟨127, false, ⟨true, true, none, false⟩, 78, { CY false with fate := .blocked }, { CFP STN with copies := [(copyK 127 false, some { CY false with fate := .blocked })] }, by decide +kernel⟩,
   ⟨127, true, ⟨true, true, none, false⟩, 78, LK 127, by decide +kernel⟩,
   ⟨127, false, ⟨false, true, none, false⟩, 78, 9, { CY false with loop := some 9 }, { CFP [] with copies := [(copyK 127 false, some { CY false with loop := some 9 })] }, by decide +kernel⟩,
   ⟨127, false, ⟨true, true, none, false⟩, 78, CY false, { CFP STN with copies := [(copyK 127 false, some (CY false))] }, by decide +kernel⟩,
   ⟨127, false, ⟨false, true, none, false⟩, 78, CY false, { CFP STN with copies := [(copyK 127 false, some (CY false))] }, by decide +kernel⟩,
   ⟨127, false, ⟨true, true, none, false⟩, 78, CY false, { CFP STN with copies := [(copyK 127 false, some (CY false))], crf := ⟨true, 7, 0, true, none⟩ }, by decide +kernel⟩,
   ⟨127, CH false, ⟨true, true, none, false⟩, 63, false, { CFP [(CRF_CAR_CFG_HEAD 63, 1)] with crf := ⟨true, 8, 0, true, none⟩ }, by decide +kernel, (by rfl), by decide +kernel⟩,
   ⟨127, CH false, ⟨true, true, none, false⟩, 63, false, CFP ([(CRF_CAR_CFG_HEAD 63, 1)] ++ STN), by decide +kernel, (by rfl), by decide +kernel⟩,
   ⟨127, CH false, ⟨true, true, none, false⟩, 63, false, CY false, { CFP ([(CRF_CAR_CFG_HEAD 63, 1)] ++ STN) with copies := [(copyK 127 false, some (CY false))] }, by decide +kernel⟩,
   ⟨127, CH false, ⟨true, true, none, false⟩, 63, false, { CY false with tick := 6 }, { CFP ([(CRF_CAR_CFG_HEAD 63, 1)] ++ STN) with copies := [(copyK 127 false, some { CY false with tick := 6 })] }, by decide +kernel⟩,
   ⟨62, List.replicate 16 0x77, false, { CFP STN with stns := [(62, { StnSt.rst with first := some (List.replicate 16 0x77, false), aOk := true })], tbs := [(0, { Tb.rst with acc := 2 ^ 60 })] }, by decide +kernel⟩,
   ⟨62, { CFP STN with tbs := [(0, { Tb.rst with acc := 2 ^ 60 })] }, by decide +kernel⟩,
   ⟨63, R, by decide +kernel⟩,
   ⟨63, CFP [(CRF_CAR_CFG_HEAD 63, 1)], by decide +kernel⟩,
   ⟨63, R, by decide +kernel⟩⟩

/-- The hypotheses of SipCutAndRemoteStations hold together. -/
theorem witness_SipCutAndRemoteStations :
    (∃ s : State, s.fatal = false ∧ s.tick.run = true ∧ 0 ≤ diff48 (s.tbStamp s.tickTb) (s.tick.next + 2 ^ 48 - 6553600) ∧ s.crf.win = true ∧ s.crf.cut = false ∧ s.crf.start ≠ s.tick.next) ∧
    (∃ s : State, ((s.tick.run = false ∨ diff48 (s.tbStamp s.tickTb) (s.tick.next + 2 ^ 48 - 6553600) < 0))) ∧
    (∃ st : Fin 64, ∃ s : State, s.fatal = false ∧ s.get CRF_CTL_RUN = 1 ∧ s.get (CRF_ST_CFG_EN st.val) = 1 ∧ servesRemote s st.val = true ∧ 0 ≤ diff48 (s.tbStamp s.tickTb) (s.tick.next + 2 ^ 48 - 65536 * 2030) ∧ s.get (CRF_ST_CFG_HOSTB st.val) = 0 ∧ (s.stn st.val).rtick ≠ s.tick.idx + 1) ∧
    (∃ st : Fin 64, ∃ age : Fin 4, ∃ data : Bytes, ∃ s : State, s.fatal = false ∧ s.get (CRF_ST_CFG_EN st.val) = 1 ∧ s.get (CRF_ST_REMOTE_EN st.val) = 1 ∧ servesRemote s st.val = false) ∧
    (∃ st : Fin 64, ∃ k : Fin 4, ∃ age : Fin 4, ∃ data : Bytes, ∃ s : State, s.fatal = false ∧ s.get (CRF_ST_CFG_EN st.val) = 1 ∧ s.get (CRF_ST_REMOTE_EN st.val) = 1 ∧ servesRemote s st.val = true ∧ s.crf.win = true ∧ s.crf.cut = false ∧ beField data 2 1 % 2 = 0) :=
  ⟨⟨{ CFP STN with tick := TK, crf := ⟨true, 7, 5, false, none⟩ }, by decide +kernel⟩,
   ⟨R, by decide +kernel⟩,
   ⟨62, { CFP (STN ++ [(CRF_ST_REMOTE_EN 62, 1), (CRF_CAR_CFG_EN 63, 0)]) with tick := TK }, by decide +kernel⟩,
   ⟨62, 3, List.replicate 16 0x77, { CFP (STN ++ [(CRF_ST_REMOTE_EN 62, 1), (CRF_ST_POUR_LEN 62, 12)]) with tick := TK }, by decide +kernel⟩,
   ⟨62, 3, 3, [62, 3, 0, 0, 1, 2, 3], { CFP (STN ++ [(CRF_ST_REMOTE_EN 62, 1), (CRF_CAR_CFG_EN 63, 0)]) with tick := TK }, by decide +kernel⟩⟩

/-- The hypotheses of ColdStart hold together. -/
theorem witness_ColdStart :
    (∃ n : TbIx, ∃ p : Port, ∃ h : RxHdr, ∃ varTx : TxSfds, ∃ s : State, macUp s p.val = true ∧ csOf s p.val h.bytes = some n.val ∧ s.get (PRT_GRD_CTL_EN p.val) = 0 ∧ s.get (PRT_SEC_CFG_EN p.val) = 0 ∧ beField h.bytes 17 1 ≤ 1 ∧ csState s n.val = 0) ∧
    (∃ n : TbIx, ∃ p : Port, ∃ h : RxHdr, ∃ varTx : TxSfds, ∃ s : State, macUp s p.val = true ∧ csOf s p.val h.bytes = some n.val ∧ s.get (PRT_GRD_CTL_EN p.val) = 0 ∧ s.get (PRT_SEC_CFG_EN p.val) = 0 ∧ beField h.bytes 17 1 ≤ 1 ∧ csState s n.val = 1 ∧ beField h.bytes 16 1 ≠ s.get (SYN_CS_CTL_ID n.val) ∧ beField h.bytes 14 1 % 2 = 1 ∧ csWas s n.val = none) ∧
    (∃ n : TbIx, ∃ p : Port, ∃ h : RxHdr, ∃ varTx : TxSfds, ∃ t0 : Nat, ∃ s : State, macUp s p.val = true ∧ csOf s p.val h.bytes = some n.val ∧ s.get (PRT_GRD_CTL_EN p.val) = 0 ∧ s.get (PRT_SEC_CFG_EN p.val) = 0 ∧ beField h.bytes 17 1 ≤ 1 ∧ csState s n.val = 2 ∧ beField h.bytes 16 1 ≠ s.get (SYN_CS_CTL_ID n.val) ∧ beField h.bytes 14 1 % 2 = 0 ∧ (s.cst n.val).lastSend = some t0 ∧ s.now - t0 < csSlot s n.val ∧ csWas s n.val = none) ∧
    (∃ n : TbIx, ∃ p : Port, ∃ h : RxHdr, ∃ varTx : TxSfds, ∃ a : CsFirst, ∃ s : State, macUp s p.val = true ∧ csOf s p.val h.bytes = some n.val ∧ s.get (PRT_GRD_CTL_EN p.val) = 0 ∧ s.get (PRT_SEC_CFG_EN p.val) = 0 ∧ beField h.bytes 17 1 ≤ 1 ∧ csState s n.val = 4 ∧ beField h.bytes 16 1 ≠ s.get (SYN_CS_CTL_ID n.val) ∧ beField h.bytes 14 1 % 2 = 1 ∧ (s.cst n.val).first = some a ∧ ((∀ x, (s.cst n.val).lastAny = some x → x.2 ≠ s.now)) ∧ 
      let var := sfdOn s p.val h.varRx
      
      let time := (beField h.bytes 20 6 + beField h.bytes 26 6 + 65536 * s.get (PRT_CS_DLY_DLY p.val)) % 2 ^ 48
      
      let f : CsFirst := ⟨beField h.bytes 16 1, 1, beField h.bytes 18 2, time, rxStamp s p.val var 8⟩
      csConsistent s n.val a f = true) ∧
    (∃ n : TbIx, ∃ s : State, s.fatal = false ∧ csState s n.val = 1 ∧ (s.cst n.val).timer ≤ s.now) ∧
    (∃ n : TbIx, ∃ s : State, s.fatal = false ∧ csState s n.val = 3 ∧ (s.cst n.val).timer ≤ s.now) ∧
    (∃ n : TbIx, ∃ s : State, s.fatal = false ∧ csState s n.val = 4 ∧ (s.cst n.val).timer ≤ s.now) ∧
    (∃ n : TbIx, ∃ s : State, s.fatal = false ∧ csState s n.val = 2 ∧ 2 ≤ (s.cst n.val).sent ∧ (s.cst n.val).lastSend.getD s.now + csSlot s n.val ≤ s.now) ∧
    (∃ n : TbIx, ∃ s : State, csState s n.val ≠ 1) ∧
    (∃ n : TbIx, ∃ s : State, csState s n.val ≠ 3) ∧
    (∃ n : TbIx, ∃ s : State, csState s n.val ≠ 4) ∧
    (∃ n : TbIx, ∃ s : State, s.now < (s.cst n.val).timer) ∧
    (∃ n : TbIx, ∃ s : State, s.now < (s.cst n.val).timer) ∧
    (∃ n : TbIx, ∃ s : State, s.fatal = false ∧ csOn s n.val = true ∧ csState s n.val ≠ 0) ∧
    (∃ n : TbIx, ∃ varTx : TxSfds, ∃ s : State, s.fatal = false ∧ ((csState s n.val = 2 ∨ csState s n.val = 5)) ∧ (s.cst n.val).timer ≤ s.now ∧ (s.cst n.val).lastRx = [] ∧ csPorts s n.val = []) ∧
    (∃ n : TbIx, ∃ varTx : TxSfds, ∃ p : Nat, ∃ s : State, s.fatal = false ∧ ((csState s n.val = 2 ∨ csState s n.val = 5)) ∧ (s.cst n.val).timer ≤ s.now ∧ (s.cst n.val).lastRx = [] ∧ csPorts s n.val = [p] ∧ s.get (PRT_STAT_LINK p) = 1 ∧ (s.port p).memHalt = false ∧ s.get (PRT_SEC_CFG_EN p) = 0 ∧ curPs s (portK p) = 0 ∧ inFlight s p = none ∧ (s.port p).jobs = []) :=
  ⟨⟨7, 127, CSH 0 4 1 1000, [(127, 5)], CSF 0 CstSt.rst, by decide +kernel⟩,
   ⟨7, 127, CSH 1 4 1 1000, [(127, 5)], CSF 1 CstSt.rst, by decide +kernel⟩,
   ⟨7, 127, CSH 0 4 1 1000, [(127, 5)], 95000, CSF 2 { CstSt.rst with lastSend := some 95000 }, by decide +kernel⟩,
   ⟨7, 127, CSH 1 4 2 1000, [(127, 5)], ⟨4, 1, 1, 1000, rxStamp (CSF 4 CstSt.rst) 127 5 8⟩, CSF 4 { CstSt.rst with first := some ⟨4, 1, 1, 1000, rxStamp (CSF 4 CstSt.rst) 127 5 8⟩ }, by decide +kernel⟩,
   ⟨7, CSF 1 { CstSt.rst with timer := 100000 }, by decide +kernel⟩,
   ⟨7, CSF 3 { CstSt.rst with timer := 100000 }, by decide +kernel⟩,
   ⟨7, CSF 4 { CstSt.rst with timer := 100000 }, by decide +kernel⟩,
   ⟨7, CSF 2 { CstSt.rst with timer := 100000, sent := 2, lastSend := some 90000 }, by decide +kernel⟩,
   ⟨7, CSF 2 CstSt.rst, by decide +kernel⟩,
   ⟨7, CSF 2 CstSt.rst, by decide +kernel⟩,
   ⟨7, CSF 2 CstSt.rst, by decide +kernel⟩,
   ⟨7, CSF 2 { CstSt.rst with timer := 100001 }, by decide +kernel⟩,
   ⟨7, CSF 2 { CstSt.rst with timer := 100001 }, by decide +kernel⟩,
   ⟨7, CSF 5 { CstSt.rst with timer := 100001 }, by decide +kernel⟩,
   ⟨7, [(127, 5)], { S [(SYN_CS_CTL_EN 7, 1), (SYN_CS_STAT_STATE 7, 5)] with now := 5 }, by decide +kernel⟩,
   ⟨7, [(127, 5)], 127, CSF 2 CstSt.rst, by decide +kernel⟩⟩

/-- The hypotheses of TimeBases hold together. -/
theorem witness_TimeBases :
    (∃ s : State, ∃ n, n < 8) ∧
    (∃ s : State, ∃ n, n < 9) ∧
    (∃ n : TbIx, ∃ v : Word, ∃ s : State, s.fatal = false) ∧
    (∃ n : Fin 9, ∃ s : State, (s.tb n.val).wrapDue = true) ∧
    (∃ n : Fin 9, ∃ s : State, (s.tb n.val).wrapDue = false) ∧
    (∃ s : State, s.fatal = false) ∧
    (∃ s : State, s.records 0 7) :=
  ⟨⟨{ R with tbs := [(7, { Tb.rst with acc := 2 ^ 72 - 5, servo := -99999999999 })] }, 7, by decide +kernel⟩,
   ⟨{ R with tbs := [(7, { Tb.rst with acc := 2 ^ 72 - 5, servo := -99999999999 })] }, 8, by decide +kernel⟩,
   ⟨7, 0x1FF, R, by decide +kernel⟩,
   ⟨8, { R with tbs := [(8, { Tb.rst with wrapDue := true })] }, by decide +kernel⟩,
   ⟨8, R, by decide +kernel⟩,
   ⟨{ R with tbs := [(8, { Tb.rst with acc := 2 ^ 71 + 12345678 })] }, by decide +kernel⟩,
   ⟨R, by decide +kernel⟩⟩

/-- The hypotheses of StepsAndGrants hold together. -/
theorem witness_StepsAndGrants :
    (∃ n : TbIx, ∃ ns : Word, ∃ s : State, s.fatal = false ∧ 
      let d := toInt 32 ns.toNat * 65536 + (s.get (TB_STEP_FRAC_FRAC n.val) : Int)
      d.natAbs ≤ 65536 * max 1 (s.get (SYN_LIMIT_JUMP_LIMIT n.val))) ∧
    (∃ n : TbIx, ∃ d : Int, ∃ g : Option Nat, ∃ j : Bool, ∃ s : State, s.steps = [StepDue.mk n.val d none none g j] ∧ ((n.val ≠ s.tickTb ∨ s.tick.run = false ∨ d < 0))) ∧
    (∃ n : TbIx, ∃ d : Int, ∃ g : Option Nat, ∃ j : Bool, ∃ s : State, (s.steps = [StepDue.mk n.val d none none g j] ∧ ((n.val ≠ s.tickTb ∨ s.tick.run = false ∨ d < 0))) ∧ ∃ m, m ≠ n.val) ∧
    (∃ n : TbIx, ∃ d : Int, ∃ g : Option Nat, ∃ j : Bool, ∃ s : State, (s.steps = [StepDue.mk n.val d none none g j] ∧ ((n.val ≠ s.tickTb ∨ s.tick.run = false ∨ d < 0)) ∧ n.val = s.tickTb ∧ s.tick.run = true) ∧ ∃ g, g < 16) ∧
    (∃ n : TbIx, ∃ ns : Word, ∃ s : State, s.fatal = false ∧ 
      let d := toInt 32 ns.toNat * 65536 + (s.get (TB_STEP_FRAC_FRAC n.val) : Int)
      65536 * max 1 (s.get (SYN_LIMIT_JUMP_LIMIT n.val)) < d.natAbs) ∧
    (∃ v : Word, ∃ s : State, s.fatal = false ∧ v.msb = true ∧ 
      let n := getField v 16 3
      s.get (SYN_PEND_CTL_VALID n) = 1 ∧ s.get (SYN_PEND_CTL_SEQ n) = getField v 0 8) ∧
    (∃ v : Word, ∃ s : State, s.fatal = false ∧ v.msb = true ∧ ((s.get (SYN_PEND_CTL_VALID (getField v 16 3)) = 0 ∨ s.get (SYN_PEND_CTL_SEQ (getField v 16 3)) ≠ getField v 0 8))) :=
  ⟨⟨7, 0xFFFFFFFF, S [(SYN_LIMIT_JUMP_LIMIT 7, 1)], by decide +kernel⟩,
   ⟨7, 5, none, false, { R with steps := [StepDue.mk 7 5 none none none false] }, by decide +kernel⟩,
   ⟨7, 5, none, false, { R with steps := [StepDue.mk 7 5 none none none false] }, by decide +kernel, 6, by decide +kernel⟩,
   ⟨0, (-5), none, false, { R with steps := [StepDue.mk 0 (-5) none none none false], tick := { Tick.rst with run := true } }, by decide +kernel, 15, by decide +kernel⟩,
   ⟨7, 0xFFFFFFFE, S [(SYN_LIMIT_JUMP_LIMIT 7, 1)], by decide +kernel⟩,
   ⟨0x800700FF, S [(SYN_PEND_CTL_VALID 7, 1), (SYN_PEND_CTL_SEQ 7, 255), (SYN_PEND_NS_NS 7, 0x80000000), (SYN_PEND_CTL_FRAC 7, 9)], by decide +kernel⟩,
   ⟨0x800700FF, R, by decide +kernel⟩⟩

/-- The hypotheses of StampsAndPulses hold together. -/
theorem witness_StampsAndPulses :
    (∃ i : Fin 12, ∃ falling : Bool, ∃ sub : Fin 8, ∃ s : State, s.fatal = false ∧ s.get (TB_EVIN_CTL_EN i.val) = 1 ∧ ((s.get (TB_EVIN_CTL_EDGE i.val) = 2 ∨ (s.get (TB_EVIN_CTL_EDGE i.val) = 1 ∧ falling = true) ∨
        (s.get (TB_EVIN_CTL_EDGE i.val) = 0 ∧ falling = false))) ∧ ((∀ t, (s.input i.val).last = some t → t + 800 ≤ 8 * s.now + sub.val)) ∧ (s.input i.val).store.length < 16) ∧
    (∃ i : Fin 12, ∃ falling : Bool, ∃ sub : Fin 8, ∃ s : State, s.fatal = false ∧ s.get (TB_EVIN_CTL_EN i.val) = 1 ∧ ((s.get (TB_EVIN_CTL_EDGE i.val) = 2 ∨ (s.get (TB_EVIN_CTL_EDGE i.val) = 1 ∧ falling = true) ∨
        (s.get (TB_EVIN_CTL_EDGE i.val) = 0 ∧ falling = false))) ∧ (((∃ t, (s.input i.val).last = some t ∧ 8 * s.now + sub.val < t + 800) ∨ 16 ≤ (s.input i.val).store.length))) ∧
    (∃ i : Fin 12, ∃ falling : Bool, ∃ sub : Fin 8, ∃ s : State, s.get (TB_EVIN_CTL_EN i.val) = 0) ∧
    (∃ i : Fin 12, ∃ a : Nat × Nat, ∃ b : Nat × Nat, ∃ r : List (Nat × Nat), ∃ s : State, (s.input i.val).store = a :: b :: r) ∧
    (∃ i : Fin 12, ∃ a : Nat × Nat, ∃ s : State, (s.input i.val).store = [a]) ∧
    (∃ i : Fin 12, ∃ s : State, (s.input i.val).store = []) ∧
    (∃ j : Fin 4, ∃ s : State, s.fatal = false ∧ s.get (TB_PPSO_CTL_EN j.val) = 1 ∧ tget 0 s.ppsHigh j.val = 0 ∧ isPast (s.get (TB_PPSO_NEXT_NEXT j.val)) (s.tbNs (s.get (TB_PPSO_CTL_TB j.val))) = true) ∧
    (∃ j : Fin 4, ∃ s : State, ((s.get (TB_PPSO_CTL_EN j.val) = 0 ∨ tget 0 s.ppsHigh j.val ≠ 0 ∨
        isPast (s.get (TB_PPSO_NEXT_NEXT j.val)) (s.tbNs (s.get (TB_PPSO_CTL_TB j.val))) = false))) ∧
    (∃ j : Fin 4, ∃ s : State, tget 0 s.ppsHigh j.val ≠ 0 ∧ ppsOver s j.val = true) ∧
    (∃ j : Fin 4, ∃ s : State, (tget 0 s.ppsHigh j.val = 0 ∨ ppsOver s j.val = false)) ∧
    (∃ j : Fin 4, ∃ s : State, ppsWidth s j.val < ppsPeriod s j.val) ∧
    (∃ k : Fin 16, ∃ s : State, s.fatal = false ∧ s.get (TB_CMP_CTL_EN k.val) = 1 ∧ isPast (s.get (TB_CMP_TARGET_TARGET k.val)) (s.tbNs (s.get (TB_CMP_CTL_TB k.val))) = true) ∧
    (∃ k : Fin 16, ∃ s : State, ((s.get (TB_CMP_CTL_EN k.val) = 0 ∨
        isPast (s.get (TB_CMP_TARGET_TARGET k.val)) (s.tbNs (s.get (TB_CMP_CTL_TB k.val))) = false))) :=
  ⟨⟨11, true, 7, S [(TB_EVIN_CTL_EN 11, 1), (TB_EVIN_CTL_EDGE 11, 2), (TB_EVIN_CTL_TB 11, 7)], by decide +kernel⟩,
   ⟨11, true, 7, { S [(TB_EVIN_CTL_EN 11, 1), (TB_EVIN_CTL_EDGE 11, 1)] with evin := [(11, ⟨[], some 8⟩)], now := 100 }, by decide +kernel⟩,
   ⟨11, true, 7, R, by decide +kernel⟩,
   ⟨11, (5, 6), (7, 8), ([] : List (Nat × Nat)), { R with evin := [(11, ⟨[(5, 6), (7, 8)], some 1⟩)] }, by decide +kernel⟩,
   ⟨11, (5, 6), { R with evin := [(11, ⟨[(5, 6)], some 1⟩)] }, by decide +kernel⟩,
   ⟨11, R, by decide +kernel⟩,
   ⟨3, { S [(TB_PPSO_CTL_EN 3, 1), (TB_PPSO_PER_PER 3, 100), (TB_PPSO_CTL_WIDTH 3, 2)] with tbs := [(0, { Tb.rst with acc := 1024 * 2 ^ 40 })] }, by decide +kernel⟩,
   ⟨3, R, by decide +kernel⟩,
   ⟨3, { S [(TB_PPSO_CTL_EN 3, 1), (TB_PPSO_PER_PER 3, 100), (TB_PPSO_CTL_WIDTH 3, 2)] with
                  ppsHigh := [(3, 5)], now := 10000, tbs := [(0, { Tb.rst with acc := 1024 * 2 ^ 40 })] }, by decide +kernel⟩,
   ⟨3, { R with ppsHigh := [(3, 2)] }, by decide +kernel⟩,
   ⟨3, { R with ppsHigh := [(3, 2)] }, by decide +kernel⟩,
   ⟨15, S [(TB_CMP_CTL_EN 15, 1), (TB_CMP_CNT_CNT 15, 0xFFFFFFFF)], by decide +kernel⟩,
   ⟨15, R, by decide +kernel⟩⟩

/-- The hypotheses of RoundsAndNodes hold together. -/
theorem witness_RoundsAndNodes :
    (∃ n : TbIx, ∃ s : State, withinSeq s (60 * 65536) = true ∧ roundDue s n.val = true) ∧
    (∃ n : TbIx, ∃ s : State, ((withinSeq s (60 * 65536) = false ∨ roundDue s n.val = false))) ∧
    (∃ n : TbIx, ∃ s : State, (s.syn n.val).due = true ∧ ((∀ j < 16, partakes s n.val j = false)) ∧ s.get (SYN_CTL_SELF n.val) = 1 ∧ s.get (SYN_CTL_K n.val) = 0) ∧
    (∃ n : TbIx, ∃ s : State, (s.syn n.val).due = true ∧ ((∀ j < 16, partakes s n.val j = false)) ∧ s.get (SYN_CTL_SELF n.val) = 0) ∧
    (∃ n : TbIx, ∃ s : State, (s.syn n.val).due = false) ∧
    (∃ n : TbIx, ∃ j : Fin 16, ∃ p : Fin 2, ∃ r : Int, ∃ s : State, 
      let y := s.path n.val j.val p.val
      y.frozen = true ∧ y.offered = false ∧ y.rejoin = false ∧ y.hold = 0 ∧ y.now = some r ∧ (r - y.base).natAbs ≤ (pathJump s n.val).natAbs) ∧
    (∃ n : TbIx, ∃ j : Fin 16, ∃ p : Fin 2, ∃ r : Int, ∃ s : State, 
      let y := s.path n.val j.val p.val
      y.frozen = true ∧ y.offered = false ∧ y.rejoin = false ∧ y.hold = 0 ∧ y.now = some r ∧ (pathJump s n.val).natAbs < (r - y.base).natAbs) ∧
    (∃ n : TbIx, ∃ j : Fin 16, ∃ p : Fin 2, ∃ s : State, (((s.path n.val j.val p.val).frozen = false ∨
        (s.path n.val j.val p.val).offered = true ∨ (s.path n.val j.val p.val).hold ≠ 0))) ∧
    (∃ n : TbIx, ∃ j : Fin 16, ∃ p : Fin 2, ∃ v : Word, ∃ s : State, s.fatal = false ∧ getField v p.val 1 = 1 ∧ getField v (1 - p.val) 1 = 0 ∧ s.get (cBit n.val j.val p.val) = 0) ∧
    (∃ n : TbIx, ∃ j : Fin 16, ∃ p : Fin 2, ∃ v : Word, ∃ s : State, s.fatal = false ∧ getField v p.val 1 = 1 ∧ getField v (1 - p.val) 1 = 0 ∧ s.get (cBit n.val j.val p.val) = 1) ∧
    (∃ n : TbIx, ∃ j : Fin 16, ∃ p : Fin 2, ∃ v : Word, ∃ s : State, s.fatal = false) ∧
    (∃ n : TbIx, ∃ j : Fin 16, ∃ v : Word, ∃ s : State, s.fatal = false) ∧
    (∃ n : TbIx, ∃ w : Fin 4, ∃ s : State, s.fatal = false) :=
  ⟨⟨7, { S [(TB_CTL_MODE 7, 1)] with tick := TK, syns := [(7, { SynSt.rst with begun := true })] }, by decide +kernel⟩,
   ⟨7, R, by decide +kernel⟩,
   ⟨7, { S [(SYN_CTL_SELF 7, 1), (SYN_CTL_K 7, 0)] with syns := [(7, { SynSt.rst with due := true, rate := 5 })] }, by decide +kernel⟩,
   ⟨7, { S [(SYN_CTL_SELF 7, 0)] with syns := [(7, { SynSt.rst with due := true, rate := 5 })] }, by decide +kernel⟩,
   ⟨7, R, by decide +kernel⟩,
   ⟨7, 15, 1, 100, { S [(SYN_PATH_PATH_JUMP 7, 1)] with nodes := [(7 * 16 + 15, { NodeSt.rst with p1 := { PathSt.rst with frozen := true, now := some 100, base := 4196 } })] }, by decide +kernel⟩,
   ⟨7, 15, 1, 99, { S [(SYN_PATH_PATH_JUMP 7, 1)] with nodes := [(7 * 16 + 15, { NodeSt.rst with p1 := { PathSt.rst with frozen := true, now := some 99, base := 4196 } })] }, by decide +kernel⟩,
   ⟨7, 15, 1, R, by decide +kernel⟩,
   ⟨7, 15, 1, 2, R, by decide +kernel⟩,
   ⟨7, 15, 1, 2, S [(NODE_STAT_C1 7 15, 1)], by decide +kernel⟩,
   ⟨7, 15, 1, 0x80000001, R, by decide +kernel⟩,
   ⟨7, 15, 0xFFFFFFFF, S [(NODE_STAT_F1 7 15, 1), (NODE_STAT_LOST_TRK 7 15, 1)], by decide +kernel⟩,
   ⟨7, 3, R, by decide +kernel⟩⟩

/-- The hypotheses of PtpFollower hold together. -/
theorem witness_PtpFollower :
    (∃ n : TbIx, ∃ p : Port, ∃ m : PtpMsg, ∃ varRx : Nat, ∃ s : State, s.fatal = false ∧ ptpMode s n.val = true ∧ s.get (PRT_STAT_LINK p.val) = 1 ∧ (s.port p.val).memHalt = false ∧ s.reacting (grpK (p.val / 8)) 5 = false ∧ s.get (PRT_GRD_CTL_EN p.val) = 0 ∧ s.get (PRT_SEC_CFG_EN p.val) = 0 ∧ ((∀ b o, s.arriving (rxK p.val b) = some o → o.blocked = false))) ∧
    (∃ n : TbIx, ∃ p : Port, ∃ m : PtpMsg, ∃ varRx : Nat, ∃ s : State, ((s.fatal = true ∨ ptpMode s n.val = false ∨
        s.get (PRT_STAT_LINK p.val) = 0 ∨ (s.port p.val).memHalt = true ∨ s.reacting (grpK (p.val / 8)) 5 = true))) ∧
    (∃ n : TbIx, ∃ p : Port, ∃ m : PtpMsg, ∃ stamped : Bool, ∃ varRx : Nat, ∃ s : State, ∃ u : State, ptpHears s n.val p.val varRx m = (false, u)) ∧
    (∃ n : TbIx, ∃ p : Port, ∃ m : PtpMsg, ∃ varRx : Nat, ∃ b : Nat, ∃ s : State, ∃ u : State, ptpHears s n.val p.val varRx m = (true, u) ∧ slaveOf s n.val p.val = some b ∧ m.oneStep = false ∧ freshLink s p.val = false) ∧
    (∃ n : TbIx, ∃ p : Port, ∃ m : PtpMsg, ∃ b : Fin 2, ∃ corr : Int, ∃ rx : Nat, ∃ rxL : Nat, ∃ varRx : Nat, ∃ s : State, ∃ u : State, ptpHears s n.val p.val varRx m = (true, u) ∧ slaveOf s n.val p.val = some b.val ∧ slavePort u n.val (1 - b.val) = none ∧ (u.ptp n.val b.val).sync = some (corr, rx, rxL) ∧ (u.ptp n.val b.val).frozen = false ∧ (u.ptp n.val b.val).last = none ∧ (u.ptp n.val b.val).delta = none ∧ u.get (liveBit n.val b.val) = 1 ∧ (slavePort u n.val b.val).isSome = true ∧ 
      let o := 256 * toInt 40 (ofInt 40 (m.origin + (corr + m.corr) + slaveMld u n.val b.val +
        toInt 32 (u.get (asymReg n.val b.val)) - divNear (rx : Int) 256))
      o.natAbs ≤ 65536 * max 1 (u.get (SYN_LIMIT_JUMP_LIMIT n.val))) ∧
    (∃ n : TbIx, ∃ p : Port, ∃ t2 : Int, ∃ t3 : Int, ∃ m : PtpMsg, ∃ varRx : Nat, ∃ t1 : Nat, ∃ s : State, ∃ u : State, ptpHears s n.val p.val varRx m = (true, u) ∧ domainPort s n.val p.val = true ∧ (u.pd p.val).sent = some t1 ∧ freshLink u p.val = false ∧ tget none u.mlds p.val = none) ∧
    (∃ n : TbIx, ∃ p : Port, ∃ t2 : Int, ∃ t3 : Int, ∃ m : PtpMsg, ∃ varRx : Nat, ∃ s : State, ∃ u : State, ptpHears s n.val p.val varRx m = (true, u) ∧ domainPort s n.val p.val = true ∧ (u.pd p.val).sent = none) ∧
    (∃ n : TbIx, ∃ b : Fin 2, ∃ s : State, s.fatal = false ∧ s.get (liveBit n.val b.val) = 1 ∧ s.get (liveBit n.val (1 - b.val)) = 0 ∧ 3 * syncInterval s n.val ≤ s.now - (s.ptp n.val b.val).liveAt) ∧
    (∃ n : TbIx, ∃ b : Fin 2, ∃ s : State, ((s.get (liveBit n.val b.val) = 0 ∨
        s.now - (s.ptp n.val b.val).liveAt < 3 * syncInterval s n.val))) ∧
    (∃ n : TbIx, ∃ b : Fin 2, ∃ s : State, s.fatal = false ∧ (s.ptp n.val b.val).offered = true) ∧
    (∃ n : TbIx, ∃ b : Fin 2, ∃ s : State, (s.ptp n.val b.val).offered = false) ∧
    (∃ n : TbIx, ∃ p : Port, ∃ varTx : Nat, ∃ s : State, ptpMode s n.val = true ∧ masterPort s n.val p.val = true ∧ ptpMaySend s n.val p.val = true ∧ ((s.get (PTP_STAT_A_LIVE n.val) = 1 ∨ s.get (PTP_STAT_B_LIVE n.val) = 1)) ∧ ((∀ t, tget none s.syncNext (n.val * 128 + p.val) = some t → t ≤ s.now)) ∧ curPs s (portK p.val) = 0 ∧ inFlight s p.val = none ∧ (s.port p.val).jobs = []) ∧
    (∃ n : Nat, ∃ p : Nat, ∃ ready : Nat, ∃ var : Nat, ∃ a : Int, ∃ b : Int, ∃ s : State, canSend s p = true ∧ curPs s (portK p) = 0 ∧ secTxOk s p ptpHead = true ∧ inFlight s p = none ∧ ready ≤ s.now ∧ (s.port p).jobs = [⟨.ptp n 1 false a b 0, ready, var⟩]) ∧
    (∃ n : TbIx, ∃ p : Port, ∃ varTx : Nat, ∃ k : Nat, ∃ s : State, tget none s.syncNext (n.val * 128 + p.val) = some k ∧ s.now < k) ∧
    (∃ n : TbIx, ∃ p : Port, ∃ varTx : Nat, ∃ s : State, ptpMode s n.val = true ∧ domainPort s n.val p.val = true ∧ ptpMaySend s n.val p.val = true ∧ (s.pd p.val).next ≤ s.now ∧ curPs s (portK p.val) = 0 ∧ secTxOk s p.val ptpHead = true ∧ inFlight s p.val = none ∧ (s.port p.val).jobs = []) ∧
    (∃ n : TbIx, ∃ p : Port, ∃ m : PtpMsg, ∃ varRx : Nat, ∃ varTx : Nat, ∃ s : State, ∃ u : State, ptpHears s n.val p.val varRx m = (true, u) ∧ domainPort s n.val p.val = true ∧ ptpMaySend u n.val p.val = true ∧ curPs u (portK p.val) = 0 ∧ secTxOk u p.val ptpHead = true ∧ inFlight u p.val = none ∧ (u.port p.val).jobs = []) ∧
    (∃ n : TbIx, ∃ p : Port, ∃ varTx : Nat, ∃ s : State, ((ptpMode s n.val = false ∨ ptpMaySend s n.val p.val = false))) :=
  ⟨⟨7, 127, PM, 5, { S PT with now := 100000 }, by decide +kernel⟩,
   ⟨7, 127, PM, 5, R, by decide +kernel⟩,
   ⟨7, 127, PM, true, 5, LK 3, ptpU (LK 3) 127, (ptpU_of (by decide +kernel))⟩,
   ⟨7, 127, PM, 5, 1, { S PT with now := 100000 }, ptpU ({ S PT with now := 100000 }) 127, (ptpU_of (by decide +kernel)), by decide +kernel⟩,
   ⟨7, 127, PM, 1, 77, 2560, 2560, 5, { S (PT ++ [(PTP_STAT_B_LIVE 7, 1), (SYN_LIMIT_JUMP_LIMIT 7, 5000)]) with ptps := [(15, { PtpSt.rst with sync := some (77, 2560, 2560) })], now := 100000 }, ptpU ({ S (PT ++ [(PTP_STAT_B_LIVE 7, 1), (SYN_LIMIT_JUMP_LIMIT 7, 5000)]) with ptps := [(15, { PtpSt.rst with sync := some (77, 2560, 2560) })], now := 100000 }) 127, (ptpU_of (by decide +kernel)), by decide +kernel⟩,
   ⟨7, 127, 1000, 2000, PM, 5, 7, { S PT with now := 100000, pds := [(127, { PdSt.rst with sent := some 7, last := some (5, 6, 7) })] }, ptpU ({ S PT with now := 100000, pds := [(127, { PdSt.rst with sent := some 7, last := some (5, 6, 7) })] }) 127, (ptpU_of (by decide +kernel)), by decide +kernel⟩,
   ⟨7, 127, 1000, 2000, PM, 5, { S PT with now := 100000 }, ptpU ({ S PT with now := 100000 }) 127, (ptpU_of (by decide +kernel)), by decide +kernel⟩,
   ⟨7, 1, { S (PT ++ [(PTP_STAT_B_LIVE 7, 1)]) with now := 10000000000000 }, by decide +kernel⟩,
   ⟨7, 1, R, by decide +kernel⟩,
   ⟨7, 1, { S PT with ptps := [(15, { PtpSt.rst with offered := true, frozen := true })] }, by decide +kernel⟩,
   ⟨7, 1, R, by decide +kernel⟩,
   ⟨7, 126, 4, { S (PT ++ [(PTP_STAT_B_LIVE 7, 1)]) with now := 100000 }, by decide +kernel⟩,
   ⟨7, 126, 5, 9, 1234, 56, { S PT with now := 100000, ports := [(126, { PortSt.rst with jobs := [⟨.ptp 7 1 false 1234 56 0, 5, 9⟩] })] }, by decide +kernel⟩,
   ⟨7, 126, 4, 100001, { S PT with now := 100000, syncNext := [(7 * 128 + 126, some 100001)] }, by decide +kernel⟩,
   ⟨7, 126, 4, { S PT with now := 100000 }, by decide +kernel⟩,
   ⟨7, 126, PM, 5, 6, { S PT with now := 100000 }, ptpU ({ S PT with now := 100000 }) 126, (ptpU_of (by decide +kernel)), by decide +kernel⟩,
   ⟨7, 126, 4, R, by decide +kernel⟩⟩

/-- The hypotheses of Doorbells hold together. -/
theorem witness_Doorbells :
    (∃ f : Fn, ∃ v : Word, ∃ hw : HostWrites, ∃ err : Option Nat, ∃ s : State, ((s.fatal = true ∨ (s.halted = true ∧ s.now ≠ s.haltAt)))) ∧
    (∃ f : Fn, ∃ v : Word, ∃ hw : HostWrites, ∃ err : Option Nat, ∃ s : State, ∃ kind : Nat, ∃ g : Nat, ∃ c : Instr, ((c = .dbTx f v ⟨hw, err⟩ ∧ kind = 0) ∨ (c = .dbRx f v ⟨hw, err⟩ ∧ kind = 1) ∨ (c = .dbJob f v ⟨hw, err⟩ ∧ kind = 2)) ∧ s.fatal = false ∧ s.halted = false ∧ ringOf s kind f.val (getField v 0 12) = some g ∧ 
      let r := s.ring kind g
      
      let tail := getField v 16 16
      r.destroying = false ∧ r.laps tail r.head = false ∧ r.laps tail (headAfter r.done.length r r.head) = false ∧ ((∀ b ∈ s.bells, (b.1, b.2.1, b.2.2.1) ≠ (kind, f.val, getField v 0 12))) ∧ ((kind = 1 → s.rxHold = [] ∧ s.holdGone.1 ≠ s.now))) ∧
    (∃ f : Fn, ∃ v : Word, ∃ hw : HostWrites, ∃ err : Option Nat, ∃ s : State, ∃ kind : Nat, ∃ c : Instr, (((c = .dbTx f v ⟨hw, err⟩ ∧ kind = 0) ∨ (c = .dbRx f v ⟨hw, err⟩ ∧ kind = 1) ∨ (c = .dbJob f v ⟨hw, err⟩ ∧ kind = 2)) ∧ s.fatal = false ∧ s.halted = false) ∧ ∃ cause : Nat, ((ringOf s kind f.val (getField v 0 12) = none ∧ cause = 6) ∨
        (∃ g, ringOf s kind f.val (getField v 0 12) = some g ∧ (s.ring kind g).destroying = false ∧ cause = 5 ∧
          (s.ring kind g).laps (getField v 16 16) (s.ring kind g).head = true ∧
          (s.ring kind g).laps (getField v 16 16) (headAfter (s.ring kind g).done.length (s.ring kind g) (s.ring kind g).head) = true ∧
          ∀ b ∈ s.bells, (b.1, b.2.1, b.2.2.1) ≠ (kind, f.val, getField v 0 12)))) ∧
    (∃ f : Fn, ∃ v : Word, ∃ hw : HostWrites, ∃ err : Option Nat, ∃ s : State, ∃ kind : Nat, ∃ g : Nat, ∃ c : Instr, ((c = .dbTx f v ⟨hw, err⟩ ∧ kind = 0) ∨ (c = .dbRx f v ⟨hw, err⟩ ∧ kind = 1) ∨ (c = .dbJob f v ⟨hw, err⟩ ∧ kind = 2)) ∧ s.fatal = false ∧ s.halted = false ∧ ringOf s kind f.val (getField v 0 12) = some g ∧ 
      let r := s.ring kind g
      
      let tail := getField v 16 16
      r.destroying = false ∧ ((r.laps tail r.head ≠ r.laps tail (headAfter r.done.length r r.head) ∨
        ∃ b ∈ s.bells, (b.1, b.2.1, b.2.2.1) = (kind, f.val, getField v 0 12))) ∧ ((kind = 1 → s.rxHold = [] ∧ s.holdGone.1 ≠ s.now))) ∧
    (∃ s : State, ∃ kind : Nat, ∃ f : Nat, ∃ loc : Nat, ∃ tail : Nat, ∃ g : Nat, ∃ err : Option Nat, s.bells = [(kind, f, loc, tail, err)] ∧ s.fatal = false ∧ s.halted = false ∧ kind < 3 ∧ ringOf s kind f loc = some g ∧ 
      let r := s.ring kind g
      r.destroying = false ∧ r.laps tail r.head = true) ∧
    (∃ s : State, ∃ kind : Nat, ∃ f : Nat, ∃ loc : Nat, ∃ tail : Nat, ∃ g : Nat, ∃ err : Option Nat, s.bells = [(kind, f, loc, tail, err)] ∧ s.fatal = false ∧ s.halted = false ∧ kind < 3 ∧ ringOf s kind f loc = some g ∧ 
      let r := s.ring kind g
      r.destroying = false ∧ r.laps tail r.head = false ∧ ((kind = 1 → s.rxHold = [] ∧ s.holdGone.1 ≠ s.now))) ∧
    (∃ f : Fn, ∃ v : Word, ∃ s : State, ∃ g : Nat, s.fatal = false ∧ s.halted = false ∧ ringOf s 3 f.val (getField v 0 12) = some g ∧ 
      let r := s.ring 3 g
      
      let hd := getField v 16 16
      r.destroying = false ∧ (r.tail + 65536 - hd) % 65536 ≤ (r.tail + 65536 - r.head) % 65536 ∧ r.marker = 0) ∧
    (∃ f : Fn, ∃ v : Word, ∃ s : State, ∃ g : Nat, s.fatal = false ∧ s.halted = false ∧ ringOf s 3 f.val (getField v 0 12) = some g ∧ 
      let r := s.ring 3 g
      
      let hd := getField v 16 16
      r.destroying = false ∧ (r.tail + 65536 - hd) % 65536 ≤ (r.tail + 65536 - r.head) % 65536 ∧ r.marker ≠ 0 ∧ (r.tail + 65536 - hd) % 65536 < r.size) ∧
    (∃ f : Fn, ∃ v : Word, ∃ s : State, s.fatal = false ∧ s.halted = false ∧ ringOf s 3 f.val (getField v 0 12) = none) ∧
    (∃ f : Fn, ∃ v : Word, ∃ hw : HostWrites, ∃ err : Option Nat, ∃ s : State, s.fatal = false ∧ s.halted = false ∧ 
      let r := s.ring 4 f.val
      
      let tail := getField v 16 16
      r.created = true ∧ r.destroying = false ∧ r.laps tail r.head = false ∧ r.laps tail (headAfter r.done.length r r.head) = false ∧ ((∀ b ∈ s.bells, (b.1, b.2.1, b.2.2.1) ≠ (4, f.val, 0)))) ∧
    (∃ f : Fn, ∃ v : Word, ∃ hw : HostWrites, ∃ err : Option Nat, ∃ s : State, s.fatal = false ∧ s.halted = false ∧ 
      let r := s.ring 4 f.val
      r.created = false) ∧
    (∃ f : Fn, ∃ v : Word, ∃ s : State, s.fatal = false) :=
  ⟨⟨63, 7, [(0x1000, 5)], none, { S [(BOOT_STATUS_HIHALT, 1)] with now := 5 }, by decide +kernel⟩,
   ⟨63, 0x00400005, [(0x1000, 5)], some 3, { RS 1 9 RG with holdGone := (5, 0, [], 0) }, 1, 9, .dbRx 63 0x00400005 ⟨[(0x1000, 5)], some 3⟩, by decide +kernel⟩,
   ⟨63, 0x00410005, [(0x1000, 5)], none, RS 1 9 RG, 1, .dbRx 63 0x00410005 ⟨[(0x1000, 5)], none⟩, by decide +kernel, 5, by decide +kernel⟩,
   ⟨63, 0x00400005, [(0x1000, 5)], some 3, { RS 1 9 RG with holdGone := (5, 0, [], 0), bells := [(1, 63, 5, 3, none)] }, 1, 9, .dbRx 63 0x00400005 ⟨[(0x1000, 5)], some 3⟩, by decide +kernel⟩,
   ⟨{ RS 1 9 RG with bells := [(1, 63, 5, 65, none)] }, 1, 63, 5, 65, 9, none, by decide +kernel⟩,
   ⟨{ RS 1 9 RG with bells := [(1, 63, 5, 64, some 3)], holdGone := (5, 0, [], 0) }, 1, 63, 5, 64, 9, some 3, by decide +kernel⟩,
   ⟨63, 0x00030005, RS 3 9 { RG with tail := 5, head := 1 }, 9, by decide +kernel⟩,
   ⟨63, 0x00030005, RS 3 9 { RG with tail := 5, head := 1, marker := 4 }, 9, by decide +kernel⟩,
   ⟨63, 0x00030005, R, by decide +kernel⟩,
   ⟨63, 0x00400000, [(0x1000, 5)], none, RS 4 63 RG, by decide +kernel⟩,
   ⟨63, 0x00400000, [(0x1000, 5)], none, R, by decide +kernel⟩,
   ⟨63, 0x80000306, S [(GLB_FN_VEC_VN 63, 8)], by decide +kernel⟩⟩

/-- The hypotheses of RingCommands hold together. -/
theorem witness_RingCommands :
    (∃ f : Fn, ∃ s : State, nextCmd s f.val = none) ∧
    (∃ f : Fn, ∃ e : List Nat, ∃ s : State, nextCmd s f.val = some e ∧ 
      let op := bits (entryWord e 0) 31 24
      (op = 0 ∨ 3 < op)) ∧
    (∃ f : Fn, ∃ e : List Nat, ∃ s : State, nextCmd s f.val = some e ∧ 
      let op := bits (entryWord e 0) 31 24
      1 ≤ op ∧ op ≤ 3) ∧
    (∃ f : Fn, ∃ e : List Nat, ∃ s : State, nextCmd s f.val = some e ∧ 
      let op := bits (entryWord e 0) 31 24
      op ≠ 1) :=
  ⟨⟨63, R, by decide +kernel⟩,
   ⟨63, EN 4 0 5 0 0 0 0, CM (EN 4 0 5 0 0 0 0) [], by decide +kernel⟩,
   ⟨63, EN 3 0 5 0 0 0 0, CM (EN 3 0 5 0 0 0 0) [], by decide +kernel⟩,
   ⟨63, EN 3 0 5 0 0 0 0, CM (EN 3 0 5 0 0 0 0) [], by decide +kernel⟩⟩

/-- Those of its further clauses. -/
theorem witness_RingCommands_2 :
    (∃ f : Fn, ∃ e : List Nat, ∃ s : State, nextCmd s f.val = some e ∧ 
      let op := bits (entryWord e 0) 31 24
      op ≠ 2) ∧
    (∃ f : Fn, ∃ e : List Nat, ∃ s : State, nextCmd s f.val = some e ∧ 
      let op := bits (entryWord e 0) 31 24
      op ≠ 3) ∧
    (∃ f : Fn, ∃ e : List Nat, ∃ s : State, (nextCmd s f.val = some e ∧ bits (entryWord e 0) 31 24 = 1) ∧ 
      let kind := bits (entryWord e 0) 18 16
      
      let loc := bits (entryWord e 0) 11 0
      
      let bad := 3 < kind ∨ bits (entryWord e 5) 3 0 < 6 ∨ hasVec s f.val (bits (entryWord e 5) 18 8) = false
      ∃ g, (¬ bad) ∧ globalRing s kind f.val loc = some g ∧ (s.ring kind g).created = false ∧ entryAddr e 1 % 4096 = 0 ∧ entryAddr e 3 % 8 = 0) ∧
    (∃ f : Fn, ∃ e : List Nat, ∃ s : State, (nextCmd s f.val = some e ∧ bits (entryWord e 0) 31 24 = 1) ∧ 
      let kind := bits (entryWord e 0) 18 16
      
      let loc := bits (entryWord e 0) 11 0
      
      let bad := 3 < kind ∨ bits (entryWord e 5) 3 0 < 6 ∨ hasVec s f.val (bits (entryWord e 5) 18 8) = false
      ∃ st, ((bad ∧ st = 1) ∨ (¬ bad ∧ globalRing s kind f.val loc = none ∧ st = 2) ∨
        (∃ g, ¬ bad ∧ globalRing s kind f.val loc = some g ∧
          (((s.ring kind g).created = true ∧ st = 4) ∨
           ((s.ring kind g).created = false ∧ (entryAddr e 1 % 4096 ≠ 0 ∨ entryAddr e 3 % 8 ≠ 0) ∧ st = 5))))) ∧
    (∃ f : Fn, ∃ e : List Nat, ∃ s : State, (nextCmd s f.val = some e ∧ bits (entryWord e 0) 31 24 = 2) ∧ 
      let kind := bits (entryWord e 0) 18 16
      
      let loc := bits (entryWord e 0) 11 0
      ∃ g, kind ≤ 3 ∧ ringOf s kind f.val loc = some g ∧ (s.ring kind g).fn = f.val ∧ (s.ring kind g).done = [] ∧ ((if kind = 3 then (s.ring kind g).tail else (s.ring kind g).head) = (s.ring kind g).pub) ∧ g < 4096 ∧ ((kind = 3 ∨ (s.ring kind g).next = (s.ring kind g).head))) ∧
    (∃ f : Fn, ∃ e : List Nat, ∃ s : State, (nextCmd s f.val = some e ∧ bits (entryWord e 0) 31 24 = 2) ∧ 
      let kind := bits (entryWord e 0) 18 16
      
      let loc := bits (entryWord e 0) 11 0
      ∃ g, kind ≤ 3 ∧ ringOf s kind f.val loc = some g ∧ (s.ring kind g).fn = f.val ∧ (s.ring kind g).done = [] ∧ ((if kind = 3 then (s.ring kind g).tail else (s.ring kind g).head) = (s.ring kind g).pub) ∧ g < 4096 ∧ kind ≠ 3 ∧ (s.ring kind g).next ≠ (s.ring kind g).head) ∧
    (∃ f : Fn, ∃ e : List Nat, ∃ s : State, nextCmd s f.val = some e ∧ bits (entryWord e 0) 31 24 = 2 ∧ 
      let kind := bits (entryWord e 0) 18 16
      
      let loc := bits (entryWord e 0) 11 0
      kind ≤ 3 ∧ ringOf s kind f.val loc = none) ∧
    (∃ f : Fn, ∃ e : List Nat, ∃ s : State, nextCmd s f.val = some e ∧ bits (entryWord e 0) 31 24 = 2 ∧ 
      let kind := bits (entryWord e 0) 18 16
      3 < kind) ∧
    (∃ f : Fn, ∃ e : List Nat, ∃ s : State, nextCmd s f.val = some e ∧ bits (entryWord e 0) 31 24 = 3 ∧ 
      let skind := bits (entryWord e 5) 29 28
      
      let key := bits (entryWord e 6) 15 0
      skind < 3 ∧ f.val = 0) ∧
    (∃ f : Fn, ∃ e : List Nat, ∃ s : State, nextCmd s f.val = some e ∧ bits (entryWord e 0) 31 24 = 3 ∧ 
      let skind := bits (entryWord e 5) 29 28
      
      let key := bits (entryWord e 6) 15 0
      (skind = 3 ∨ f.val ≠ 0)) :=
  ⟨⟨63, EN 3 0 5 0 0 0 0, CM (EN 3 0 5 0 0 0 0) [], by decide +kernel⟩,
   ⟨63, EN 2 0 5 0 0 0 0, CM (EN 2 0 5 0 0 0 0) [], by decide +kernel⟩,
   ⟨63, EN 1 0 9 0x1000 0x2008 0x70F 0, CM (EN 1 0 9 0x1000 0x2008 0x70F 0) [], by decide +kernel, 4009, by decide +kernel⟩,
   ⟨63, EN 1 0 10 0x1000 0x2008 0x70F 0, CM (EN 1 0 10 0x1000 0x2008 0x70F 0) [], by decide +kernel, 2, (by exact Or.inr (Or.inl ⟨by decide +kernel, by decide +kernel, rfl⟩))⟩,
   ⟨63, EN 2 0 5 0 0 0 0, CM (EN 2 0 5 0 0 0 0) [(ringK 0 4005, RG)], by decide +kernel, 4005, by decide +kernel⟩,
   ⟨63, EN 2 0 5 0 0 0 0, CM (EN 2 0 5 0 0 0 0) [(ringK 0 4005, { RG with tail := 1, next := 1 })], by decide +kernel, 4005, by decide +kernel⟩,
   ⟨63, EN 2 0 9 0 0 0 0, CM (EN 2 0 9 0 0 0 0) [], by decide +kernel⟩,
   ⟨63, EN 2 4 5 0 0 0 0, CM (EN 2 4 5 0 0 0 0) [], by decide +kernel⟩,
   ⟨0, EN 3 0 5 0 0 (2 ^ 31 + 2 ^ 28 + 77) 0xFFFF, CM0 (EN 3 0 5 0 0 (2 ^ 31 + 2 ^ 28 + 77) 0xFFFF), by decide +kernel⟩,
   ⟨63, EN 3 0 5 0 0 (2 ^ 31 + 2 ^ 28 + 77) 0xFFFF, CM (EN 3 0 5 0 0 (2 ^ 31 + 2 ^ 28 + 77) 0xFFFF) [], by decide +kernel⟩⟩

/-- The hypotheses of RingProgress hold together. -/
theorem witness_RingProgress :
    (∃ g : Fin 4096, ∃ e : List Nat, ∃ s : State, s.fatal = false ∧ s.halted = false ∧ (s.ring 0 g.val).ready = some e) ∧
    (∃ g : Fin 4096, ∃ e : List Nat, ∃ s : State, s.fatal = false ∧ s.halted = false ∧ (s.ring 0 g.val).ready = some e ∧ 
      let r := s.ring 0 g.val
      
      let p := bits (entryWord e 3) 6 0
      bits (entryWord e 3) 30 30 = 0 ∧ ((s.get (PRT_STAT_STATE p) = stOff ∨ s.get (PRT_STAT_STATE p) = stRetired))) ∧
    (∃ g : Fin 4096, ∃ e : List Nat, ∃ s : State, s.fatal = false ∧ s.halted = false ∧ (s.ring 0 g.val).ready = some e ∧ 
      let r := s.ring 0 g.val
      
      let p := bits (entryWord e 3) 6 0
      bits (entryWord e 3) 30 29 = 0 ∧ s.get (PRT_STAT_STATE p) ≠ stOff ∧ s.get (PRT_STAT_STATE p) ≠ stRetired ∧ s.get (PRT_GRD_STAT_STATE p) ≠ 3) ∧
    (∃ g : Fin 4096, ∃ x : Bool, ∃ s : State, (s.ring 0 g.val).ready = none) ∧
    (∃ kind : Fin 5, ∃ g : Fin 4096, ∃ ws : List (Nat × Nat), ∃ b : Nat, ∃ s : State, s.fatal = false ∧ s.halted = false ∧ kind.val ≠ 3 ∧ 
      let r := s.ring kind.val g.val
      r.created = true ∧ r.destroying = false ∧ r.done = [(r.head, ws ++ [(7, b)])] ∧ ((∀ w ∈ ws, w.1 < 7)) ∧ ((r.shadow + 4 ≤ r.slot r.head ∨ r.slot r.head + 32 ≤ r.shadow))) ∧
    (∃ kind : Fin 5, ∃ g : Fin 4096, ∃ s : State, kind.val ≠ 3 ∧ (s.ring kind.val g.val).done = [] ∧ (s.ring kind.val g.val).destroying = false) ∧
    (∃ kind : Fin 5, ∃ g : Fin 4096, ∃ s : State, kind.val = 3 ∧ s.fatal = false ∧ s.halted = false ∧ 
      let r := s.ring kind.val g.val
      r.created = true ∧ r.tail = r.pub) ∧
    (∃ kind : Fin 5, ∃ g : Fin 4096, ∃ s : State, kind.val = 3 ∧ s.fatal = false ∧ s.halted = false ∧ 
      let r := s.ring kind.val g.val
      r.created = true ∧ r.tail ≠ r.pub) ∧
    (∃ kind : Fin 5, ∃ g : Fin 4096, ∃ s : State, s.fatal = false ∧ s.halted = false ∧ 
      let r := s.ring kind.val g.val
      r.owed = true ∧ r.modEnd ≤ s.now) ∧
    (∃ kind : Fin 5, ∃ g : Fin 4096, ∃ s : State, (((s.ring kind.val g.val).owed = false ∨ s.now < (s.ring kind.val g.val).modEnd))) ∧
    (∃ v : Fin 2048, ∃ s : State, s.fatal = false ∧ s.halted = false ∧ (s.vec v.val).pend = true) ∧
    (∃ v : Fin 2048, ∃ s : State, (s.vec v.val).pend = false) ∧
    (∃ g : Fin 4096, ∃ s : State, s.fatal = false ∧ s.halted = false ∧ 
      let r := s.ring 1 g.val
      
      let keep := s.rxHold.filter (fun e => !(e.1 == g.val && decide (8000 * r.rxHold ≤ s.now - e.2.since)))
      keep.length < s.rxHold.length) ∧
    (∃ g : Fin 4096, ∃ s : State, s.fatal = false ∧ s.halted = false ∧ 
      let r := s.ring 1 g.val
      
      let keep := s.rxHold.filter (fun e => !(e.1 == g.val && decide (8000 * r.rxHold ≤ s.now - e.2.since)))
      keep.length = s.rxHold.length) :=
  ⟨⟨4095, [0x1000, 0, 60, 127, 0, 0, 0, 2 ^ 31], RS 0 4095 { RG with tail := 1, copies := [(0, [0x1000, 0, 60, 127, 0, 0, 0, 2 ^ 31])] }, by decide +kernel⟩,
   ⟨4095, [0x1000, 0, 60, 127, 0, 0, 0, 2 ^ 31], RS 0 4095 { RG with tail := 1, copies := [(0, [0x1000, 0, 60, 127, 0, 0, 0, 2 ^ 31])] }, by decide +kernel⟩,
   ⟨4095, [0x1000, 0, 60, 127, 0, 0, 0, 2 ^ 31], { LK 127 with rings := [(ringK 0 4095, { RG with tail := 1, copies := [(0, [0x1000, 0, 60, 127, 0, 0, 0, 2 ^ 31])] })] }, by decide +kernel⟩,
   ⟨4095, true, R, by decide +kernel⟩,
   ⟨0, 4095, [(3, 9)], 5, RS 0 4095 { RG with tail := 1, next := 1, done := [(0, [(3, 9), (7, 5)])] }, by decide +kernel⟩,
   ⟨0, 4095, R, by decide +kernel⟩,
   ⟨3, 63, RS 3 63 RG, by decide +kernel⟩,
   ⟨3, 63, RS 3 63 { RG with tail := 9 }, by decide +kernel⟩,
   ⟨4, 63, RS 4 63 { RG with owed := true }, by decide +kernel⟩,
   ⟨4, 63, R, by decide +kernel⟩,
   ⟨2047, { R with vecs := [(2047, ⟨true, true, 0⟩)] }, by decide +kernel⟩,
   ⟨2047, R, by decide +kernel⟩,
   ⟨4095, { RS 1 4095 { RG with rxHold := 1 } with now := 8005, rxHold := [(4095, ⟨[], 1, 2, none, [], false, false, false, 5⟩), (4095, ⟨[], 1, 2, none, [], false, false, false, 6⟩)] }, by decide +kernel⟩,
   ⟨4095, { RS 1 4095 { RG with rxHold := 1 } with now := 8005, rxHold := [(4095, ⟨[], 1, 2, none, [], false, false, false, 6⟩)] }, by decide +kernel⟩⟩

/-- The hypotheses of DmaJobs hold together. -/
theorem witness_DmaJobs :
    (∃ c : Fin 64, ∃ dreq : Bool, ∃ s : State, s.fatal = false ∧ s.halted = false ∧ curPs s 0 = 0 ∧ 
      let b := s.get (DMA_CH_CFG_RSEL c.val) % 8
      
      let s0 : State := { s with dreq := putBits s.dreq b b dreq.toNat }
      
      let x := s.ch c.val
      
      let n := burstLen s0 c.val
      x.job = true ∧ x.chain = false ∧ bits (entryWord x.words 4) 31 24 = 0 ∧ x.pos < x.len ∧ dmaChoice s0 = some c.val ∧ requested s0 c.val = true ∧ staging s0 + stageNeed s0 c.val n ≤ 2 ^ 22) ∧
    (∃ c : Fin 64, ∃ dreq : Bool, ∃ x : Bool, ∃ s : State, curPs s 0 ≠ 0) ∧
    (∃ c : Fin 64, ∃ x : Bool, ∃ s : State, s.fatal = false ∧ s.halted = false ∧ curPs s 0 = 0 ∧ (s.ch c.val).job = true ∧ rkind s c.val = 1 ∧ (s.ch c.val).parked = false ∧ (s.ch c.val).commit = false ∧ (s.ch c.val).issued = true) ∧
    (∃ c : Fin 64, ∃ s : State, s.fatal = false ∧ s.halted = false ∧ (s.ch c.val).job = true ∧ 
      let i := s.get (DMA_CH_STAT_INDEX c.val)
      
      let result : Nat → List (Nat × Nat) := fun st => [(6, s.get (DMA_CH_BYTES_BYTES c.val)),
        (7, st * 2 ^ 27 + (s.ch c.val).wdrawn.toNat * 2 ^ 25 + (s.ch c.val).elems % 65536)]
      (s.ch c.val).issued = false) ∧
    (∃ c : Fin 64, ∃ s : State, s.fatal = false ∧ s.halted = false ∧ (s.ch c.val).job = true ∧ 
      let i := s.get (DMA_CH_STAT_INDEX c.val)
      
      let result : Nat → List (Nat × Nat) := fun st => [(6, s.get (DMA_CH_BYTES_BYTES c.val)),
        (7, st * 2 ^ 27 + (s.ch c.val).wdrawn.toNat * 2 ^ 25 + (s.ch c.val).elems % 65536)]
      (s.ch c.val).issued = true) ∧
    (∃ c : Fin 64, ∃ s : State, s.fatal = false ∧ s.halted = false ∧ (s.ch c.val).job = true ∧ 
      let i := s.get (DMA_CH_STAT_INDEX c.val)
      
      let result : Nat → List (Nat × Nat) := fun st => [(6, s.get (DMA_CH_BYTES_BYTES c.val)),
        (7, st * 2 ^ 27 + (s.ch c.val).wdrawn.toNat * 2 ^ 25 + (s.ch c.val).elems % 65536)]
      (s.ch c.val).commit = true ∧ (s.ch c.val).missed.1 ≠ s.now + 1) ∧
    (∃ c : Fin 64, ∃ s : State, s.fatal = false ∧ s.halted = false ∧ (s.ch c.val).job = true ∧ 
      let i := s.get (DMA_CH_STAT_INDEX c.val)
      
      let result : Nat → List (Nat × Nat) := fun st => [(6, s.get (DMA_CH_BYTES_BYTES c.val)),
        (7, st * 2 ^ 27 + (s.ch c.val).wdrawn.toNat * 2 ^ 25 + (s.ch c.val).elems % 65536)]
      inTick s (s.ch c.val) = false ∧ s.tick.startAt < s.now ∧ s.records 0 13) ∧
    (∃ c : Fin 64, ∃ s : State, (((s.ch c.val).job = true ∧ (s.ch c.val).commit = false) ∨
        ((s.ch c.val).job = false ∧ (s.ch c.val).aborted ≠ s.now + 1))) ∧
    (∃ c : Fin 64, ∃ s : State, ((s.ch c.val).job = false ∨ inTick s (s.ch c.val) = true ∨ s.now ≤ s.tick.startAt)) ∧
    (∃ c : Fin 64, ∃ w : Nat, ∃ s : State, s.fatal = false ∧ s.halted = false ∧ (s.ch c.val).job = false ∧ (s.ring 2 c.val).done = [(s.get (DMA_CH_STAT_INDEX c.val), [(7, w)])] ∧ bits w 30 27 = 0) ∧
    (∃ c : Fin 64, ∃ w : Nat, ∃ s : State, s.fatal = false ∧ s.halted = false ∧ (s.ch c.val).job = false ∧ (s.ring 2 c.val).done = [(s.get (DMA_CH_STAT_INDEX c.val), [(7, w)])] ∧ bits w 30 27 = 1 ∧ (s.ch c.val).aborted = s.now + 1) ∧
    (∃ c : Fin 64, ∃ hw : HostWrites, ∃ err : Option Nat, ∃ s : State, s.fatal = false ∧ s.halted = false ∧ (s.ch c.val).parked = false) ∧
    (∃ c : Fin 64, ∃ hw : HostWrites, ∃ s : State, s.fatal = false ∧ s.halted = false ∧ (s.ch c.val).parked = true ∧ 
      let w7 := (s.hostWrites hw).hostWord ((s.ch c.val).elem + 28)
      bits w7 29 16 ≠ 0) ∧
    (∃ c : Fin 64, ∃ hw : HostWrites, ∃ s : State, s.fatal = false ∧ s.halted = false ∧ (s.ch c.val).parked = true ∧ 
      let w7 := (s.hostWrites hw).hostWord ((s.ch c.val).elem + 28)
      bits w7 29 16 = 0 ∧ bits w7 30 30 = 1) ∧
    (∃ c : Fin 64, ∃ hw : HostWrites, ∃ s : State, s.fatal = false ∧ s.halted = false ∧ (s.ch c.val).parked = true ∧ 
      let w7 := (s.hostWrites hw).hostWord ((s.ch c.val).elem + 28)
      bits w7 29 16 = 0 ∧ bits w7 30 30 = 0 ∧ bits w7 31 31 = 1) :=
  ⟨⟨63, true, { DM JB with hostMem := [(0x1003, 7)] }, by decide +kernel⟩,
   ⟨63, true, false, S [(SHELL_PWR_CUR (shellBase 0), 1)], by decide +kernel⟩,
   ⟨63, false, { S [(DMA_CH_CFG_RKIND 63, 1)] with dma := [(63, { JB with issued := true })] }, by decide +kernel⟩,
   ⟨63, DM JB, by decide +kernel⟩,
   ⟨63, DM { JB with issued := true }, by decide +kernel⟩,
   ⟨63, DM { JB with commit := true, elems := 3, wdrawn := true }, by decide +kernel⟩,
   ⟨63, { DM { JB with deadline := 5 } with now := 1 }, by decide +kernel⟩,
   ⟨63, DM JB, by decide +kernel⟩,
   ⟨63, DM JB, by decide +kernel⟩,
   ⟨63, 77, { DM DmaCh.idle with rings := [(ringK 2 63, { RG with tail := 2, done := [(65535, [(7, 77)])] })] }, by decide +kernel⟩,
   ⟨63, 2 ^ 27, { DM { DmaCh.idle with aborted := 1 } with rings := [(ringK 2 63, { RG with tail := 2, done := [(65535, [(7, 2 ^ 27)])] })] }, by decide +kernel⟩,
   ⟨63, [(0x1000, 5)], none, DM JB, by decide +kernel⟩,
   ⟨63, [(0x101E, 1)], DM { JB with parked := true, elem := 0x1000 }, by decide +kernel⟩,
   ⟨63, [(0x101F, 0x40)], DM { JB with parked := true, elem := 0x1000 }, by decide +kernel⟩,
   ⟨63, [(0x101F, 0x80)], DM { JB with parked := true, elem := 0x1000 }, by decide +kernel⟩⟩

/-- Those of its further clauses. -/
theorem witness_DmaJobs_2 :
    (∃ c : Fin 64, ∃ hw : HostWrites, ∃ s : State, s.fatal = false ∧ s.halted = false ∧ (s.ch c.val).parked = true) :=
  ⟨63, [(0x101F, 0x40)], DM { JB with parked := true, elem := 0x1000 }, by decide +kernel⟩

/-- The hypotheses of SecurityProcessor hold together. -/
theorem witness_SecurityProcessor :
    (∃ req : Bytes, ∃ s : State, challenge s = none) ∧
    (∃ req : Bytes, ∃ s : State, 
      let slot := beField req 8 1
      ∃ nonce, challenge s = some nonce ∧ slotValid s slot = false) ∧
    (∃ s : State, mboxRuns s 1 = true) ∧
    (∃ s : State, mboxRuns s 2 = true) ∧
    (∃ s : State, mboxRuns s 3 = true) ∧
    (∃ s : State, ∃ c : Instr, ∃ op : Nat, ((c = .revoke ∧ op = 1) ∨ (c = .debug ∧ op = 2)) ∧ mboxRuns s 4 = true ∧ leNat (s.bytes mboxA 4) = op) ∧
    (∃ s : State, mboxRuns s 1 = false) ∧
    (∃ s : State, mboxRuns s 2 = false) ∧
    (∃ s : State, mboxRuns s 3 = false) :=
  ⟨⟨List.replicate 5480 1, { R with sec := { R.sec with chal := some ([], 0) }, now := 60000000000 }, by decide +kernel⟩,
   ⟨List.replicate 5480 1, { R with sec := { R.sec with chal := some ([], 0) }, now := 59999999999 }, [], by decide +kernel⟩,
   ⟨MB 1 1, by decide +kernel⟩,
   ⟨MB 2 32, by decide +kernel⟩,
   ⟨MB 3 0, by decide +kernel⟩,
   ⟨{ MB 4 5480 with mem := [(mboxA, 2)] }, .debug, 2, by decide +kernel⟩,
   ⟨R, by decide +kernel⟩,
   ⟨R, by decide +kernel⟩,
   ⟨R, by decide +kernel⟩⟩

/-- Those of its further clauses. -/
theorem witness_SecurityProcessor_2 :
    (∃ s : State, ((mboxRuns s 4 = false ∨ leNat (s.bytes mboxA 4) ≠ 1))) ∧
    (∃ s : State, ((mboxRuns s 4 = false ∨ leNat (s.bytes mboxA 4) ≠ 2))) ∧
    (∃ s : State, ∃ n : Bytes, ∃ t0 : Nat, s.sec.chal = some (n, t0) ∧ t0 + 60000000000 ≤ s.now) ∧
    (∃ s : State, ∃ n : Bytes, ∃ t0 : Nat, s.sec.chal = some (n, t0) ∧ s.now < t0 + 60000000000) ∧
    (∃ req : Bytes, ∃ s : State, ((req.length ≠ 5480 ∨ ¬ (leNat (req.take 4) = 1 ∨ leNat (req.take 4) = 2)))) ∧
    (∃ req : Bytes, ∃ s : State, req.length = 5480 ∧ ((leNat (req.take 4) = 1 ∨ leNat (req.take 4) = 2))) ∧
    (∃ req : Bytes, ∃ s : State, s.fatal = false ∧ req.length ≤ 4096) ∧
    (∃ q : SpdmFrom, ∃ req : Bytes, ∃ s : State, ∃ u : State, 
      let p := q.port.val
      (req.length ≤ 4096 ∧ macUp s p = true ∧ q.ver = 1 ∧ timeLeader s = true) ∧ lineTakes s p (typedHead 0x88B6 [1, 1]) q.varRx q.sec = (true, u) ∧ (((u.port p).spdmAt = 0 ∨ (u.port p).spdmAt + 1000000 ≤ s.now + 1)) ∧ canSend u p = true ∧ curPs u (portK p) = 0 ∧ inFlight u p = none ∧ (u.port p).jobs = [] ∧ 
      let a := spdmAnswer s (s.spdm (p + 1)) req (Config.freeNat u.free)
      
      let f := padFrame (secFrame u q.sa.toNat 1 (spdmFit a.1))
      secTxOk u p f = true) ∧
    (∃ q : SpdmFrom, ∃ req : Bytes, ∃ s : State, q.ver ≠ 1) ∧
    (∃ q : SpdmFrom, ∃ req : Bytes, ∃ s : State, 
      let p := q.port.val
      macUp s p = true ∧ q.ver = 1 ∧ req.length ≤ 4096 ∧ (s.port p).spdmAt ≠ 0 ∧ s.now + 1 < (s.port p).spdmAt + 1000000) ∧
    (∃ s : State, ∃ x : SpdmSt, ∃ req : Bytes, ∃ n : Nat, beField req 1 1 = 0x84) ∧
    (∃ s : State, ∃ x : SpdmSt, ∃ req : Bytes, ∃ n : Nat, beField req 1 1 = 0xE1 ∧ beField req 0 1 = 0x12 ∧ x.phase = 1) ∧
    (∃ s : State, ∃ x : SpdmSt, ∃ req : Bytes, ∃ n : Nat, beField req 1 1 = 0xE0 ∧ beField req 0 1 = 0x12 ∧ x.phase = 3 ∧ beField req 2 1 % 2 = 0 ∧ beField req 3 1 = 0) :=
  ⟨⟨R, by decide +kernel⟩,
   ⟨R, by decide +kernel⟩,
   ⟨{ R with sec := { R.sec with chal := some ([], 0) }, now := 60000000000 }, [], 0, by decide +kernel⟩,
   ⟨{ R with sec := { R.sec with chal := some ([], 0) }, now := 59999999999 }, [], 0, by decide +kernel⟩,
   ⟨[1], R, by decide +kernel⟩,
   ⟨2 :: List.replicate 5479 0, R, by decide +kernel⟩,
   ⟨[1], R, by decide +kernel⟩,
   ⟨⟨127, 0x02AABBCCDDEE, 1, ⟨false, 0, 0, 0⟩, 5⟩, [1], LK 127, lineU (LK 127) (typedHead 0x88B6 [1, 1]), by decide +kernel, (lineU_of (by decide +kernel)), by decide +kernel⟩,
   ⟨⟨127, 0x02AABBCCDDEE, 2, ⟨false, 0, 0, 0⟩, 5⟩, [1], R, by decide +kernel⟩,
   ⟨⟨127, 0x02AABBCCDDEE, 1, ⟨false, 0, 0, 0⟩, 5⟩, [1], { LK 127 with now := 1000003, ports := [(127, { PortSt.rst with spdmAt := 5 })] }, by decide +kernel⟩,
   ⟨R, SpdmSt.rst, [0x10, 0x84, 0, 0], 5, by decide +kernel⟩,
   ⟨R, ⟨1, [], [], []⟩, [0x12, 0xE1, 0, 0], 5, by decide +kernel⟩,
   ⟨R, ⟨3, [], [], []⟩, [0x12, 0xE0, 0, 0], 5, by decide +kernel⟩⟩

/-- The hypotheses of PairHandshake hold together. -/
theorem witness_PairHandshake :
    (∃ p : Port, ∃ x : SecBody, ∃ s : State, ((hsUp s p.val = false ∨ x.ver ≠ 1))) ∧
    (∃ p : Port, ∃ s : State, hsUp s p.val = false) ∧
    (∃ p : Port, ∃ x : SecBody, ∃ pay : Bytes, ∃ typ : Nat, ∃ s : State, ∃ u : State, hsTakes s p.val typ x = (some pay, u)) ∧
    (∃ p : Port, ∃ x : SecBody, ∃ pay : Bytes, ∃ s : State, ∃ u : State, trustOf u p.val (hsIdh pay) = none ∧ hsTakes s p.val 2 x = (some pay, u)) ∧
    (∃ p : Port, ∃ x : SecBody, ∃ pay : Bytes, ∃ s : State, ∃ u : State, trustOf u p.val (hsIdh pay) = none ∧ hsTakes s p.val 3 x = (some pay, u)) ∧
    (
      let free : State → Nat → Prop := fun s p =>
        canSend s p = true ∧ curPs s (portK p) = 0 ∧ inFlight s p = none ∧ (s.port p).jobs = []
      ∃ p : Port, ∃ c : Instr, ∃ s : State, hsUp s p.val = true ∧ free s p.val ∧ ((c = .hs1Resend p ∧ s.get (PRT_SEC_STAT_PAIR p.val) ≠ 2 ∧ (s.key p.val).hs1At + 1000000000 ≤ s.now) ∨
        (c = .rehandshake p ∧ s.get (PRT_SEC_STAT_PAIR p.val) = 2 ∧
          max (s.key p.val).cakAt (s.key p.val).hs1At + 86400000000000 ≤ s.now ∧
          beNat ownIdh ≤ beNat ((tget [] s.sec.trust (s.get (PRT_SEC_STAT_PEER p.val))).take 48)))) ∧
    (∃ p : Port, ∃ s : State, ((s.get (PRT_SEC_STAT_PAIR p.val) = 2 ∨ s.now < (s.key p.val).hs1At + 1000000000))) ∧
    (∃ p : Port, ∃ s : State, ((s.get (PRT_SEC_STAT_PAIR p.val) ≠ 2 ∨ s.now < max (s.key p.val).cakAt (s.key p.val).hs1At + 86400000000000))) :=
  ⟨⟨127, ⟨2, 0, [], 5⟩, R, by decide +kernel⟩,
   ⟨127, R, by decide +kernel⟩,
   ⟨127, HB, [1, 2, 3], 2, S (ULK 127 ++ [(PRT_SEC_CFG_PAIR_EN 127, 1)]), hsU (S (ULK 127 ++ [(PRT_SEC_CFG_PAIR_EN 127, 1)])) 2, (hsU_of (by decide +kernel))⟩,
   ⟨127, HB, [1, 2, 3], S (ULK 127 ++ [(PRT_SEC_CFG_PAIR_EN 127, 1)]), hsU (S (ULK 127 ++ [(PRT_SEC_CFG_PAIR_EN 127, 1)])) 2, by decide +kernel, (hsU_of (by decide +kernel))⟩,
   ⟨127, HB, [1, 2, 3], S (ULK 127 ++ [(PRT_SEC_CFG_PAIR_EN 127, 1)]), hsU (S (ULK 127 ++ [(PRT_SEC_CFG_PAIR_EN 127, 1)])) 3, by decide +kernel, (hsU_of (by decide +kernel))⟩,
   ⟨127, .hs1Resend 127, { S (ULK 127 ++ [(PRT_SEC_CFG_PAIR_EN 127, 1)]) with now := 1000000000 }, by decide +kernel⟩,
   ⟨127, { R with now := 999999999 }, by decide +kernel⟩,
   ⟨127, R, by decide +kernel⟩⟩

/-- The hypotheses of KeyAgreement hold together. -/
theorem witness_KeyAgreement :
    (∃ p : Port, ∃ sc : Fin 16, ∃ prio : Byte, ∃ sci : Nat, ∃ sak : Option SakIn, ∃ x : MkaEnd, ∃ s : State, macUp s p.val = false) ∧
    (∃ p : Port, ∃ sc : Fin 16, ∃ prio : Byte, ∃ sci : Nat, ∃ sak : Option SakIn, ∃ x : MkaEnd, ∃ s : State, ∃ u, lineTakes s p.val (typedHead 0x888E []) x.varRx ⟨false, 0, 0, 0⟩ = (true, u) ∧ ((x.icvOk = false ∨ (u.key p.val).cak = none)) ∧ macUp s p.val = true) ∧
    (∃ p : Port, ∃ sc : Fin 16, ∃ prio : Byte, ∃ sci : Nat, ∃ sak : Option SakIn, ∃ varRx : Nat, ∃ s : State, ∃ u : State, macUp s p.val = true ∧ lineTakes s p.val (typedHead 0x888E []) varRx ⟨false, 0, 0, 0⟩ = (true, u) ∧ (u.key p.val).cak.isSome = true ∧ ((s.get (PRT_SEC_STAT_PAIR p.val) = 2 ∨ isUlc u p.val = false)) ∧ 
      let k := u.key p.val
      
      let peers := hearPeer k.peers ⟨sc.val, prio.toNat, sci, s.now⟩
      ((∀ y ∈ k.peers, y.sci ≠ sci)) ∧ ((∀ y ∈ k.peers, y.sc ≠ sc.val))) ∧
    (∃ p : Port, ∃ sc : Fin 16, ∃ prio : Byte, ∃ sci : Nat, ∃ sak : Option SakIn, ∃ varRx : Nat, ∃ s : State, ∃ u : State, macUp s p.val = true ∧ lineTakes s p.val (typedHead 0x888E []) varRx ⟨false, 0, 0, 0⟩ = (true, u) ∧ (u.key p.val).cak.isSome = true ∧ ((s.get (PRT_SEC_STAT_PAIR p.val) = 2 ∨ isUlc u p.val = false)) ∧ 
      let k := u.key p.val
      
      let peers := hearPeer k.peers ⟨sc.val, prio.toNat, sci, s.now⟩
      ((∀ y ∈ k.peers, y.sci ≠ sci)) ∧ ((∃ y ∈ k.peers, y.sc = sc.val))) ∧
    (∃ p : Port, ∃ sc : Fin 16, ∃ prio : Byte, ∃ sci : Nat, ∃ sak : Option SakIn, ∃ varRx : Nat, ∃ s : State, ∃ u : State, macUp s p.val = true ∧ lineTakes s p.val (typedHead 0x888E []) varRx ⟨false, 0, 0, 0⟩ = (true, u) ∧ (u.key p.val).cak.isSome = true ∧ ((s.get (PRT_SEC_STAT_PAIR p.val) = 2 ∨ isUlc u p.val = false)) ∧ 
      let k := u.key p.val
      
      let peers := hearPeer k.peers ⟨sc.val, prio.toNat, sci, s.now⟩
      
      let server := isServer (u.setKey p.val { k with peers := peers }) p.val
      (((server = true ∧ peers.length = k.peers.length) ∨ (server = false ∧ sak = none) ∨
        (server = false ∧ s.get (PRT_SEC_CFG_EN p.val) = 0)))) ∧
    (∃ p : Port, ∃ sc : Fin 16, ∃ prio : Byte, ∃ sci : Nat, ∃ sak : Option SakIn, ∃ varRx : Nat, ∃ s : State, ∃ u : State, macUp s p.val = true ∧ lineTakes s p.val (typedHead 0x888E []) varRx ⟨false, 0, 0, 0⟩ = (true, u) ∧ ((u.key p.val).cak.isSome = true ∧ ((s.get (PRT_SEC_STAT_PAIR p.val) = 2 ∨ isUlc u p.val = false))) ∧ 
      let k := u.key p.val
      
      let peers := hearPeer k.peers ⟨sc.val, prio.toNat, sci, s.now⟩
      
      let server := isServer (u.setKey p.val { k with peers := peers }) p.val
      ∃ y : SakIn, server = false ∧ sak = some y ∧ s.get (PRT_SEC_CFG_EN p.val) = 1 ∧ u.get (PRT_SEC_STAT_TXSA p.val) = 0) ∧
    (∃ p : Port, ∃ s : State, macUp s p.val = true ∧ (s.key p.val).cak.isSome = true ∧ (s.key p.val).helloAt + 2000000000 ≤ s.now ∧ curPs s (portK p.val) = 0 ∧ inFlight s p.val = none ∧ (s.port p.val).jobs = []) ∧
    (∃ p : Port, ∃ s : State, (((s.key p.val).cak = none ∨ s.now < (s.key p.val).helloAt + 2000000000))) ∧
    (∃ p : Port, ∃ sc : Fin 16, ∃ x : PeerSt, ∃ s : State, s.fatal = false ∧ (s.key p.val).peers.find? (fun y => y.sc == sc.val) = some x ∧ s.now < x.heard + 6000000000) ∧
    (∃ p : Port, ∃ sc : Fin 16, ∃ x : PeerSt, ∃ s : State, s.fatal = false ∧ (s.key p.val).peers.find? (fun y => y.sc == sc.val) = some x ∧ x.heard + 6000000000 ≤ s.now) ∧
    (∃ p : Port, ∃ s : State, macUp s p.val = true ∧ s.get (PRT_SEC_CFG_EN p.val) = 1 ∧ s.get (PRT_SEC_STAT_TXSA p.val) = 1 ∧ rekeyPn s p.val ≤ tget 0 s.txPn p.val ∧ isServer s p.val = true ∧ (s.key p.val).peers ≠ [] ∧ curPs s (portK p.val) = 0 ∧ inFlight s p.val = none ∧ (s.port p.val).jobs = []) ∧
    (∃ p : Port, ∃ s : State, ((s.get (PRT_SEC_STAT_TXSA p.val) = 0 ∨ tget 0 s.txPn p.val < rekeyPn s p.val ∨
        isServer s p.val = false))) ∧
    (∃ p : Port, ∃ t0 : Nat, ∃ old : Bytes, ∃ ckn : Bytes, ∃ s : State, s.fatal = false ∧ (s.key p.val).oldPtp = some (t0, old, ckn) ∧ t0 + 10000000000 ≤ s.now) ∧
    (∃ p : Port, ∃ t0 : Nat, ∃ old : Bytes, ∃ ckn : Bytes, ∃ s : State, s.fatal = false ∧ (s.key p.val).oldPtp = some (t0, old, ckn) ∧ s.now < t0 + 10000000000) :=
  ⟨⟨127, 15, 1, 5, none, ⟨true, 5⟩, R, by decide +kernel⟩,
   ⟨127, 15, 1, 5, none, ⟨false, 5⟩, LK 127, lineU (LK 127) (typedHead 0x888E []), (lineU_of (by decide +kernel)), by decide +kernel⟩,
   ⟨127, 15, 1, 5, none, 5, { LK 127 with keys := [(127, { KeySt.rst with cak := some [3], peers := [⟨14, 1, 6, 0⟩] })] }, lineU ({ LK 127 with keys := [(127, { KeySt.rst with cak := some [3], peers := [⟨14, 1, 6, 0⟩] })] }) (typedHead 0x888E []), by decide +kernel, (lineU_of (by decide +kernel)), by decide +kernel⟩,
   ⟨127, 15, 1, 5, none, 5, { LK 127 with keys := [(127, { KeySt.rst with cak := some [3], peers := [⟨15, 1, 6, 0⟩] })] }, lineU ({ LK 127 with keys := [(127, { KeySt.rst with cak := some [3], peers := [⟨15, 1, 6, 0⟩] })] }) (typedHead 0x888E []), by decide +kernel, (lineU_of (by decide +kernel)), by decide +kernel⟩,
   ⟨127, 15, 1, 5, none, 5, { LK 127 with keys := [(127, { KeySt.rst with cak := some [3], peers := [⟨15, 1, 5, 0⟩] })] }, lineU ({ LK 127 with keys := [(127, { KeySt.rst with cak := some [3], peers := [⟨15, 1, 5, 0⟩] })] }) (typedHead 0x888E []), by decide +kernel, (lineU_of (by decide +kernel)), by decide +kernel⟩,
   ⟨127, 15, 0, 5, some ⟨3, [7, 8]⟩, 5, { S (ULK 127 ++ [(PRT_SEC_CFG_EN 127, 1), (PRT_SEC_CFG_KS_PRIO 127, 9)]) with keys := [(127, { KeySt.rst with cak := some [3] })] }, lineU ({ S (ULK 127 ++ [(PRT_SEC_CFG_EN 127, 1), (PRT_SEC_CFG_KS_PRIO 127, 9)]) with keys := [(127, { KeySt.rst with cak := some [3] })] }) (typedHead 0x888E []), by decide +kernel, (lineU_of (by decide +kernel)), by decide +kernel, ⟨3, [7, 8]⟩, by decide +kernel⟩,
   ⟨127, { LK 127 with keys := [(127, { KeySt.rst with cak := some [3] })], now := 2000000000 }, by decide +kernel⟩,
   ⟨127, R, by decide +kernel⟩,
   ⟨127, 15, ⟨15, 1, 5, 0⟩, { LK 127 with keys := [(127, { KeySt.rst with cak := some [3], peers := [⟨15, 1, 5, 0⟩] })], now := 5999999999 }, by decide +kernel⟩,
   ⟨127, 15, ⟨15, 1, 5, 0⟩, { LK 127 with keys := [(127, { KeySt.rst with cak := some [3], peers := [⟨15, 1, 5, 0⟩] })], now := 6000000000 }, by decide +kernel⟩,
   ⟨127, { S (ULK 127 ++ [(PRT_SEC_CFG_EN 127, 1), (PRT_SEC_STAT_TXSA 127, 1), (PRT_SEC_CFG_KS_PRIO 127, 0)]) with keys := [(127, { KeySt.rst with cak := some [3], peers := [⟨15, 1, 5, 0⟩] })], txPn := [(127, 0xC0000000)] }, by decide +kernel⟩,
   ⟨127, R, by decide +kernel⟩,
   ⟨127, 5, [1], [2], { R with keys := [(127, { KeySt.rst with cak := some [3], oldPtp := some (5, [1], [2]) })], now := 10000000005 }, by decide +kernel⟩,
   ⟨127, 5, [1], [2], { R with keys := [(127, { KeySt.rst with cak := some [3], oldPtp := some (5, [1], [2]) })], now := 10000000004 }, by decide +kernel⟩⟩

/-- The hypotheses of PowerTransitions hold together. -/
theorem witness_PowerTransitions :
    (∃ k : Nat, ∃ s : State, levelOf k ≠ 1 ∧ psChoice s k ≠ 0) ∧
    (∃ k : Nat, ∃ s : State, levelOf k ≠ 1) ∧
    (∃ k : Nat, ∃ s : State, levelOf k ≠ 1 ∧ ∃ y, psChoice s k < y ∧ y ≤ 4) ∧
    (∃ u : Fin 661, ∃ s : State, ((pwrRuns s u.val = false ∨ (s.toPs u.val).getD (curPs s u.val) = psChoice (evalView s) u.val))) ∧
    (∃ u : Fin 661, ∃ s : State, pwrRuns s u.val = true ∧ (s.toPs u.val).getD (curPs s u.val) ≠ psChoice (evalView s) u.val) ∧
    (∃ k : Nat, ∃ s : State, s.nextevWas = []) ∧
    (∃ u : Fin 661, ∃ s : State, pwrRuns s u.val = true ∧ levelOf u.val ≠ 1 ∧ curPs s u.val ≠ 0 ∧ (((∃ d, unitDist s u.val = some d ∧ d ≤ s.get PWR_CTL_WAKE_MARGIN + wakeNs (curPs s u.val)) ∨ psChoice s u.val = 0))) ∧
    (∃ u : Fin 661, ∃ s : State, ((pwrRuns s u.val = false ∨ curPs s u.val = 0 ∨ levelOf u.val = 1 ∨
        (psChoice s u.val ≠ 0 ∧ ∀ d, unitDist s u.val = some d → s.get PWR_CTL_WAKE_MARGIN + wakeNs (curPs s u.val) < d)))) ∧
    (∃ u : Fin 661, ∃ x : Nat, ∃ s : State, pwrRuns s u.val = true ∧ s.toPs u.val = some x ∧ x ≤ 4 ∧ ((x < curPs s u.val → u.val = 0 ∨ curPs s (parentOf u.val) ≤ x)) ∧ ((curPs s u.val ≤ x → ∀ c ∈ boundKids s u.val, x ≤ curPs s c))) ∧
    (∃ u : Fin 661, ∃ s : State, s.toPs u.val = none) ∧
    (∃ u : Fin 661, ∃ x : Nat, ∃ s : State, s.toPs u.val = some x ∧ (((x < curPs s u.val ∧ u.val ≠ 0 ∧ x < curPs s (parentOf u.val)) ∨
        (curPs s u.val ≤ x ∧ ∃ c ∈ boundKids s u.val, curPs s c < x)))) :=
  ⟨⟨148, S [], by decide +kernel⟩,
   ⟨148, S [], by decide +kernel⟩,
   ⟨148, S (ULK 127), by decide +kernel, 4, by decide +kernel⟩,
   ⟨660, R, by decide +kernel⟩,
   ⟨148, S (ULK 127 ++ [(PWR_CTL_RUN, 1)]), by decide +kernel⟩,
   ⟨516, R, by decide +kernel⟩,
   ⟨148, { S (ULK 127 ++ [(PWR_CTL_RUN, 1), (SHELL_PWR_CUR (shellBase 148), 2)]) with queues := [(qK 127 2, [{ Q 4 with cue := false }])] }, by decide +kernel⟩,
   ⟨660, R, by decide +kernel⟩,
   ⟨660, 4, { S [(PWR_CTL_RUN, 1)] with pwr := [(660, some 4)] }, by decide +kernel⟩,
   ⟨660, R, by decide +kernel⟩,
   ⟨660, 3, { S [(PWR_CTL_RUN, 1), (SHELL_PWR_CUR (shellBase 660), 4), (SHELL_PWR_CUR (shellBase 148), 4)] with pwr := [(660, some 3)] }, by decide +kernel⟩⟩

/-- The hypotheses of SideInterfaces hold together. -/
theorem witness_SideInterfaces :
    (∃ s : State, s.collector = true) ∧
    (∃ s : State, s.collector = true ∧ ∃ off : Word, ∃ c : Option Byte, 
      let call := [0x10, 4] ++ leBytes 4 off.toNat
      c.any (fun b => b != pec (smbWr s :: call)) = true) ∧
    (∃ s : State, s.collector = true ∧ ∃ off : Word, ∃ c : Option Byte, 
      let call := [0x10, 4] ++ leBytes 4 off.toNat
      c.any (fun b => b != pec (smbWr s :: call)) = false) ∧
    (∃ x : SmbCall, ∃ s : State, s.collector = false) ∧
    (∃ v : Nat, ∃ s : State, ((s.locked = false ∨ s.get SEC_STAT_DBG % 2 = 1))) ∧
    (∃ v : Nat, ∃ s : State, (s.locked = true ∧ s.get SEC_STAT_DBG % 2 = 0) ∧ ∃ c, c ∈ [Instr.extest, .extestPulse, .extestTrain, .samplePreload v]) :=
  ⟨⟨S [(FLT_TEMP_T, 77)], by decide +kernel⟩,
   ⟨S [(FLT_TEMP_T, 77)], by decide +kernel, 0x1000, some (pec (smbWr (S [(FLT_TEMP_T, 77)]) :: ([0x10, 4] ++ leBytes 4 0x1000)) + 1), by decide +kernel⟩,
   ⟨S [(FLT_TEMP_T, 77)], by decide +kernel, 0x1000, some (pec (smbWr (S [(FLT_TEMP_T, 77)]) :: ([0x10, 4] ++ leBytes 4 0x1000))), by decide +kernel⟩,
   ⟨⟨5, none⟩, { R with collector := false }, by decide +kernel⟩,
   ⟨5, R, by decide +kernel⟩,
   ⟨5, { R with locked := true }, by decide +kernel, .samplePreload 5, by decide +kernel⟩⟩

/-- The hypotheses of BootStarts hold together. -/
theorem witness_BootStarts :
    (∃ s : State, s.fatal = false ∧ s.evNow warmK = false ∧ s.get BOOT_STATE_STATE ≠ 0) ∧
    (∃ s : State, ((s.fatal = true ∨ s.evNow warmK = true))) ∧
    (∃ s : State, s.fatal = false ∧ s.evNow warmK = false ∧ s.get BOOT_STATE_STATE = 0) ∧
    (∃ s : State, s.boot.wrote.1 ≠ s.now) ∧
    (∃ s : State, s.fatal = false ∧ s.get BOOT_STATE_STATE = 1 ∧ s.get BOOT_STATE_RESTARTED = 0 ∧ s.mem.getLE 0x4000000 4 ≠ 0x4953425A) ∧
    (∃ code : Nat, ∃ ofs : Nat, ∃ s : State, s.fatal = false ∧ s.get BOOT_STATE_STATE = 1 ∧ s.get BOOT_STATE_RESTARTED = 0 ∧ ((step1 s (bar2A 0) = some (code, ofs) ∨ (step1 s (bar2A 0) = none ∧ steps2to6 s = some (code, ofs))))) ∧
    (∃ base : Nat, ∃ s : State, s.fatal = false ∧ s.get BOOT_STATE_STATE = 1 ∧ (((s.get BOOT_STATE_RESTARTED = 1 ∧ base = retainedA) ∨
        (s.get BOOT_STATE_RESTARTED = 0 ∧ base = bar2A 0 ∧ step1 s base = none ∧ steps2to6 s = none))) ∧ logN s < 239) ∧
    (∃ ok : Bool, ∃ s : State, s.fatal = false ∧ s.evNow warmK = false ∧ s.get BOOT_STATE_STATE = 0 ∧ s.get BOOT_STATE_RETAINED = 0) ∧
    (∃ s : State, s.fatal = false ∧ s.evNow warmK = false ∧ s.get BOOT_STATE_STATE = 0 ∧ s.get BOOT_STATE_RETAINED = 1 ∧ slotValid s (s.get BOOT_STATE_RSLOT) = true) :=
  ⟨⟨S [(BOOT_STATE_STATE, 5)], by decide +kernel⟩,
   ⟨{ R with fatal := true }, by decide +kernel⟩,
   ⟨S [(BOOT_STATE_STATE, 0)], by decide +kernel⟩,
   ⟨{ R with fatal := true, now := 5 }, by decide +kernel⟩,
   ⟨S [(BOOT_STATE_STATE, 1)], by decide +kernel⟩,
   ⟨0x0101, 4, (S [(BOOT_STATE_STATE, 1)]).putBytes 0x4000000 (leBytes 4 0x4953425A), by decide +kernel⟩,
   ⟨retainedA, S [(BOOT_STATE_STATE, 1), (BOOT_STATE_RESTARTED, 1)], by decide +kernel⟩,
   ⟨true, R, by decide +kernel⟩,
   ⟨{ S [(BOOT_STATE_RETAINED, 1), (BOOT_STATE_RSLOT, 3)] with sec := { R.sec with slots := [(3, ⟨5, true, false⟩)] } }, by decide +kernel⟩⟩

/-- The hypotheses of BootWrites hold together. -/
theorem witness_BootWrites :
    (∃ r : RegDesc, ∃ s : State, bootAt s 1 = true ∧ bootW s 0 % 4 = 0 ∧ 0x100000 ≤ bootW s 1 ∧ bootW s 1 < 0x300000 ∧ regDesc (bootW s 1) = some r) ∧
    (∃ s : State, bootAt s 2 = true ∧ 
      let n := bootW s 0 % 65536
      0x100000 ≤ bootW s 1 ∧ bootW s 1 + 4 * n ≤ 0x300000) ∧
    (∃ s : State, bootAt s 3 = true ∧ logN s < 239 ∧ 
      let n := bits (bootW s 1) 31 16
      
      let a := bootW s 1 % 0x2000
      a + n ≤ 0x2000) ∧
    (∃ s : State, bindAt s 0 = true) ∧
    (∃ s : State, bindAt s 1 = true) ∧
    (∃ s : State, bindAt s 2 = true) ∧
    (∃ s : State, bootAt s 5 = true) ∧
    (∃ s : State, (bootAt s 6 = true ∧ logN s < 239) ∧ ∃ rb : Bool, s.get BOOT_STATE_RESTARTED = 0) ∧
    (∃ s : State, (bootAt s 6 = true ∧ logN s < 239) ∧ ∃ rb : Bool, s.get BOOT_STATE_RESTARTED = 1) ∧
    (∃ s : State, s.fatal = false ∧ s.get BOOT_STATE_STATE = 2 ∧ bootOp s = 6 ∧ s.boot.claim = some true) ∧
    (∃ s : State, s.fatal = false ∧ s.get BOOT_STATE_STATE = 2 ∧ bootOp s = 6 ∧ s.boot.claim = some false ∧ s.collector = true) ∧
    (∃ rb : Bool, ∃ s : State, ((s.fatal = true ∨ s.get BOOT_STATE_STATE ≠ 2 ∨ s.boot.claim.isSome = true)) ∧ ∃ c, c ∈ [Instr.write, .writeBlock, .loadStore, .bindTick, .bindHost, .bindSp, .trust, .claimOwner rb, .setTime, .waitUntil,
        .ifFuse, .commit]) :=
  ⟨⟨((regDesc 0x100000).getD ⟨0,0,0,0,0,0,0,0,0,0,0⟩), BI [0x01000000, 0x100000, 0xFFFFFFFF], by decide +kernel⟩,
   ⟨BI [0x02000002, 0x100000, 0xFFFFFFFF, 0x12345678], by decide +kernel⟩,
   ⟨BI [0x03008001, 0x00021FFE, 1, 2, 3, 4, 5, 6, 7, 8], by decide +kernel⟩,
   ⟨BI [0x04000007], by decide +kernel⟩,
   ⟨BI [0x041FC000, 0x0506], by decide +kernel⟩,
   ⟨BI [0x042FC00F], by decide +kernel⟩,
   ⟨BI (0x050000FF :: List.replicate 16 0x12345678), by decide +kernel⟩,
   ⟨BI (0x06000003 :: List.replicate 12 0x12345678), by decide +kernel, true, by decide +kernel⟩,
   ⟨BIs [(BOOT_STATE_STATE, 2), (BOOT_STATE_RESTARTED, 1)] (0x06000003 :: List.replicate 12 0x12345678), by decide +kernel, true, by decide +kernel⟩,
   ⟨{ BI (0x06000003 :: List.replicate 12 0x12345678) with boot := ⟨0x4000000, 5528, 0, some true, (0, [])⟩ }, by decide +kernel⟩,
   ⟨{ BI (0x06000003 :: List.replicate 12 0x12345678) with boot := ⟨0x4000000, 5528, 0, some false, (0, [])⟩ }, by decide +kernel⟩,
   ⟨true, R, by decide +kernel, .commit, by decide +kernel⟩⟩

/-- The hypotheses of BootWaitsAndCommit hold together. -/
theorem witness_BootWaitsAndCommit :
    (∃ s : State, bootAt s 7 = true) ∧
    (∃ n : TbIx, ∃ v : Nat, ∃ s : State, s.steps = [StepDue.mk n.val 0 (some v) none none false] ∧ ((n.val ≠ s.tickTb ∨ s.tick.run = false))) ∧
    (∃ n : TbIx, ∃ v : Nat, ∃ s : State, (s.steps = [StepDue.mk n.val 0 (some v) none none false] ∧ ((n.val ≠ s.tickTb ∨ s.tick.run = false))) ∧ ∃ m, m ≠ n.val) ∧
    (∃ s : State, bits (bootW s 0) 23 20 = 0) ∧
    (∃ s : State, bits (bootW s 0) 23 20 ≠ 0 ∧ ((bootW s 1 % 4 ≠ 0 ∨ 0x4000000 ≤ bootW s 1)) ∧ s.get GLB_ACC_ERR_VALID = 0) ∧
    (∃ s : State, bootAt s 8 = true ∧ waitMet s = true) ∧
    (∃ s : State, bootAt s 8 = true ∧ waitMet s = false) ∧
    (∃ s : State, bootWaits s = true ∧ waitMet s = true ∧ bootOp s = 8) ∧
    (∃ s : State, bootWaits s = false) ∧
    (∃ s : State, bootWaits s = true ∧ waitMet s = false) ∧
    (∃ s : State, bootWaits s = true ∧ waitMet s = false ∧ s.boot.waitEnd ≤ s.now) ∧
    (∃ s : State, ((bootWaits s = false ∨ s.now < s.boot.waitEnd))) ∧
    (∃ s : State, bootAt s 9 = true ∧ 
      let w0 := bootW s 0
      
      let same := fuseField s (bits w0 23 16) = bits w0 15 8
      ((same ∧ bits w0 7 7 = 0) ∨ (¬ same ∧ bits w0 7 7 = 1))) ∧
    (∃ s : State, bootAt s 9 = true ∧ 
      let w0 := bootW s 0
      
      let same := fuseField s (bits w0 23 16) = bits w0 15 8
      ((same ∧ bits w0 7 7 = 1) ∨ (¬ same ∧ bits w0 7 7 = 0))) ∧
    (∃ s : State, bootAt s 10 = true) ∧
    (∃ code : Nat, ∃ arg : Nat, ∃ s : State, s.fatal = false ∧ s.get BOOT_STATE_STATE = 4 ∧ commitFault s = some (code, arg) ∧ code ≠ 0x0705) ∧
    (∃ s : State, s.fatal = false ∧ s.get BOOT_STATE_STATE = 4 ∧ commitFault s = none) :=
  ⟨⟨BI [0x07000007, 0xFFFFFFFF, 0xFFFF0000], by decide +kernel⟩,
   ⟨7, 1234567, { R with steps := [StepDue.mk 7 0 (some 1234567) none none false] }, by decide +kernel⟩,
   ⟨7, 1234567, { R with steps := [StepDue.mk 7 0 (some 1234567) none none false] }, by decide +kernel, 6, by decide +kernel⟩,
   ⟨R, by decide +kernel⟩,
   ⟨BI [0x08100008, 0x4000000, 0], by decide +kernel⟩,
   ⟨BI [0x08000008, 0, 0], by decide +kernel⟩,
   ⟨BI [0x08000008, 5, 7], by decide +kernel⟩,
   ⟨BIs [(BOOT_STATE_STATE, 3)] [0x08000008, 0, 0], by decide +kernel⟩,
   ⟨R, by decide +kernel⟩,
   ⟨BIs [(BOOT_STATE_STATE, 3)] [0x08000008, 5, 7], by decide +kernel⟩,
   ⟨BIs [(BOOT_STATE_STATE, 3)] [0x08000008, 5, 0], by decide +kernel⟩,
   ⟨R, by decide +kernel⟩,
   ⟨BI [0x09000000, 1], by decide +kernel⟩,
   ⟨BI [0x09000100, 1, 0x01000000], by decide +kernel⟩,
   ⟨BI [0x0A000000], by decide +kernel⟩,
   ⟨0x0801, 0, S [(BOOT_STATE_STATE, 4), (GLB_TICK_CTL_RUN, 1), (GLB_TICK_PER_NS, 1000000), (GLB_TICK_CTL_CYCLE, 1)], by decide +kernel⟩,
   ⟨S [(BOOT_STATE_STATE, 4)], by decide +kernel⟩⟩

/-- The hypotheses of CompoundNode hold together. -/
theorem witness_CompoundNode :
    (∃ p : Port, ∃ t1 : Int, ∃ t2 : Int, ∃ t3 : Int, ∃ t4 : Int, ∃ t0 : Word, ∃ num : Word, ∃ sync : Bool, ∃ s : State, s.locked = true ∧ ulcCarries s p.val = true ∧ timeLink s p.val = true ∧ s.ulc.joined = true) ∧
    (∃ p : Port, ∃ t1 : Int, ∃ t2 : Int, ∃ t3 : Int, ∃ t4 : Int, ∃ t0 : Word, ∃ num : Word, ∃ sync : Bool, ∃ s : State, s.locked = true ∧ ulcCarries s p.val = true ∧ timeLink s p.val = true ∧ s.ulc.joined = false) ∧
    (∃ p : Port, ∃ t1 : Int, ∃ t2 : Int, ∃ t3 : Int, ∃ t4 : Int, ∃ t0 : Word, ∃ num : Word, ∃ sync : Bool, ∃ s : State, ((s.locked = false ∨ ulcCarries s p.val = false))) ∧
    (∃ p : Port, ∃ x : Heard, ∃ shell : List Word, ∃ present : Fin 16, ∃ direct : Fin 16, ∃ s : State, ulcCarries s p.val = true ∧ 
      let c := s.get (PRT_ULC_DEPTH p.val)
      
      let d := x.depth.val
      
      let m := x.m.val
      c ≤ d ∧ cnOn s d = true ∧ m ≠ cnMe s d ∧ (((∀ k < 4, (s.member d m).direct.testBit k = true → direct.val.testBit k = true) ∨ s.records (compK d) 1)) ∧ (((∀ i < 4, present.val.testBit i = true → i = m ∨ i = cnMe s d ∨ (s.member d i).reach.isSome = true) ∨
        s.records (compK d) 3))) ∧
    (∃ p : Port, ∃ x : Heard, ∃ shell : List Word, ∃ present : Fin 16, ∃ direct : Fin 16, ∃ s : State, ((ulcCarries s p.val = false ∨ x.depth.val < s.get (PRT_ULC_DEPTH p.val) ∨ cnOn s x.depth.val = false ∨
        x.m.val = cnMe s x.depth.val))) ∧
    (∃ c : Fin 4, ∃ m : Fin 4, ∃ req : Fin 8, ∃ tol : Word, ∃ cur : Fin 8, ∃ s : State, s.fatal = false ∧ cnOn s c.val = true) ∧
    (∃ c : Fin 4, ∃ m : Fin 4, ∃ t0 : Nat, ∃ s : State, s.fatal = false ∧ (s.member c.val m.val).at_ = some t0 ∧ s.now < t0 + 2000) ∧
    (∃ c : Fin 4, ∃ m : Fin 4, ∃ t0 : Nat, ∃ s : State, s.fatal = false ∧ (s.member c.val m.val).at_ = some t0 ∧ t0 + 2000 ≤ s.now ∧ s.records (compK c.val) 1) ∧
    (∃ c : Fin 4, ∃ m : Fin 4, ∃ runs : Bool, ∃ t0 : Nat, ∃ s : State, s.fatal = false ∧ (s.member c.val m.val).reach = some t0 ∧ s.now < t0 + 2000) ∧
    (∃ c : Fin 4, ∃ m : Fin 4, ∃ runs : Bool, ∃ t0 : Nat, ∃ s : State, s.fatal = false ∧ (s.member c.val m.val).reach = some t0 ∧ t0 + 2000 ≤ s.now ∧ s.records (compK c.val) 0 ∧ ((runs = true → s.records (compK c.val) 3))) ∧
    (∃ c : Fin 4, ∃ m : Fin 4, ∃ runs : Bool, ∃ s : State, (s.member c.val m.val).reach = none ∧ (s.member c.val m.val).at_ = none) ∧
    (∃ c : Fin 4, ∃ m : Fin 4, ∃ s : State, s.fatal = false ∧ cnOn s c.val = true ∧ m.val ≠ cnMe s c.val) ∧
    (∃ c : Fin 4, ∃ m : Fin 4, ∃ s : State, s.fatal = false ∧ cnOn s c.val = true ∧ m.val = cnMe s c.val ∧ c.val = 0) ∧
    (∃ c : Fin 4, ∃ m : Fin 4, ∃ s : State, (s.fatal = false ∧ cnOn s c.val = true) ∧ ∃ d : Fin 4, m.val = cnMe s c.val ∧ c.val = d.val + 1) ∧
    (∃ p : Port, ∃ s : State, s.fatal = false ∧ ulcCarries s p.val = true ∧ (s.port p.val).ulcAt + 1000 ≤ s.now ∧ ((∀ q < 128, q ≠ p.val → ulcCarries s q = false))) ∧
    (∃ p : Port, ∃ s : State, s.fatal = false ∧ ulcCarries s p.val = true ∧ s.now < (s.port p.val).ulcAt + 1000 ∧ ((∀ q < 128, q ≠ p.val → ulcCarries s q = false)) ∧ s.ulc.cur = ownCurs s ∧ 
      let ms := summariesTo s (s.get (PRT_ULC_DEPTH p.val)) (s.get (PRT_ULC_PEER p.val))
      ms.flatten = (s.port p.val).ulcSent) ∧
    (∃ p : Port, ∃ s : State, s.fatal = false ∧ ulcCarries s p.val = true ∧ s.now < (s.port p.val).ulcAt + 1000 ∧ ((∀ q < 128, q ≠ p.val → ulcCarries s q = false)) ∧ s.ulc.cur = ownCurs s ∧ 
      let ms := summariesTo s (s.get (PRT_ULC_DEPTH p.val)) (s.get (PRT_ULC_PEER p.val))
      ms.flatten ≠ (s.port p.val).ulcSent) ∧
    (∃ s : State, ((∀ q < 128, ulcCarries s q = false))) ∧
    (∃ p : Port, ∃ s : State, ulcTakes s p.val = true ∧ s.get (PRT_SEC_STAT_PAIR p.val) = 2) ∧
    (∃ p : Port, ∃ s : State, (ulcTakes s p.val = true ∧ s.get (PRT_SEC_STAT_PAIR p.val) = 2) ∧ 
      let c := s.get (PRT_ULC_DEPTH p.val)
      ∃ d, d ≠ ownDigest s ∧ s.records (compK c) 4) ∧
    (∃ p : Port, ∃ d : Bytes, ∃ s : State, ((ulcTakes s p.val = false ∨ s.get (PRT_SEC_STAT_PAIR p.val) ≠ 2))) ∧
    (∃ p : Port, ∃ cells : Nat, ∃ relay : Option (Fin 4), ∃ b : Bytes, ∃ len : Nat, ∃ h : CellHead, ∃ tc : Fin 8, ∃ trq : Bool, ∃ cue : Bool, ∃ late : Bool, ∃ x : Word, ∃ s : State, ulcCarries s p.val = false) ∧
    (∃ p : Port, ∃ cells : Nat, ∃ m : Fin 4, ∃ b : Bytes, ∃ len : Nat, ∃ h : CellHead, ∃ tc : Fin 8, ∃ trq : Bool, ∃ cue : Bool, ∃ late : Bool, ∃ x : Word, ∃ s : State, ulcCarries s p.val = true ∧ 
      let link : Nat → Prop := fun q => isUlc s q = true ∧ s.get (PRT_ULC_STAT_UP q) = 1 ∧
        s.get (PRT_ULC_DEPTH q) = s.get (PRT_ULC_DEPTH p.val) ∧ s.get (PRT_ULC_PEER q) = m.val
      ∃ q, q < 128 ∧ link q ∧ ((∀ r < q, ¬ link r))) ∧
    (∃ p : Port, ∃ cells : Nat, ∃ m : Fin 4, ∃ b : Bytes, ∃ len : Nat, ∃ h : CellHead, ∃ tc : Fin 8, ∃ trq : Bool, ∃ cue : Bool, ∃ late : Bool, ∃ x : Word, ∃ s : State, ulcCarries s p.val = true ∧ 
      let link : Nat → Prop := fun q => isUlc s q = true ∧ s.get (PRT_ULC_STAT_UP q) = 1 ∧
        s.get (PRT_ULC_DEPTH q) = s.get (PRT_ULC_DEPTH p.val) ∧ s.get (PRT_ULC_PEER q) = m.val
      ((∀ q < 128, ¬ link q))) ∧
    (∃ p : Port, ∃ cells : Nat, ∃ q : Nat, ∃ b : Bytes, ∃ len : Nat, ∃ h : CellHead, ∃ tc : Fin 8, ∃ x : Word, ∃ s : State, ulcCarries s p.val = true ∧ 
      let v := classify s p.val (parse b)
      decide6 s (ulcLow s p.val) v.vid (parse b).da false = ([q], false) ∧ bits (s.strW 5 v.vid 8) 30 30 = 0 ∧ q < 128 ∧ isUlc s q = false ∧ groupOf s q = none ∧ s.get (PRT_GRD_STAT_STATE q) ≠ 3 ∧ admits s q tc.val (cellsOf len) = true) ∧
    (∃ p : Port, ∃ cells : Nat, ∃ q : Nat, ∃ b : Bytes, ∃ len : Nat, ∃ h : CellHead, ∃ tc : Fin 8, ∃ x : Word, ∃ s : State, ulcCarries s p.val = true ∧ 
      let v := classify s p.val (parse b)
      decide6 s (ulcLow s p.val) v.vid (parse b).da false = ([q], false) ∧ bits (s.strW 5 v.vid 8) 30 30 = 0 ∧ q < 128 ∧ isUlc s q = false ∧ groupOf s q = none ∧ s.get (PRT_GRD_STAT_STATE q) ≠ 3 ∧ admits s q 8 (cellsOf len) = true ∧ (s.queue q 8).length < 256) ∧
    (∃ p : Port, ∃ cells : Nat, ∃ q : Nat, ∃ b : Bytes, ∃ len : Nat, ∃ h : CellHead, ∃ tc : Fin 8, ∃ x : Word, ∃ s : State, ulcCarries s p.val = true ∧ 
      let v := classify s p.val (parse b)
      decide6 s (ulcLow s p.val) v.vid (parse b).da false = ([q], false) ∧ bits (s.strW 5 v.vid 8) 30 30 = 0 ∧ q < 128 ∧ isUlc s q = false ∧ groupOf s q = none ∧ s.get (PRT_GRD_STAT_STATE q) ≠ 3 ∧ admits s q 8 (cellsOf len) = true ∧ (s.queue q 8).length < 256 ∧ isPast x.toNat s.tickNs = false) :=
  ⟨⟨127, 5, 9, 11, 14, 7, 8, true, { UM UlcMem.rst with locked := true, ulc := { UlcSt.rst with joined := true } }, by decide +kernel⟩,
   ⟨127, 5, 9, 11, 14, 7, 8, true, { UM UlcMem.rst with locked := true }, by decide +kernel⟩,
   ⟨127, 5, 9, 11, 14, 7, 8, true, R, by decide +kernel⟩,
   ⟨127, ⟨3, 2, false⟩, [1, 2, 3], 6, 4, UM UlcMem.rst, by decide +kernel⟩,
   ⟨127, ⟨3, 2, false⟩, [1, 2, 3], 6, 4, R, by decide +kernel⟩,
   ⟨3, 2, 7, 99, 3, UM UlcMem.rst, by decide +kernel⟩,
   ⟨3, 2, 5, { UM { UlcMem.rst with at_ := some 5 } with now := 2004 }, by decide +kernel⟩,
   ⟨3, 2, 5, { UM { UlcMem.rst with at_ := some 5 } with now := 2005 }, by decide +kernel⟩,
   ⟨3, 2, false, 5, { UM { UlcMem.rst with reach := some 5 } with now := 2004 }, by decide +kernel⟩,
   ⟨3, 2, true, 5, { UM { UlcMem.rst with reach := some 5 } with now := 2005 }, by decide +kernel⟩,
   ⟨3, 2, true, R, by decide +kernel⟩,
   ⟨3, 2, S (UF ++ [(ULC_CN_STAT_PRESENT 3, 4)]), by decide +kernel⟩,
   ⟨0, 0, S [(ULC_CN_CTL_EN 0, 1)], by decide +kernel⟩,
   ⟨3, 1, S UF, by decide +kernel, 2, by decide +kernel⟩,
   ⟨127, { UM UlcMem.rst with now := 1000 }, by decide +kernel⟩,
   ⟨127, { UM UlcMem.rst with now := 999, ports := [(127, { PortSt.rst with ulcSent := (summariesTo (UM UlcMem.rst) 3 2).flatten })] }, by decide +kernel⟩,
   ⟨127, { UM UlcMem.rst with now := 999 }, by decide +kernel⟩,
   ⟨R, by decide +kernel⟩,
   ⟨127, S (UF ++ [(PRT_SEC_STAT_PAIR 127, 2)]), by decide +kernel⟩,
   ⟨127, S (UF ++ [(PRT_SEC_STAT_PAIR 127, 2)]), by decide +kernel, ownDigest (S (UF ++ [(PRT_SEC_STAT_PAIR 127, 2)])) ++ [0], (by intro h; simpa using congrArg List.length h), by decide +kernel⟩,
   ⟨127, [1], R, by decide +kernel⟩,
   ⟨127, 5, none, [], 64, ⟨2, 5, none, false, false⟩, 7, true, true, true, 5, R, by decide +kernel⟩,
   ⟨127, 5, 2, FB, 64, ⟨2, 5, none, false, false⟩, 7, true, true, true, 5, UM UlcMem.rst, by decide +kernel, 127, by decide +kernel⟩,
   ⟨127, 5, 0, FB, 64, ⟨2, 5, none, false, false⟩, 7, true, true, true, 5, UM UlcMem.rst, by decide +kernel⟩,
   ⟨127, 5, 3, FB, 64, ⟨2, 5, some 9, false, true⟩, 7, 5, { FW with regs := (S (UF ++ ULK 3)).regs }, by decide +kernel⟩,
   ⟨127, 5, 3, FB, 64, ⟨2, 5, some 9, false, true⟩, 7, 5, { FW with regs := (S (UF ++ ULK 3)).regs }, by decide +kernel⟩,
   ⟨127, 5, 3, FB, 64, ⟨2, 5, some 9, true, false⟩, 7, 5, { FW with regs := (S (UF ++ ULK 3)).regs }, by decide +kernel⟩⟩

/-- A handshake frame in arrival, which has passed its port. -/
def OH : RxOpen := { RX with fr := { RX.fr with bytes := typedHead 0x88B6 [2, 1] } }

/-- A trust-list entry for handshakes on every port, a handshake frame in arrival at port 127, and these keys. -/
def trusts (idh : Bytes) (k : KeySt) : State :=
  { S (ULK 127 ++ [(PRT_SEC_CFG_PAIR_EN 127, 1)]) with
    sec := { R.sec with trust := [(5, idh ++ [3, 0, 0xFF, 0xFF])] }, keys := [(127, k)], rxOpen := [(rxK 127 false, some OH)] }

theorem fit_length (n : Nat) (b : Bytes) : (fit n b).length = n := by
  simp only [fit, List.length_append, List.length_replicate, List.length_take]; omega

theorem trusts_finds (pay : Bytes) (k : KeySt) : trustOf (trusts (hsIdh pay) k) 127 (hsIdh pay) = some 5 := by
  have h : (hsIdh pay).length = 48 := fit_length 48 _
  have u : isUlc (trusts (hsIdh pay) k) 127 = false := by
    show isUlc (trusts [] KeySt.rst) 127 = false
    decide +kernel
  have f : ∀ (o n : Nat), 48 ≤ o → beField (hsIdh pay ++ [3, 0, 0xFF, 0xFF]) o n = beNat (([3, 0, 0xFF, 0xFF].drop (o - 48)).take n) := by
    intro o n ho
    simp only [beField, List.drop_append, h, List.drop_eq_nil_of_le (show (hsIdh pay).length ≤ o by omega), List.nil_append]
  have t : (hsIdh pay ++ [3, 0, 0xFF, 0xFF]).take 48 = hsIdh pay := by rw [List.take_append_of_le_length (by omega), List.take_of_length_le (by omega)]
  have e : (trusts (hsIdh pay) k).sec.trust = [(5, hsIdh pay ++ [3, 0, 0xFF, 0xFF])] := rfl
  have b1 : beNat ((([3, 0, 0xFF, 0xFF] : Bytes).drop (48 - 48)).take 1) = 3 := by decide
  have b2 : beNat ((([3, 0, 0xFF, 0xFF] : Bytes).drop (50 - 48)).take 2) = 0xFFFF := by decide
  simp only [trustOf, u, e, List.find?, (f 48 1 (by omega)).trans b1, (f 50 2 (by omega)).trans b2, t, beq_self_eq_true]
  rfl

/-- The message `pay` in a frame of its own length. -/
def bodyOf (pay : Bytes) : SecBody := ⟨1, BitVec.ofNat 16 pay.length, pay, 0⟩

theorem trusts_takes (idh pay : Bytes) (k : KeySt) (typ : Nat) (fits : pay.length < 65536) :
    hsTakes (trusts idh k) 127 typ (bodyOf pay) = (some pay, trusts idh k) := by
  have up : hsUp (trusts idh k) 127 = true := by
    show hsUp (trusts [] KeySt.rst) 127 = true
    decide +kernel
  have en : (trusts idh k).flag (PRT_SEC_CFG_EN 127) = false := by
    show (trusts [] KeySt.rst).flag (PRT_SEC_CFG_EN 127) = false
    decide +kernel
  have arr : [rxK 127 false, rxK 127 true].filterMap (trusts idh k).arriving = [OH] := by
    show [rxK 127 false, rxK 127 true].filterMap (trusts [] KeySt.rst).arriving = [OH]
    decide +kernel
  have ty : etherType OH.fr.bytes = 0x88B6 := by decide +kernel
  have ty2 : ∀ x y, etherType (typedHead 0x88B6 [x, y]) = 0x88B6 := fun _ _ => rfl
  have len : pay.length % 65536 = pay.length := Nat.mod_eq_of_lt fits
  have passes : lineTakes (trusts idh k) 127 (typedHead 0x88B6 [b8 typ, 1]) 0 ⟨false, 0, 0, 0⟩ = (true, trusts idh k) := by
    simp only [lineTakes, arr, List.find?_cons, ty, ty2, beq_self_eq_true, Bool.true_or, en, show OH.blocked = false from rfl, Bool.not_false,
      Bool.and_self]
  simp only [hsTakes, up, bodyOf, bne_self_eq_false, Bool.not_true, Bool.or_self, Bool.false_eq_true, if_false, passes]
  simp [len]

/-- The hypotheses of PairHandshake on a message that does not verify: one too short for its signatures, from a peer on the list. -/
theorem witness_PairHandshake_failures :
    (∃ (p : Port) (x : SecBody) (pay : Bytes) (e : Nat) (s u : State), hsTakes s p.val 2 x = (some pay, u) ∧ trustOf u p.val (hsIdh pay) = some e ∧
      (pay.length ≠ 6773 ∨ hsIdh pay = ownIdh ∨ hsVerifies pay (pay.take 3368) (ascii "ZB-HS1") 3368 = false)) ∧
    (∃ (p : Port) (x : SecBody) (pay : Bytes) (e : Nat) (s u : State), hsTakes s p.val 3 x = (some pay, u) ∧ trustOf u p.val (hsIdh pay) = some e ∧
      (∀ h, (u.key p.val).hs1 = some h → hs2Answers pay h = false) ∧ (∀ h ∈ (u.key p.val).hs1Old, hs2Answers pay h = false)) :=
  ⟨⟨127, bodyOf [], [], 5, trusts (hsIdh []) KeySt.rst, _, trusts_takes _ _ _ _ (by decide), trusts_finds _ _, Or.inl (by decide)⟩,
    ⟨127, bodyOf [], [], 5, trusts (hsIdh []) KeySt.rst, _, trusts_takes _ _ _ _ (by decide), trusts_finds _ _, nofun, nofun⟩⟩

/-- A message of `n` bytes whose signatures' numbers lie in their range. -/
def ones (n : Nat) : Bytes := List.replicate n 1

/-- Both signatures of such a message hold where the signature checks accept every signature in range (they are opaque: log entry 14). -/
theorem ones_verify (ec : ∀ k m g, Config.ecdsaOk k m g = true) (ml : ∀ k c m g, Config.mldsaOk k c m g = true) (m ctx : Bytes) :
    hsVerifies (ones 6773) m ctx 3368 = true ∧ hsVerifies (ones 6677) m ctx 3272 = true := by
  have r1 : ((ones 6773).drop 3368).take 96 = ones 96 := by decide +kernel
  have r2 : ((ones 6677).drop 3272).take 96 = ones 96 := by decide +kernel
  have b : 1 ≤ beNat ((ones 96).take 48) ∧ beNat ((ones 96).take 48) < p384n ∧ 1 ≤ beNat (((ones 96).drop 48).take 48) ∧
      beNat (((ones 96).drop 48).take 48) < p384n := by decide +kernel
  constructor <;> simp only [hsVerifies, ecdsaHolds, r1, r2, ec, ml, b, and_self, decide_true, Bool.and_self]

/-- Where the signature checks accept every signature in range and the peer's keys are not the device's own, the hypotheses of
PairHandshake on a valid HS1 and on a valid HS2 hold together, that on which of the two ends is the higher apart: one of the two orders is
met. -/
theorem witness_PairHandshake_signed (ec : ∀ k m g, Config.ecdsaOk k m g = true) (ml : ∀ k c m g, Config.mldsaOk k c m g = true)
    (o1 : hsIdh (ones 6773) ≠ ownIdh) (o2 : hsIdh (ones 6677) ≠ ownIdh) :
    (∃ (p : Port) (x : SecBody) (pay : Bytes) (e : Nat) (s u : State), hsTakes s p.val 2 x = (some pay, u) ∧ trustOf u p.val (hsIdh pay) = some e ∧
      pay.length = 6773 ∧ hsIdh pay ≠ ownIdh ∧ hsVerifies pay (pay.take 3368) (ascii "ZB-HS1") 3368 = true ∧
      canSend u p.val = true ∧ curPs u (portK p.val) = 0 ∧ inFlight u p.val = none ∧ (u.port p.val).jobs = []) ∧
    (∃ (p : Port) (x : SecBody) (pay : Bytes) (e : Nat) (s u : State), hsTakes s p.val 3 x = (some pay, u) ∧ trustOf u p.val (hsIdh pay) = some e ∧
      ∃ h, (u.key p.val).hs1 = some h ∧ hs2Answers pay h = true) ∧
    (∃ (p : Port) (x : SecBody) (pay : Bytes) (e : Nat) (s u : State), hsTakes s p.val 3 x = (some pay, u) ∧ trustOf u p.val (hsIdh pay) = some e ∧
      (∀ h, (u.key p.val).hs1 = some h → hs2Answers pay h = false) ∧ ∃ h ∈ (u.key p.val).hs1Old, hs2Answers pay h = true) := by
  have l1 : (ones 6773).length = 6773 := List.length_replicate
  have l2 : (ones 6677).length = 6677 := List.length_replicate
  have a : ∀ h, hs2Answers (ones 6677) h = true := fun h => by simp [hs2Answers, l2, o2, (ones_verify ec ml _ _).2]
  have cs : canSend (trusts (hsIdh (ones 6773)) KeySt.rst) 127 = true := by
    show canSend (trusts [] KeySt.rst) 127 = true
    decide +kernel
  have ps : curPs (trusts (hsIdh (ones 6773)) KeySt.rst) (portK 127) = 0 := by
    show curPs (trusts [] KeySt.rst) (portK 127) = 0
    decide +kernel
  refine ⟨⟨127, bodyOf (ones 6773), _, 5, trusts _ KeySt.rst, _, trusts_takes _ _ _ _ (by rw [l1]; decide), trusts_finds _ _, l1, o1,
      (ones_verify ec ml _ _).1, cs, ps, rfl, rfl⟩,
    ⟨127, bodyOf (ones 6677), _, 5, trusts _ { KeySt.rst with hs1 := some [] }, _, trusts_takes _ _ _ _ (by rw [l2]; decide), trusts_finds _ _, [], rfl, a _⟩,
    ⟨127, bodyOf (ones 6677), _, 5, trusts _ { KeySt.rst with hs1Old := [[]] }, _, trusts_takes _ _ _ _ (by rw [l2]; decide), trusts_finds _ _, nofun, [], ?_, a _⟩⟩
  exact List.mem_singleton.mpr rfl

/-- A device with a challenge, these slots of hash `h` valid, and a log of `n` more entries than the first two. -/
def owned (h n : Nat) (slots : List Nat) : State :=
  { R with sec := { R.sec with
      chal := some ([], 0), slots := slots.map (fun i => (i, ⟨h, true, false⟩)), log := List.replicate n ⟨1, 0, []⟩ } }

/-- Whether a request is signed by the owner of its slot: `holds` of the statement SecurityProcessor. -/
def isSigned (s : State) (req nonce : Bytes) : Bool :=
  blockVerifies (s.slot_ (beField req 8 1)).hash ((req.drop 16).take 5464) (ascii "ZB-AUTH" ++ nonce ++ ownIdh ++ req.take 8) (ascii "ZB-AUTH")

/-- A slot whose hash is not that of the request's keys: the request does not verify. -/
theorem witness_SecurityProcessor_unsigned :
    ∃ (req nonce : Bytes) (s : State), challenge s = some nonce ∧ slotValid s (beField req 8 1) = true ∧ isSigned s req nonce = false := by
  have v : ∀ (s : State) (req : Bytes), (s.slot_ (beField req 8 1)).hash = beNat (idHash [] []) + 1 → (req.drop 16).take 5464 = [] →
      isSigned s req [] = false := by
    intro s req hh hb
    simp [isSigned, blockVerifies, hh, hb]
  exact ⟨[1, 0, 0, 0, 0, 0, 0, 0, 3], [], owned (beNat (idHash [] []) + 1) 0 [3], rfl, rfl, v _ _ rfl rfl⟩

/-- The hypotheses of SecurityProcessor on a request that verifies hold where the signature checks accept its signatures (they are
opaque: log entry 14). -/
theorem witness_SecurityProcessor_signed (ec : ∀ k m g, Config.ecdsaOk k m g = true) (ml : ∀ k c m g, Config.mldsaOk k c m g = true) :
    (∃ (req nonce : Bytes) (s : State), challenge s = some nonce ∧ slotValid s (beField req 8 1) = true ∧ isSigned s req nonce = true ∧
      leNat (req.take 4) = 1 ∧ (slotValid s (leNat ((req.drop 4).take 4)) = false ∨ ∀ i < 4, i ≠ leNat ((req.drop 4).take 4) → slotValid s i = false)) ∧
    (∃ (req nonce : Bytes) (s : State), challenge s = some nonce ∧ slotValid s (beField req 8 1) = true ∧ isSigned s req nonce = true ∧
      leNat (req.take 4) = 1 ∧ slotValid s (leNat ((req.drop 4).take 4)) = true ∧
      (∃ i, i < 4 ∧ i ≠ leNat ((req.drop 4).take 4) ∧ slotValid s i = true)) ∧
    (∃ (req nonce : Bytes) (s : State), challenge s = some nonce ∧ slotValid s (beField req 8 1) = true ∧ isSigned s req nonce = true ∧
      leNat (req.take 4) ≠ 1 ∧ 239 ≤ logN s) ∧
    (∃ (req nonce : Bytes) (s : State), challenge s = some nonce ∧ slotValid s (beField req 8 1) = true ∧ isSigned s req nonce = true ∧
      leNat (req.take 4) ≠ 1 ∧ logN s < 239) := by
  have blk : ((([1, 0, 0, 0, 0, 0, 0, 0, 3] : Bytes) ++ ones 5471).drop 16).take 5464 = ones 5464 := by
    show ((List.replicate 5471 (1 : Byte)).drop 7).take 5464 = _
    rw [List.drop_replicate, List.take_replicate, show min 5464 (5471 - 7) = 5464 from by decide, ones]
  have sig : ((ones 5464).drop 2052).take 96 = ones 96 := by decide +kernel
  have b : 1 ≤ beNat ((ones 96).take 48) ∧ beNat ((ones 96).take 48) < p384n ∧ 1 ≤ beNat (((ones 96).drop 48).take 48) ∧
      beNat (((ones 96).drop 48).take 48) < p384n := by decide +kernel
  generalize hh : beNat (idHash ((ones 5464).take 97) (((ones 5464).drop 100).take 1952)) = key
  have v : ∀ (s : State) (req : Bytes), (s.slot_ (beField req 8 1)).hash = key → (req.drop 16).take 5464 = ones 5464 → isSigned s req [] = true := by
    intro s req hs hb
    simp [isSigned, blockVerifies, ecdsaHolds, ec, ml, hs, hb, hh, sig, b]
  refine ⟨⟨[1, 0, 0, 0, 0, 0, 0, 0, 3] ++ ones 5471, [], owned key 0 [3], rfl, rfl, v _ _ rfl blk, rfl, Or.inl rfl⟩,
    ⟨[1, 0, 0, 0, 2, 0, 0, 0, 3] ++ ones 5471, [], owned key 0 [2, 3], rfl, rfl, v _ _ rfl blk, rfl, rfl, 3, by decide, by decide, rfl⟩,
    ⟨[2, 0, 0, 0, 7, 0, 0, 0, 3] ++ ones 5471, [], owned key 239 [3], rfl, rfl, v _ _ rfl blk, by decide, ?_⟩,
    ⟨[2, 0, 0, 0, 7, 0, 0, 0, 3] ++ ones 5471, [], owned key 0 [3], rfl, rfl, v _ _ rfl blk, by decide, ?_⟩⟩
  · show 239 ≤ logN (owned 0 239 [3])
    decide +kernel
  · show logN (owned 0 0 [3]) < 239
    decide +kernel

/-- The memory of the smallest legal image: a header and COMMIT. -/
def imgMem : Memory :=
  (((R.putBytes 0x4000000 (leBytes 4 0x4953425A ++ [1, 0, 3, 0] ++ leBytes 4 5532)).putBytes (0x4000000 + 2116) (ones 96)).putBytes
    0x4001598 (leBytes 4 0x0A000000)).mem

/-- That image staged on an owned device whose slot 3 holds the hash `h`. -/
def img (h : Nat) : State := { S [(BOOT_STATE_STATE, 1)] with mem := imgMem, sec := { R.sec with slots := [(3, ⟨h, true, false⟩)] } }

theorem step1_congr (s t : State) (e : s.mem = t.mem) (b : Nat) : step1 s b = step1 t b := by
  have w : imgWord s b = imgWord t b := funext fun o => congrArg (fun m : Memory => m.getLE (b + o) 4) e
  simp only [step1, imgLen, w, e]

set_option maxRecDepth 20000 in
/-- The hypotheses of BootStarts on a legal image hold where the signature checks accept its signatures (they are opaque: log
entry 14). -/
theorem witness_BootStarts_signed (ec : ∀ k m g, Config.ecdsaOk k m g = true) (ml : ∀ k c m g, Config.mldsaOk k c m g = true) :
    ∃ s : State, s.fatal = false ∧ s.get BOOT_STATE_STATE = 1 ∧ s.get BOOT_STATE_RESTARTED = 0 ∧ step1 s (bar2A 0) = none ∧ steps2to6 s = none ∧ logN s < 239 := by
  refine ⟨img (beNat (idHash ((img 0).bytes (bar2A 0 + 64) 97) ((img 0).bytes (bar2A 0 + 164) 1952))), rfl, ?_, ?_, ?_, ?_, ?_⟩
  · show (img 0).get BOOT_STATE_STATE = 1
    decide +kernel
  · show (img 0).get BOOT_STATE_RESTARTED = 0
    decide +kernel
  · exact (step1_congr (img _) (img 0) rfl _).trans (by decide +kernel)
  · generalize hh : beNat _ = h
    have m : ∀ a n, (img h).bytes a n = (img 0).bytes a n := fun _ _ => rfl
    have u : unowned (img h) = false := rfl
    have w : imgMem.getLE (bar2A 0 + 6) 1 = 3 := by decide +kernel
    have v : slotValid (img h) 3 = true := rfl
    have o : bits (imgWord (img h) (bar2A 0) streamOfs) 31 24 = 10 := by
      show bits (imgMem.getLE (bar2A 0 + streamOfs) 4) 31 24 = 10
      decide +kernel
    have sig : (img 0).bytes (bar2A 0 + 2116) 96 = ones 96 := by decide +kernel
    have b : 1 ≤ beNat ((ones 96).take 48) ∧ beNat ((ones 96).take 48) < p384n ∧ 1 ≤ beNat (((ones 96).drop 48).take 48) ∧
        beNat (((ones 96).drop 48).take 48) < p384n := by decide +kernel
    have z : ((img h).slot_ 3).hash = h := rfl
    simp [steps2to6, ecdsaHolds, sig, b, u, show (img h).mem = imgMem from rfl, w, v, m, ec, ml, o, z, hh]
  · show logN (img 0) < 239
    decide +kernel

end Sys2Proof.Tests
end

/-! O24: what a GATE word leaves of the queues, and two ports whose frames come back to one queue key. -/

namespace Sys2Proof.Machine

/-! ### Queues across a word: only the word's own operation changes them -/

@[simp] theorem State.setSp_queues (s : State) (g : Nat) (x : Sp) : (s.setSp g x).queues = s.queues := id rfl

@[simp] theorem holdCount_queues (s : State) (g : Nat) (u : UWord) : (holdCount s g u).queues = s.queues := by
  unfold holdCount
  dsimp only
  split
  · simp
  · split <;> simp

@[simp] theorem addClocks_queues (s : State) (g n : Nat) : (addClocks s g n).queues = s.queues := by
  simp [addClocks]

@[simp] theorem branch_queues (s : State) (g : Nat) (u : UWord) : (branch s g u).queues = s.queues := by
  unfold branch
  dsimp only
  split
  case h_7 => split <;> simp
  all_goals simp

@[simp] theorem wordStart_queues (s : State) (g : Nat) : (wordStart s g).queues = s.queues := by
  simp [wordStart, wordStartIn]

/-- A word that runs leaves the queues as its operation does: counts, branch and the next word's start touch none (R119, R120). -/
theorem runWord_queues {s t : State} {g op : Nat} {eff : UWord → State → Option State} (hr : s.wordRuns g op)
    (he : eff (spWord s g) s = some t) : (runWord s g eff).queues = t.queues := by
  obtain ⟨-, hsyn, -, hlegal, hstack⟩ := hr
  simp only [runWord, hsyn, hlegal, hstack, he, ne_eq, not_true_eq_false, if_false, Bool.not_true, Bool.false_eq_true]
  split
  · simp
  · simp

/-- The masks of a visible GATE word, applied one port after the other (R83). -/
def gatesApplied (s : State) (g : Nat) : State :=
  (portsIn g (spWord s g).mask).foldl (fun r p => applyGate r p (operand s g (spWord s g) (spWord s g).src % 256)) s

/-- A visible GATE word leaves the queues as its masks leave them (R114). -/
theorem exec_gate_queues {s t : State} {g : Grp} (hr : s.wordRuns g.val 0x18) (hv : (spWord s g.val).stage = false)
    (ht : exec (.gate g) s = .next t) : t.queues = (gatesApplied s g.val).queues := by
  have hmine : (spReady s g.val && (spWord s g.val).op == 0x18) = true := by
    obtain ⟨hready, -, hop, -⟩ := hr
    simp [hready, hop]
  change execGate g s = _ at ht
  rw [execGate, spCommand, if_pos hmine] at ht
  cases ht
  refine runWord_queues hr ?_
  simp only [visible, hv, Bool.false_eq_true, if_false, List.foldl_map]
  rfl

/-! ### Two ports with one queue key -/

/-- A queue key has 16 classes per port: a class that is 16 too high names the next port's queue. -/
theorem queue_class_add_16 (s : State) (p tc : Nat) : s.queue p (16 + tc) = s.queue (p + 1) tc :=
  congrArg (tget [] s.queues) (by unfold qK; omega)

/-- A frame of class `tc`. -/
def frameOfClass (tc : Nat) : QFrame :=
  { id := tc, bytes := [], len := 64, inPort := 2, seq := none, handle := none, tc, vid := 1, pcp := 0, dei := false, tagged := false,
    arriving := false, held := false, cue := false, skip := false, due := false, t := 0, host := none, tsReq := false, keep := false,
    recovered := false, cutOk := false }

/-- A frame of class `tc` that started in base clock 0. -/
def startedFrame (tc : Nat) : TxSt :=
  { id := tc, express := false, ct := false, startAt := 0, endAt := 100, len := 64, fr := some (frameOfClass tc), again := false,
    wasCt := false }

/-- GATE of the group's ports 0 and 1 with all gates closed (R117: OP 0x18, SRC 0x10, MASK 3, IMM 0). -/
def closeTwoGates : Nat := 0x18 * 2 ^ 96 + 0x10 * 2 ^ 80 + 3 * 2 ^ 64

/-- Processor 0 at that word within its tick; port 0 has just started a frame of class 16, port 1 one of class 0. -/
def twoStarts : State :=
  { State.reset.set GLB_TICK_PER_NS 1000000 with
    tick := { Tick.rst with run := true, cur := true }
    sps := [(0, { Sp.rst with run := .exec })]
    cs := [(csK 0 0x1000, withParity closeTwoGates)]
    ports := [(0, { PortSt.rst with tx := some (startedFrame 16) }), (1, { PortSt.rst with tx := some (startedFrame 0) })] }

theorem twoStarts_runs : twoStarts.wordRuns (0 : Grp).val 0x18 ∧ (spWord twoStarts (0 : Grp).val).stage = false := by
  decide +kernel

/-- Port 0's frame is in its queue of class 16 once the masks apply. -/
theorem mem_queue_gatesApplied_twoStarts :
    frameOfClass 16 ∈ (gatesApplied twoStarts (0 : Grp).val).queue 0 16 := by
  decide +kernel

/-- Refutes O24, at its clause on a frame whose gate closes as it starts (R114): the clause bounds the class of the frame it speaks
of, but not that of a frame another port of MASK has started. In `twoStarts` port 0's frame is of class 16, whose queue key is that
of port 1's class 0, so both frames come back to one queue and port 1's does not stand on what that queue held. -/
theorem not_gateAndStagedWords : ¬ Obligations.GateAndStagedWords := by
  unfold Obligations.GateAndStagedWords
  rintro ⟨-, hclose, -⟩
  obtain ⟨hruns, hvisible⟩ := twoStarts_runs
  obtain ⟨t, ht, hback⟩ := hclose 0 twoStarts hruns hvisible
  obtain ⟨-, hqueue, -⟩ := hback 1 (by decide +kernel) (startedFrame 0) (frameOfClass 0) rfl rfl rfl rfl rfl rfl (by decide)
    (by decide +kernel)
  have hother : frameOfClass 16 ∈ t.queue 0 (16 + 0) := by
    rw [State.queue, exec_gate_queues hruns hvisible ht]
    exact mem_queue_gatesApplied_twoStarts
  rw [queue_class_add_16] at hother
  have honly : t.queue 1 0 = [frameOfClass 0] := hqueue
  simp [honly, frameOfClass] at hother

end Sys2Proof.Machine

/-! O3: the fatal state ends at a power-on reset only (R448, R449). -/

namespace Sys2Proof.Machine

/-! ### Choices and folds of operations that leave `fatal` alone -/

@[simp] theorem State.fatal_ite (p : Prop) [Decidable p] (s t : State) :
    (if p then s else t).fatal = if p then s.fatal else t.fatal :=
  apply_ite _ _ _ _

theorem State.withTick_fatal (s : State) (x : Tick) : ({ s with tick := x } : State).fatal = s.fatal := rfl

theorem State.withUlc_fatal (s : State) (x : UlcSt) : ({ s with ulc := x } : State).fatal = s.fatal := rfl

/-- For a state with a name of its own: the two states are compared as they stand, where a comparison of their fields would run
them. -/
theorem State.fatal_of_eq {s t : State} (e : s = t) (h : t.fatal = true) : s.fatal = true := e ▸ h

theorem foldl_fatal {α : Type} {f : State → α → State} (hf : ∀ t a, (f t a).fatal = t.fatal) (l : List α) (s : State) :
    (l.foldl f s).fatal = s.fatal :=
  List.foldlRecOn (motive := fun t => t.fatal = s.fatal) l f rfl fun t ht a _ => (hf t a).trans ht

/-- In the fatal state an operation need leave `fatal` alone there only. -/
theorem foldl_stays_fatal {α : Type} {f : State → α → State} (hf : ∀ t a, t.fatal = true → (f t a).fatal = true) (l : List α)
    {s : State} (h : s.fatal = true) : (l.foldl f s).fatal = true :=
  List.foldlRecOn (motive := fun t => t.fatal = true) l f h fun t ht a _ => hf t a ht

/-! ### What stands in the fatal state (R448) -/

section Stands

variable {s : State} (h : s.fatal = true)
include h

theorem canSend_of_fatal (p : Nat) : canSend s p = false := by simp [canSend, h]

theorem macUp_of_fatal (p : Nat) : macUp s p = false := by simp [macUp, h]

theorem maySend_of_fatal (p : Nat) : maySend s p = false := by simp [maySend, macUp_of_fatal h, h]

theorem ulcTakes_of_fatal (p : Nat) : ulcTakes s p = false := by simp [ulcTakes, macUp_of_fatal h]

theorem ulcCarries_of_fatal (p : Nat) : ulcCarries s p = false := by simp [ulcCarries, ulcTakes_of_fatal h]

theorem hsUp_of_fatal (p : Nat) : hsUp s p = false := by simp [hsUp, macUp_of_fatal h]

theorem hsTakes_of_fatal (p typ : Nat) (x : SecBody) : hsTakes s p typ x = (none, s) := by
  simp [hsTakes, hsUp_of_fatal h]

theorem ptpMaySend_of_fatal (n p : Nat) : ptpMaySend s n p = false := by simp [ptpMaySend, h]

theorem ptpHears_of_fatal (n p var : Nat) (m : PtpMsg) : ptpHears s n p var m = (false, s) := by simp [ptpHears, h]

theorem spReady_of_fatal (g : Nat) : spReady s g = false := by simp [spReady, h]

theorem spCommand_of_fatal (g : Nat) (mine : UWord → Bool) (eff : UWord → State → Option State) :
    spCommand s g mine eff = .next s := by simp [spCommand, spReady_of_fatal h]

theorem trapAllowed_of_fatal (g : Nat) : trapAllowed s g = false := by simp [trapAllowed, h]

theorem whileRuns_of_fatal (op : State → State) : whileRuns s op = s := by simp [whileRuns, h]

theorem rxBell_of_fatal (f loc : Nat) : rxBell s f loc = s := by simp [rxBell, h]

theorem nextCmd_of_fatal (f : Nat) : nextCmd s f = none := by simp [nextCmd, h]

theorem mboxRuns_of_fatal (cmd : Nat) : mboxRuns s cmd = false := by simp [mboxRuns, h]

theorem mboxAuthorise_of_fatal (op : Nat) : mboxAuthorise s op = s := by
  simp [mboxAuthorise, mboxRuns_of_fatal h]

theorem pwrRuns_of_fatal (k : Nat) : pwrRuns s k = false := by simp [pwrRuns, h]

theorem bootAt_of_fatal (op : Nat) : bootAt s op = false := by simp [bootAt, h]

theorem bootWaits_of_fatal : bootWaits s = false := by simp [bootWaits, h]

theorem bindAt_of_fatal (kind : Nat) : bindAt s kind = false := by simp [bindAt, bootAt_of_fatal h]

theorem bootSettle_of_fatal : bootSettle s = s := by simp [bootSettle, h]

theorem goOp_of_fatal : goOp s = s := by simp [goOp, h]

theorem restartOp_of_fatal (ramOk : Bool) : restartOp s ramOk = s := by simp [restartOp, h]

theorem warmReset_of_fatal (ramOk : Bool) : warmReset s ramOk = s := by simp [warmReset, h]

theorem hirOp_of_fatal (cause : HirCause) : hirOp s cause = s := by simp [hirOp, h]

theorem bootCtlWrite_of_fatal (v : Word) : bootCtlWrite s v = s := by
  simp [bootCtlWrite, warmReset_of_fatal h, goOp_of_fatal h, restartOp_of_fatal h]

theorem hostWord4_of_fatal (off : Nat) (v : Word) : hostWord4 s off v = s := by
  simp [hostWord4, hirOp_of_fatal h, bootCtlWrite_of_fatal h, barWrite, h]

theorem eventRequest_of_fatal (kind sel : Nat) : eventRequest s kind sel = s := by simp [eventRequest, h]

theorem eventRequest_stays_fatal (kind sel : Nat) : (eventRequest s kind sel).fatal = true := by
  rwa [eventRequest_of_fatal h]

end Stands

/-! ### The collector's operations (R428 to R444, R448) -/

theorem State.eventFrame.fatal_eq {s t : State} (h : s.eventFrame t) : t.fatal = s.fatal := by
  rw [h.1]

@[simp] theorem msixNow_fatal (s : State) (v : Nat) : (msixNow s v).fatal = s.fatal := (msixNow_frame s v).fatal_eq

@[simp] theorem record_fatal (s : State) (k bit : Nat) (c : Cls) : (record s k bit c).fatal = s.fatal :=
  (record_frame s k bit c).fatal_eq

@[simp] theorem admitEvent_fatal (s : State) (k bit : Nat) (f : Bool) : (admitEvent s k bit f).2.fatal = s.fatal :=
  (admitEvent_frame s k bit f).fatal_eq

@[simp] theorem note_fatal (s : State) (k bit : Nat) (c : Cls) : (note s k bit c).fatal = s.fatal :=
  (note_frame s k bit c).fatal_eq

@[simp] theorem setLive_fatal (s : State) (k bit : Nat) (b : Bool) : (setLive s k bit b).fatal = s.fatal :=
  State.set_fatal _ _ _

@[simp] theorem State.react_fatal (s : State) (k bit : Nat) (b : Bool) : (s.react k bit b).fatal = s.fatal := id rfl

@[simp] theorem watched_fatal (s : State) (k bit kind inst : Nat) : (watched s k bit kind inst).2.fatal = s.fatal := by
  have h := admitEvent_fatal s k bit false
  unfold watched
  split
  · next e => rwa [e] at h
  · next e =>
    rw [e] at h
    exact (record_fatal _ _ _ _).trans h

/-- A fatal event finds or makes the state fatal (R448), but before the collector runs (R446). -/
theorem fatalEvent_stays_fatal {s : State} (h : s.fatal = true) (bit : Nat) : (fatalEvent s bit).fatal = true := by
  have hpower (t : State) : (fatalPower t).fatal = t.fatal := by simp [fatalPower, foldl_fatal]
  unfold fatalEvent
  split
  · exact h
  · simp [enterFatal, hpower]

@[simp] theorem raiseQuiet_fatal (s : State) (k bit : Nat) (sev : Sev) : (raiseQuiet s k bit sev).fatal = s.fatal := by
  simp [raiseQuiet]

@[simp] theorem raiseComp_fatal (s : State) (c bit : Nat) : (raiseComp s c bit).fatal = s.fatal := by
  unfold raiseComp
  split <;> simp

theorem raiseDevice_stays_fatal {s : State} (h : s.fatal = true) (bit : Nat) (sev : Sev) (info : Nat) :
    (raiseDevice s bit sev info).fatal = true := by
  unfold raiseDevice
  split
  · exact fatalEvent_stays_fatal h bit
  · split
    · simp [nodeRetire, h]
    · cases sev <;> simp [h]
    · simp [h]

/-- Events of lanes, ports, groups and slices are recorded only (R448); the device's and a compound's keep the state fatal. -/
theorem raise_stays_fatal {s : State} (h : s.fatal = true) (k bit : Nat) (sev : Sev) (info : Nat) :
    (raise s k bit sev info).fatal = true := by
  unfold raise
  split
  · simp [h]
  · next hlv =>
    have hlevel : ¬ levelOf k ≤ 4 := fun hle => hlv ⟨h, hle⟩
    split
    · exact h
    · split
      case h_5 => exact raiseDevice_stays_fatal h bit sev info
      case h_6 => simp [h]
      all_goals omega

theorem relatch_stays_fatal {s : State} (h : s.fatal = true) (k bit : Nat) : (relatch s k bit).fatal = true := by
  unfold relatch
  split
  · exact raise_stays_fatal (by simp [h]) _ _ _ _
  · exact h

theorem relatchLive_stays_fatal {s : State} (h : s.fatal = true) (k : Nat) : (relatchLive s k).fatal = true :=
  foldl_stays_fatal (fun _ b ht => relatch_stays_fatal ht k b) _ h

@[simp] theorem devEvent_fatal (s : State) (bit : Nat) : (devEvent s bit).fatal = s.fatal := note_fatal _ _ _ _

@[simp] theorem postRecAt_fatal (s : State) (route unit code data kind data2 : Nat) (stampOf : Nat → Nat) :
    (postRecAt s route unit code data kind data2 stampOf).fatal = s.fatal := by
  simp [postRecAt, putRecord]

@[simp] theorem devRec_fatal (s : State) (kind code data data2 : Nat) :
    (devRec s kind code data data2).fatal = s.fatal :=
  postRecAt_fatal _ _ _ _ _ _ _ _

/-! ### Ensemble synchronisation at a boundary (R315 to R326, R501, R502) -/

@[simp] theorem guardsToStartup_fatal (s : State) : (guardsToStartup s).fatal = s.fatal :=
  foldl_fatal (fun _ _ => by simp) _ _

@[simp] theorem setLock_fatal (s : State) (b : Bool) : (setLock s b).fatal = s.fatal :=
  foldl_fatal (fun _ _ => by simp) _ _

@[simp] theorem loadServo_fatal (s : State) (n : Nat) (rate servo : Int) :
    (loadServo s n rate servo).fatal = s.fatal := by
  simp [loadServo]

@[simp] theorem holdover_fatal (s : State) (n : Nat) : (holdover s n).fatal = s.fatal :=
  loadServo_fatal _ _ _ _

@[simp] theorem followerSync_fatal (s : State) (n : Nat) (b : Bool) : (followerSync s n b).fatal = s.fatal := by
  simp [followerSync]

@[simp] theorem toListen_fatal (s : State) (n : Nat) : (toListen s n).fatal = s.fatal := by
  simp [toListen]

@[simp] theorem ungrant_fatal (s : State) (n : Nat) : (ungrant s n).fatal = s.fatal := by
  simp [ungrant]

@[simp] theorem jumpCheck_fatal (s : State) (n : Nat) (v : Int) (src : Nat) :
    (jumpCheck s n v src).2.fatal = s.fatal := by
  unfold jumpCheck
  split <;> simp

@[simp] theorem takeDelays_fatal (s : State) (n j : Nat) : (takeDelays s n j).fatal = s.fatal :=
  foldl_fatal (fun _ _ => by simp) _ _

@[simp] theorem shutNode_fatal (s : State) (n j : Nat) : (shutNode s n j).fatal = s.fatal :=
  State.setNode_fatal _ _ _ _

@[simp] theorem closeRound_fatal (s : State) (n : Nat) : (closeRound s n).fatal = s.fatal := by
  simp [closeRound, foldl_fatal]

@[simp] theorem closeDue_fatal (s : State) (n : Nat) : (closeDue s n).fatal = s.fatal := by
  simp [closeDue]

@[simp] theorem freezePath_fatal (s : State) (n j p : Nat) (change : Int) :
    (freezePath s n j p change).fatal = s.fatal := by
  unfold freezePath
  dsimp only
  split
  · rfl
  · split <;> simp [State.draw]

@[simp] theorem takeResidual_fatal (s : State) (n j p : Nat) (o : Int) : (takeResidual s n j p o).fatal = s.fatal := by
  unfold takeResidual
  dsimp only
  split
  · simp
  · split <;> simp

@[simp] theorem judgeNode_fatal (s : State) (n : Nat) (o : Int) (j : Nat) : (judgeNode s n o j).fatal = s.fatal :=
  (foldl_fatal (fun _ _ => by simp) _ _).trans (foldl_fatal (fun _ _ => by simp) _ _)

@[simp] theorem showHold_fatal (s : State) (n j : Nat) : (showHold s n j).fatal = s.fatal :=
  State.set_fatal _ _ _

@[simp] theorem judgeRound_fatal (s : State) (n : Nat) : (judgeRound s n).2.fatal = s.fatal := by
  have hjudge (o : Int) : ((List.range 16).foldl (fun t j => judgeNode t n o j) s).fatal = s.fatal :=
    foldl_fatal (fun _ _ => by simp) _ _
  simp [judgeRound, foldl_fatal, hjudge]

@[simp] theorem loadThin_fatal (s : State) (n : Nat) : (loadThin s n).fatal = s.fatal := by
  simp [loadThin]

@[simp] theorem servoLoad_fatal (s : State) (n : Nat) : (servoLoad s n).fatal = s.fatal := by
  unfold servoLoad
  split
  · rfl
  · have h := judgeRound_fatal (s.setSyn n { s.syn n with due := false }) n
    split
    · next e =>
      rw [e] at h
      simpa using h
    · next e =>
      rw [e] at h
      simpa using h

@[simp] theorem followerLoad_fatal (s : State) (n : Nat) : (followerLoad s n).fatal = s.fatal := by
  simp [followerLoad]

@[simp] theorem leaderMoves_fatal (s : State) : (leaderMoves s).fatal = s.fatal :=
  foldl_fatal (fun _ _ => by simp) _ _

@[simp] theorem leaderBoundary_fatal (s : State) : (leaderBoundary s).fatal = s.fatal := by
  unfold leaderBoundary
  extract_lets n s1 s2 _ s3 _ _ s2' s3' _
  have h1 : s1.fatal = s.fatal := leaderMoves_fatal s
  have h3 : s3.fatal = s.fatal := (State.withUlc_fatal s2 _).trans (by simp [s2, h1])
  have h2' : s2'.fatal = s.fatal := (State.withUlc_fatal s1 _).trans h1
  have h3' : s3'.fatal = s.fatal := by simp [s3', h2']
  split
  · simp [h3]
  · simp [h3']
  · split
    · exact (State.withUlc_fatal s1 _).trans h1
    · exact h1
  · exact h1

@[simp] theorem clearMeas_fatal (s : State) (n j : Nat) : (clearMeas s n j).fatal = s.fatal :=
  State.setNode_fatal _ _ _ _

@[simp] theorem rejoinPath_fatal (s : State) (n j p : Nat) : (rejoinPath s n j p).fatal = s.fatal := by
  simp [rejoinPath]

@[simp] theorem roundBegin_fatal (s : State) (n : Nat) : (roundBegin s n).fatal = s.fatal := by
  simp [roundBegin, foldl_fatal, gainsTake]

/-! ### The tick's boundary sequence (R36, R158) -/

@[simp] theorem flipSlot_fatal (s : State) (n : Nat) : (flipSlot s n).fatal = s.fatal := by
  unfold flipSlot
  dsimp only
  split
  · rfl
  · split <;> split <;> simp

@[simp] theorem markPart_fatal (s : State) (k : Nat) : (markPart s k).fatal = s.fatal := id rfl

@[simp] theorem partFlip_fatal (s : State) : (partFlip s).fatal = s.fatal := by
  simp [partFlip, foldl_fatal]

theorem partLatch_stays_fatal {s : State} (h : s.fatal = true) : (partLatch s).fatal = true := by
  simp [partLatch, h]

@[simp] theorem partLoad_fatal (s : State) : (partLoad s).fatal = s.fatal := by
  simp [partLoad, foldl_fatal]

theorem dueParts_stays_fatal {s : State} (h : s.fatal = true) : (dueParts s).fatal = true := by
  unfold dueParts
  extract_lets s1 s2
  have h1 : s1.fatal = true := by simp [s1, h]
  have h2 : s2.fatal = true := by simp [s2, h1, partLatch_stays_fatal h1]
  simp [h2]

@[simp] theorem grdBoundary_fatal (s : State) (num p : Nat) : (grdBoundary s num p).fatal = s.fatal := by
  simp [grdBoundary]

/-- The new tick starts and rounds begin; processors and the DMA engine stand (R448). -/
theorem boundaryT_stays_fatal {s : State} (h : s.fatal = true) (num : Nat) : (boundaryT s num).fatal = true := by
  unfold boundaryT
  extract_lets k s1 was s2 s3 s4
  have h1 : s1.fatal = true := State.fatal_of_eq (t := leaderBoundary (s.set GLB_TICK_NUM_NUM num)) rfl (by simp [h])
  have h2 : s2.fatal = true := (State.withTick_fatal s1 _).trans h1
  have h3 : s3.fatal = true := State.fatal_of_eq (if_pos h) h2
  have h4 : s4.fatal = true :=
    State.fatal_of_eq (show s4 = List.foldl _ s3 _ from rfl) (by rwa [foldl_fatal (fun _ _ => by simp)])
  exact eventRequest_stays_fatal (by rwa [foldl_fatal (fun _ _ => by simp)]) 2 0

/-! ### The end of a base clock and the begin of the next (log entry 72) -/

theorem collectorRuns_stays_fatal {s : State} (h : s.fatal = true) : (collectorRuns s).fatal = true := by
  unfold collectorRuns
  split
  · exact h
  · exact relatchLive_stays_fatal (by exact h) 0

theorem bellEnds_of_fatal {s : State} (h : s.fatal = true) (b : Nat × Nat × Nat × Nat × Option Nat) :
    bellEnds s b = s := by
  simp [bellEnds, whileRuns_of_fatal h, rxBell_of_fatal h]

theorem bellsEnd_stays_fatal {s : State} (h : s.fatal = true) : (bellsEnd s).fatal = true :=
  foldl_stays_fatal (fun _ b ht => by rwa [bellEnds_of_fatal ht]) _ h

@[simp] theorem laerrTest_fatal (s : State) (i : Nat) : (laerrTest s i).fatal = s.fatal := by
  simp [laerrTest, takeBases, frCount]

@[simp] theorem laerrEnd_fatal (s : State) : (laerrEnd s).fatal = s.fatal :=
  foldl_fatal laerrTest_fatal _ _

@[simp] theorem wrapEvent_fatal (s : State) (n : Nat) (back : Bool) : (wrapEvent s n back).fatal = s.fatal := by
  simp [wrapEvent]

/-- Of a step of the tick's base the trap causes are pended and nothing else. -/
theorem stepTick_stays_fatal {s : State} (h : s.fatal = true) (forward : Bool) : (stepTick s forward).fatal = true := by
  have hpend (l : List Nat) : (l.foldl (fun t g => pendTrap t g 8) s).fatal = true :=
    (foldl_fatal (fun _ _ => State.set_fatal _ _ _) _ _).trans h
  unfold stepTick
  extract_lets now s1
  rw [if_pos (by simp [h])]
  simp [s1, hpend, h]

theorem applyStep_stays_fatal {s : State} (h : s.fatal = true) (n : Nat) (d : Int) :
    (applyStep s n d).fatal = true := by
  unfold applyStep
  extract_lets t s0 old s1 s2 sum s3 u s4
  have h0 : s0.fatal = true := by
    refine State.fatal_of_eq (show s0 = ite _ _ _ from rfl) ?_
    split <;> simp [h]
  have h1 : s1.fatal = true := (devRec_fatal s0 _ _ _ _).trans h0
  have h2 : s2.fatal = true := by
    cases hw : stepWraps old (old + d) with
    | none => exact State.fatal_of_eq (t := s1) (by simp only [s2, hw]) h1
    | some back => exact State.fatal_of_eq (t := wrapEvent s1 n back) (by simp only [s2, hw]) (by simp [h1])
  have h3 : s3.fatal = true := State.fatal_of_eq (show s3 = (s2.set _ _).set _ _ from rfl) (by simp [h2])
  have h4 : s4.fatal = true := State.fatal_of_eq (show s4 = s3.setTb _ _ from rfl) (by simp [h3])
  split
  · exact stepTick_stays_fatal h4 _
  · exact h4

theorem applyDue_stays_fatal {s : State} (h : s.fatal = true) (e : StepDue) : (applyDue s e).fatal = true := by
  unfold applyDue
  extract_lets _ s1
  have h1 : s1.fatal = true := by
    simp only [s1]
    split
    · exact applyStep_stays_fatal h _ _
    · exact applyStep_stays_fatal (by simp [h]) _ _
  split
  · simp [csRephase, h1]
  · exact h1

theorem applySteps_stays_fatal {s : State} (h : s.fatal = true) : (applySteps s).fatal = true :=
  foldl_stays_fatal (fun _ e ht => applyDue_stays_fatal ht e) _ h

theorem endClock_stays_fatal {s : State} (h : s.fatal = true) : (endClock s).fatal = true := by
  have hsteps : (applySteps (laerrEnd (bellsEnd (collectorRuns s)))).fatal = true :=
    applySteps_stays_fatal ((laerrEnd_fatal _).trans (bellsEnd_stays_fatal (collectorRuns_stays_fatal h)))
  rwa [endClock, bootSettle_of_fatal hsteps]

@[simp] theorem countOne_fatal (s : State) (n : Nat) : (countOne s n).fatal = s.fatal := by
  simp [countOne]

@[simp] theorem baseClock_fatal (s : State) : (baseClock s).fatal = s.fatal := by
  simp [baseClock, foldl_fatal]

@[simp] theorem fetchWords_fatal (s : State) : (fetchWords s).fatal = s.fatal :=
  foldl_fatal (fun _ _ => by simp) _ _

/-! ### Frames of the device that wait (R182, R448) -/

@[simp] theorem showBusy_fatal (s : State) (k : Nat) (lanes busy : Bool) : (showBusy s k lanes busy).fatal = s.fatal :=
  (foldl_fatal (fun _ _ => by simp) _ _).trans (State.setB_fatal _ _ _)

@[simp] theorem psBegin_fatal (s : State) (k x : Nat) : (psBegin s k x).fatal = s.fatal := showBusy_fatal _ _ _ _

@[simp] theorem demand_fatal (s : State) (k : Nat) : (demand s k).fatal = s.fatal :=
  foldl_fatal (fun _ _ => by simp) _ _

@[simp] theorem addCnt_fatal (s : State) (off n : Nat) : (addCnt s off n).fatal = s.fatal := by
  simp [addCnt]

@[simp] theorem giveWay_fatal (s : State) (p : Nat) (t : TxSt) : (giveWay s p t).fatal = s.fatal := by
  have hpre (b : Nat) : (preemptAt s p t b).fatal = s.fatal := by
    unfold preemptAt
    split <;> simp
  unfold giveWay
  split
  · cases cutPoint s p t <;> simp [hpre]
  · rfl

/-- Where the line is free a frame of the device is lost. -/
theorem startJob_stays_fatal {s : State} (h : s.fatal = true) (p : Nat) (d : Due) : (startJob s p d).fatal = true := by
  have hport := canSend_of_fatal h p
  unfold startJob
  split <;> simp [sendPassing, mapCopy, sendHead, hport, h]

theorem tryJob_stays_fatal {s : State} (h : s.fatal = true) (p : Nat) (d : Due) : (tryJob s p d).fatal = true := by
  unfold tryJob
  dsimp only
  split
  · simp [h]
  · split
    · simp [h]
    · split
      · exact startJob_stays_fatal h p d
      · simp [h]

theorem runJobs_stays_fatal {s : State} (h : s.fatal = true) (p : Nat) : (runJobs s p).fatal = true :=
  foldl_stays_fatal (fun _ d ht => tryJob_stays_fatal ht p d) _ h

theorem runAllJobs_stays_fatal {s : State} (h : s.fatal = true) : (runAllJobs s).fatal = true :=
  foldl_stays_fatal (fun _ p ht => runJobs_stays_fatal ht p) _ h

/-- A base clock without a command. -/
theorem idleClock_stays_fatal {s : State} (h : s.fatal = true) : (idleClock s).fatal = true := by
  have hclock : (baseClock (endClock s)).fatal = true := (baseClock_fatal _).trans (endClock_stays_fatal h)
  have hparts : (fetchWords (dueParts (baseClock (endClock s)))).fatal = true :=
    (fetchWords_fatal _).trans (dueParts_stays_fatal hclock)
  exact runAllJobs_stays_fatal hparts

/-! ### What the host reads and writes (R27, R448) -/

/-- The next state of an outcome, where it has one, is in the fatal state. -/
def StaysFatal (o : Out) : Prop := ∀ t, o = .next t → t.fatal = true

@[simp] theorem staysFatal_next (t : State) : StaysFatal (.next t) ↔ t.fatal = true :=
  ⟨fun h => h t rfl, fun h _ e => Host.Outcome.next.inj e ▸ h⟩

@[simp] theorem showHead_fatal (s : State) (i : Nat) : (showHead s i).fatal = s.fatal := by
  unfold showHead
  dsimp only
  split <;> simp

theorem execEvinStamp1Read_stays_fatal {s : State} (h : s.fatal = true) (i : Fin 12) :
    StaysFatal (execEvinStamp1Read i s) := by
  unfold execEvinStamp1Read
  dsimp only
  split <;> simp [h]

theorem execTbNsRead_stays_fatal {s : State} (h : s.fatal = true) (n : Fin 9) (wide : Bool) :
    StaysFatal (execTbNsRead n wide s) := by
  simp [execTbNsRead, h]

theorem execPortCounterLowRead_stays_fatal {s : State} (h : s.fatal = true) (p : Port) (c : Fin 15) :
    StaysFatal (execPortCounterLowRead p c s) := by
  simp [execPortCounterLowRead, h]

theorem execVectorUnmask_stays_fatal {s : State} (h : s.fatal = true) (v : Fin 2048) :
    StaysFatal (execVectorUnmask v s) := by
  unfold execVectorUnmask
  dsimp only
  split <;> simp [h]

theorem stateOf_fatal {s : State} (h : s.fatal = true) {o : Out} (ho : StaysFatal o) : (stateOf s o).fatal = true := by
  cases o with
  | next t => exact ho t rfl
  | fault _ => exact h
  | refused _ => exact h

theorem readEffect_stays_fatal {s : State} (h : s.fatal = true) (off : Nat) : (readEffect s off).fatal = true := by
  have hns (n : Fin 9) : (stateOf s (execTbNsRead n false s)).fatal = true :=
    stateOf_fatal h (execTbNsRead_stays_fatal h n false)
  have hevin (i : Fin 12) : (stateOf s (execEvinStamp1Read i s)).fatal = true :=
    stateOf_fatal h (execEvinStamp1Read_stays_fatal h i)
  have hcnt (p : Port) (c : Fin 15) : (stateOf s (execPortCounterLowRead p c s)).fatal = true :=
    stateOf_fatal h (execPortCounterLowRead_stays_fatal h p c)
  simp [readEffect, latchServo, hns, hevin, hcnt, h]

theorem readWords_stays_fatal {s : State} (h : s.fatal = true) {r : State → Nat → Word × State}
    (hr : ∀ t o, t.fatal = true → (r t o).2.fatal = true) (off size : Nat) : (readWords r s off size).2.fatal = true := by
  unfold readWords
  dsimp only
  split
  · exact hr _ _ (hr _ _ h)
  · exact hr _ _ h

theorem vfRead4_stays_fatal {s : State} (h : s.fatal = true) (f o : Nat) : (vfRead4 f s o).2.fatal = true := by
  simp [vfRead4, hostRead4, apply_ite Prod.snd, readEffect_stays_fatal h, h]

@[simp] theorem answer_fatal (x : Bytes × State) : (answer x).fatal = x.2.fatal := State.emit_fatal _ _

@[simp] theorem refuseAccess_fatal (s : State) (write : Bool) (off : Nat) :
    (refuseAccess s write off).fatal = s.fatal := by
  simp [refuseAccess]

theorem bar0Read_stays_fatal {s : State} (h : s.fatal = true) (off size : Nat) :
    (bar0Read s off size).fatal = true := by
  have hread : (readWords hostRead4 s off size).2.fatal = true :=
    readWords_stays_fatal h (fun _ o ht => readEffect_stays_fatal ht o) _ _
  simp [bar0Read, refuseRead, hread, h]

theorem barsRead_stays_fatal {s : State} (h : s.fatal = true) (off size : Nat) :
    (barsRead s off size).fatal = true := by
  unfold barsRead
  extract_lets n o f
  have hbar4 : (readWords bar4Read4 s (off - 0x5000000) n).2.fatal = true :=
    readWords_stays_fatal h (fun _ _ ht => ht) _ _
  have hvf : (readWords (vfRead4 f) s o n).2.fatal = true :=
    readWords_stays_fatal h (fun _ o ht => vfRead4_stays_fatal ht f o) _ _
  cases hcfg : cfgLoad s ((off - 0x7000000) / 0x1000) ((off - 0x7000000) % 0x1000) n with
  | none => simp [bar0Read_stays_fatal h, refuseRead, hbar4, hvf, h]
  | some b => simp [bar0Read_stays_fatal h, refuseRead, hbar4, hvf, h]

theorem writeWords_stays_fatal {s : State} (h : s.fatal = true) {w : State → Nat → Word → State}
    (hw : ∀ t o d, t.fatal = true → (w t o d).fatal = true) (off size : Nat) (data : BitVec 64) :
    (writeWords w s off size data).fatal = true := by
  unfold writeWords
  dsimp only
  split
  · exact hw _ _ _ (hw _ _ _ h)
  · exact hw _ _ _ h

theorem hostWord4_stays_fatal {s : State} (h : s.fatal = true) (off : Nat) (v : Word) :
    (hostWord4 s off v).fatal = true := by
  rwa [hostWord4_of_fatal h]

theorem msixTableWrite_stays_fatal {s : State} (h : s.fatal = true) (f o : Nat) (d : Word) :
    (msixTableWrite f s o d).fatal = true := by
  have hunmask (v : Fin 2048) : (stateOf s (execVectorUnmask v s)).fatal = true :=
    stateOf_fatal h (execVectorUnmask_stays_fatal h v)
  simp [msixTableWrite, msixWord, hunmask, h]

theorem vfWord_stays_fatal {s : State} (h : s.fatal = true) (f o : Nat) (d : Word) : (vfWord f s o d).fatal = true := by
  simp [vfWord, hostWord4_of_fatal h, msixTableWrite_stays_fatal h, h]

theorem cfgPut_stays_fatal {s : State} (h : s.fatal = true) (f o v : Nat) : (cfgPut s f o v).fatal = true := by
  have hflr : execFunctionLevelReset (Fin.ofNat 64 f) s = .next s := by simp [execFunctionLevelReset, h]
  unfold cfgPut
  rw [hflr]
  split
  · exact h
  · split
    · exact h
    · split
      · exact h
      · split
        · simp [barSet, h]
        · split <;> simp [linkRetrain, h]

theorem barsWrite_stays_fatal {s : State} (h : s.fatal = true) (off size : Nat) (data : BitVec 64) :
    (barsWrite s off size data).fatal = true := by
  have hbar0 (o : Nat) : (writeWords hostWord4 s o size data).fatal = true :=
    writeWords_stays_fatal h (fun _ o d ht => hostWord4_stays_fatal ht o d) _ _ _
  have hbar4 (o : Nat) : (writeWords bar4Word s o size data).fatal = true :=
    writeWords_stays_fatal h (fun _ o d ht => by simp [bar4Word, msixTableWrite_stays_fatal ht, ht]) _ _ _
  have hvf (f o : Nat) : (writeWords (vfWord f) s o size data).fatal = true :=
    writeWords_stays_fatal h (fun _ o d ht => vfWord_stays_fatal ht f o d) _ _ _
  simp [barsWrite, bar0Write, bar2Write, vfWrite, cfgStore, cfgPut_stays_fatal h, hbar0, hbar4, hvf, h]

theorem execRegisterWrite_stays_fatal {s : State} (h : s.fatal = true) (off size : Nat) (acc : BarAcc) :
    StaysFatal (execRegisterWrite off size acc s) := by
  cases acc with
  | write data => exact (staysFatal_next _).2 (barsWrite_stays_fatal h off size data)
  | read => exact (staysFatal_next _).2 (barsRead_stays_fatal h off size)

/-! ### Commands that still act: error lines and sensors, time, the host's memory, the side interfaces -/

section Acts

variable {s : State} (h : s.fatal = true)
include h

theorem execSourceLatch_stays_fatal (u : ShellId) (bit : Fin 16) (line : Line) (sev : Sev) (info : Nat) :
    StaysFatal (execSourceLatch u bit line sev info s) := by
  cases line with
  | fall => simp [execSourceLatch, h]
  | pulse => exact (staysFatal_next _).2 (raise_stays_fatal h _ _ _ _)
  | rise => exact (staysFatal_next _).2 (raise_stays_fatal (by simp [h]) _ _ _ _)

theorem execTemperatureSample_stays_fatal (t : BitVec 16) : StaysFatal (execTemperatureSample t s) := by
  unfold execTemperatureSample
  extract_lets s1 x warn hyst was s2
  have h1 : s1.fatal = true := (State.set_fatal s _ _).trans h
  have h2 : s2.fatal = true := by simp [s2, h1]
  rw [staysFatal_next]
  split
  · exact fatalEvent_stays_fatal ((setLive_fatal s2 _ _ _).trans h2) 1
  · exact (setLive_fatal s2 _ _ _).trans h2

theorem execTickBoundary_stays_fatal : StaysFatal (execTickBoundary s) := by
  have hload : (partLoad (partLatch (partFlip s))).fatal = true :=
    (partLoad_fatal _).trans (partLatch_stays_fatal ((partFlip_fatal s).trans h))
  unfold execTickBoundary
  split
  · exact (staysFatal_next _).2 h
  · simp [boundaryT_stays_fatal hload, h]

theorem execSyncRoundEnd_stays_fatal (n : TbIx) : StaysFatal (execSyncRoundEnd n s) := by
  simp [execSyncRoundEnd, h]

theorem execHoldoffEnd_stays_fatal (n : TbIx) (j : Fin 16) (path : Fin 2) : StaysFatal (execHoldoffEnd n j path s) := by
  have hover (r : Int) : (holdoffOver s n.val j.val path.val r).fatal = true := by simp [holdoffOver, h]
  unfold execHoldoffEnd
  dsimp only
  split
  · exact (staysFatal_next _).2 (hover _)
  · simp [h]

theorem execWrap_stays_fatal (n : Fin 9) : StaysFatal (execWrap n s) := by
  unfold execWrap
  dsimp only
  split <;> simp [h]

theorem execRefLost_stays_fatal : StaysFatal (execRefLost s) := by
  simp [execRefLost, h]

theorem execRefReturn_stays_fatal : StaysFatal (execRefReturn s) := by
  unfold execRefReturn
  dsimp only
  split <;> simp [h]

theorem execPpsPulseEnd_stays_fatal (j : Fin 4) : StaysFatal (execPpsPulseEnd j s) := by
  unfold execPpsPulseEnd
  split <;> simp [h]

theorem execRefclkSdLost_stays_fatal (g : Grp) : StaysFatal (execRefclkSdLost g s) := by
  unfold execRefclkSdLost
  split <;> simp [h]

theorem execRefclkSdReturn_stays_fatal (g : Grp) : StaysFatal (execRefclkSdReturn g s) := by
  unfold execRefclkSdReturn
  split <;> simp [h]

theorem execBurst_stays_fatal (c : Fin 64) (dreq readErr : Bool) : StaysFatal (execBurst c dreq readErr s) := by
  unfold execBurst
  split
  · simp [h]
  · simp [whileRuns_of_fatal h, h]

/-- What a doorbell or a kick would do waits for the host interface, which stands; the host's own writes are in its memory. -/
theorem whileRuns_hostWrites_fatal (hw : HostWrites) (op : State → State) :
    (whileRuns (s.hostWrites hw) op).fatal = true := by
  have hwritten : (s.hostWrites hw).fatal = true := h
  rwa [whileRuns_of_fatal hwritten]

theorem execDbRx_stays_fatal (f : Fn) (v : Word) (x : HostSees) : StaysFatal (execDbRx f v x s) := by
  have hbell :=
    whileRuns_hostWrites_fatal h x.hw (fun t => doorbell t 1 f.val (getField v 0 12) (getField v 16 16) x.err)
  simp [execDbRx, rxBell_of_fatal hbell, hbell]

theorem execChallengeExpiry_stays_fatal : StaysFatal (execChallengeExpiry s) := by
  unfold execChallengeExpiry
  split <;> simp [h]

theorem authorise_stays_fatal (req : Bytes) : (authorise s req).2.fatal = true := by
  have hclear (t : State) (p : Nat) : (secClear t p).fatal = t.fatal := by simp [secClear]
  unfold authorise
  dsimp only
  split <;> simp [apply_ite Prod.snd, zeroKeys, logAdd, foldl_fatal, hclear, h]

theorem execSecChal_stays_fatal : StaysFatal (execSecChal s) := by
  simp [execSecChal, newChallenge, h]

theorem execSecResp_stays_fatal (req : Bytes) : StaysFatal (execSecResp req s) := by
  unfold execSecResp
  split
  · simp [h]
  · simp [authorise_stays_fatal h]

theorem smbReply_stays_fatal (sent wire data : Bytes) : (smbReply s sent wire data).fatal = true := by
  simp [smbReply, h]

theorem execReadVcore_stays_fatal (mv : BitVec 16) : StaysFatal (execReadVcore mv s) :=
  (staysFatal_next _).2 (smbReply_stays_fatal ((State.set_fatal s _ _).trans h) _ _ _)

theorem execBar0Read_stays_fatal (x : SmbCall) : StaysFatal (execBar0Read x s) := by
  simp [execBar0Read, apply_ite StaysFatal, smbReply_stays_fatal h, h]

theorem jtagBypass_stays_fatal : (jtagBypass s).fatal = true := h

theorem jtagScan_stays_fatal (code : Nat) : (jtagScan s code).fatal = true := by
  simp [jtagScan, jtagBypass_stays_fatal h, jtagCapture, jtagIr, h]

theorem execSamplePreload_stays_fatal (v : Nat) : StaysFatal (execSamplePreload v s) := by
  simp [execSamplePreload, apply_ite StaysFatal, jtagBypass_stays_fatal h, jtagCapture, h]

end Acts

/-! ### R449 -/

/-- In the fatal state every command but a power-on reset leaves the state fatal: most find what they would move standing (R448), and
those that still act leave `fatal` alone or enter the fatal state again. -/
theorem exec_stays_fatal {s : State} (h : s.fatal = true) {c : Instr} (hc : ∀ straps ref, c ≠ .powerOnReset straps ref) :
    StaysFatal (exec c s) := by
  cases c with
  | powerOnReset straps ref => exact absurd rfl (hc straps ref)
  -- No reset but that one, and no start of the boot engine (R448).
  | warmDeviceReset | hir | functionLevelReset | unitReset | unitResetComplete | resetShadowEnd | go | retainedRestart =>
    simp [exec, execWarmDeviceReset, execHir, execFunctionLevelReset, execUnitReset, execUnitResetComplete,
      execResetShadowEnd, execGo, execRetainedRestart, warmReset_of_fatal h, hirOp_of_fatal h, goOp_of_fatal h,
      restartOp_of_fatal h, h]
  -- The processors run no word.
  | nop | mov | add | sub | and | or | xor | shl | shr | cmp | ldt | stt | tset | tsetDisarm | gate | sgate | hold | release
    | launch | pour | sip | pimgGet | pimgPut | evt | spCommit =>
    simp [exec, execNop, execMov, execAdd, execSub, execAnd, execOr, execXor, execShl, execShr, execCmp, execLdt, execStt,
      execTset, execTsetDisarm, execGate, execSgate, execHold, execRelease, execLaunch, execPour, execSip, execPimgGet,
      execPimgPut, execEvt, execSpCommit, spCommand_of_fatal h, spReady_of_fatal h, h]
  -- The boot engine stands.
  | write | writeBlock | loadStore | bindTick | bindHost | bindSp | trust | claimOwner | setTime | waitUntil | waitUntilTimeout
    | ifFuse | commit | waitUntilMet =>
    simp [exec, execWrite, execWriteBlock, execLoadStore, execBindTick, execBindHost, execBindSp, execTrust, execClaimOwner,
      execSetTime, execWaitUntil, execWaitUntilTimeout, execIfFuse, execCommit, execWaitUntilMet, bootAt_of_fatal h,
      bindAt_of_fatal h, bootWaits_of_fatal h, h]
  -- The host interface, the mailbox and the power controller stand.
  | dbEvt | transmitDescriptor | commandNop | ringCreate | ringDestroy | steer | getCert | attest | challenge | revoke | debug
    | evaluation | wake =>
    simp [exec, execDbEvt, execTransmitDescriptor, execCommandNop, execRingCreate, execRingDestroy, execSteer, execGetCert,
      execAttest, execChallenge, execRevoke, execDebug, execEvaluation, execWake, whileRuns_of_fatal h, nextCmd_of_fatal h,
      mboxRuns_of_fatal h, mboxAuthorise_of_fatal h, pwrRuns_of_fatal h, h]
  -- No port takes or sends a frame.
  | frameReceive | transmitSelection | syncMessage | followUp | syncTransmit | pdelayReq | pdelayResp | hs1 | hs2 | hs1Resend
    | rehandshake | mkpdu | mkaHello | rekey | spdmRequest | timeWord | faultSummary | identityDigest | uliconFrame
    | pdelayReqReceive | timeWordsAndSummariesSent =>
    simp [exec, execFrameReceive, execTransmitSelection, execSyncMessage, execFollowUp, execSyncTransmit, execPdelayReq,
      execPdelayResp, execHs1, execHs2, execHs1Resend, execRehandshake, execMkpdu, execMkaHello, execRekey, execSpdmRequest,
      execTimeWord, execFaultSummary, execIdentityDigest, execUliconFrame, execPdelayReqReceive,
      execTimeWordsAndSummariesSent, macUp_of_fatal h, maySend_of_fatal h, ulcTakes_of_fatal h, ulcCarries_of_fatal h,
      hsUp_of_fatal h, hsTakes_of_fatal h, ptpHears_of_fatal h, ptpMaySend_of_fatal h, h]
  -- The collector and the side interfaces take no write and end no transaction.
  | shellStatW1c | fltWatch | clockLowTimeout =>
    simp [exec, execShellStatW1c, execFltWatch, execClockLowTimeout, h]
  -- Nothing is cut off, published or taken.
  | overrunCutOff | publish | take =>
    simp [exec, execOverrunCutOff, execPublish, execTake, h]
  -- Lanes and links change no more.
  | eyeMarginSample | errorMetricInterval | lossOfSignal | retreatFollow | retreatTimeout | anResolved | linkUp | linkLost
    | verify | signalDetect =>
    simp [exec, execEyeMarginSample, execErrorMetricInterval, execLossOfSignal, execRetreatFollow, execRetreatTimeout,
      execAnResolved, execLinkUp, execLinkLost, execVerify, execSignalDetect, h]
  -- The tables and queues of forwarding and redundancy rest.
  | ageing | timedReleaseLaunch | truncation | strTableRead | strTableWrite | frerTableRead | frerTableWrite | recoveryReset
    | lossTmo | laerrPeriod | laerrReset | nodeForget =>
    simp [exec, execAgeing, execTimedReleaseLaunch, execTruncation, execStrTableRead, execStrTableWrite, execFrerTableRead,
      execFrerTableWrite, execRecoveryReset, execLossTmo, execLaerrPeriod, execLaerrReset, execNodeForget, h]
  -- The processors take no trap, resume no wait and serve no host.
  | tcmpFire | waitTimeResume | budgetLow | machineCheck | spHostreq | csRead | csWrite =>
    simp [exec, execTcmpFire, execWaitTimeResume, execBudgetLow, execMachineCheck, execSpHostreq, execCsRead, execCsWrite,
      h]
  -- Carafes rest.
  | copyReceive | giveup | returnDeadline | sipCut | remotePourLatch | remoteStationData =>
    simp [exec, execCopyReceive, execGiveup, execReturnDeadline, execSipCut, execRemotePourLatch, execRemoteStationData, h]
  -- Cold start rests.
  | coldStartFrame | listenTimeout | coldStartSend | backoffEnd | integrateTimeout | coldstartSync | synCsRestart =>
    simp [exec, execColdStartFrame, execListenTimeout, execColdStartSend, execBackoffEnd, execIntegrateTimeout,
      execColdstartSync, execSynCsRestart, h]
  -- No time base takes a write, a stamp or a step.
  | tbIncHi | step | snapshot | inputStamp | ppsPulse | tcmpHFire | nodeAcc | nodeDly | nodeCtl | nodeSofs | aswAccept
    | stepGrant | slavePortTimeout | ptpAcc =>
    simp [exec, execTbIncHi, execStep, execSnapshot, execInputStamp, execPpsPulse, execTcmpHFire, execNodeAcc, execNodeDly,
      execNodeCtl, execNodeSofs, execAswAccept, execStepGrant, execSlavePortTimeout, execPtpAcc, h]
  -- Rings and the DMA engine rest.
  | dbCmdCfg | completion | moderationEnd | rxHold | commitPoint | tickDeadline | abort =>
    simp [exec, execDbCmdCfg, execCompletion, execModerationEnd, execRxHold, execCommitPoint, execTickDeadline, execAbort,
      h]
  -- A compound node hears of no member.
  | powerReport | mirrorReset =>
    simp [exec, execPowerReport, execMirrorReset, h]
  -- These look something up before they ask.
  | trapEntry | frameEnd | carafeLaunch | copyVerify | carafeReturn | mkaLifeTime | ptpKeyExpiry | transitionComplete | pairDown
    | memberLost =>
    simp only [exec, execTrapEntry, execFrameEnd, execCarafeLaunch, execCopyVerify, execCarafeReturn, execMkaLifeTime,
      execPtpKeyExpiry, execTransitionComplete, execPairDown, execMemberLost]
    split <;> simp [trapAllowed_of_fatal h, pwrRuns_of_fatal h, h]
  -- These act.
  | heartbeatLoss | idcode | bypass | readTemperature | readStatus =>
    simp [exec, execHeartbeatLoss, execIdcode, execBypass, execReadTemperature, execReadStatus, smbReply_stays_fatal h,
      jtagBypass_stays_fatal h, jtagIr, h]
  | extest | extestPulse | extestTrain => exact (staysFatal_next _).2 (jtagScan_stays_fatal h _)
  | dbTx f v x | dbJob f v x | dbCmd f v x | dmaKick c x => exact (staysFatal_next _).2 (whileRuns_hostWrites_fatal h x.hw _)
  | registerWrite off size acc => exact execRegisterWrite_stays_fatal h off size acc
  | sourceLatch u bit line sev info => exact execSourceLatch_stays_fatal h u bit line sev info
  | temperatureSample t => exact execTemperatureSample_stays_fatal h t
  | tickBoundary => exact execTickBoundary_stays_fatal h
  | portCounterLowRead p c => exact execPortCounterLowRead_stays_fatal h p c
  | wrap n => exact execWrap_stays_fatal h n
  | tbNsRead n wide => exact execTbNsRead_stays_fatal h n wide
  | refLost => exact execRefLost_stays_fatal h
  | refReturn => exact execRefReturn_stays_fatal h
  | evinStamp1Read ix => exact execEvinStamp1Read_stays_fatal h ix
  | ppsPulseEnd j => exact execPpsPulseEnd_stays_fatal h j
  | syncRoundEnd n => exact execSyncRoundEnd_stays_fatal h n
  | holdoffEnd n j path => exact execHoldoffEnd_stays_fatal h n j path
  | dbRx f v x => exact execDbRx_stays_fatal h f v x
  | vectorUnmask v => exact execVectorUnmask_stays_fatal h v
  | burst c dreq readErr => exact execBurst_stays_fatal h c dreq readErr
  | challengeExpiry => exact execChallengeExpiry_stays_fatal h
  | secChal => exact execSecChal_stays_fatal h
  | secResp req => exact execSecResp_stays_fatal h req
  | refclkSdLost g => exact execRefclkSdLost_stays_fatal h g
  | refclkSdReturn g => exact execRefclkSdReturn_stays_fatal h g
  | readVcore mv => exact execReadVcore_stays_fatal h mv
  | bar0Read x => exact execBar0Read_stays_fatal h x
  | samplePreload v => exact execSamplePreload_stays_fatal h v

theorem dark_fatal (slots : Tab OwnerSlot) (straps ref : Nat) : (State.dark slots straps ref).fatal = false := rfl

theorem outside_fatal (s d : State) : (outside s d).fatal = d.fatal := rfl

theorem ppsFall_fatal (s d : State) : (ppsFall s d).fatal = d.fatal :=
  foldl_fatal (fun _ _ => State.emit_fatal _ _) _ _

theorem withCollector_fatal (d : State) (b : Bool) : { d with collector := b }.fatal = d.fatal := rfl

/-- A power-on reset leaves the dark state, which is not fatal, whatever pulse outputs fall and whether TIME_REFCLK is
there (R449, R485). -/
theorem powerOn_fatal (s : State) (straps ref : Nat) : (powerOn s straps ref).fatal = false := by
  have hdark : { ppsFall s (outside s (State.dark s.sec.slots straps ref)) with collector := false }.fatal = false := by
    rw [withCollector_fatal, ppsFall_fatal, outside_fatal, dark_fatal]
  unfold powerOn
  split
  · rw [setLive_fatal, hdark]
  · exact hdark

/-- A step in the fatal state, with no power-on reset at the front of the queue, is the clock without a command or one of
those commands. -/
theorem step_stays_fatal {s : State} (h : s.fatal = true)
    (hfront : ∀ straps ref r, s.pending ≠ .powerOnReset straps ref :: r) : StaysFatal (step s) := by
  unfold step
  split
  · exact (staysFatal_next _).2 (idleClock_stays_fatal h)
  · next c r hpending =>
    have hc : ∀ straps ref, c ≠ .powerOnReset straps ref := fun straps ref e => hfront straps ref r (e ▸ hpending)
    exact exec_stays_fatal (s := { s with pending := r }) h hc

/-- Settles O3, a step at a time: from the fatal state the clock without a command and each command lead to the fatal
state, and the power-on reset to the dark state. -/
theorem fatalEndsAtPowerOnOnly : Obligations.FatalEndsAtPowerOnOnly := by
  unfold Obligations.FatalEndsAtPowerOnOnly
  exact ⟨fun _ t h hfront => step_stays_fatal h hfront t,
    fun straps ref s => ⟨_, rfl, powerOn_fatal s straps.val ref.val⟩⟩

end Sys2Proof.Machine

/-! O11: what the staging window holds after a write and after a reset (R473, R485, R363). -/

namespace Sys2Proof.Machine

/-! ### Bytes of a number, and tables of which the entries of some keys stay -/

@[simp] theorem length_leBytes (n v : Nat) : (leBytes n v).length = n := by
  induction n generalizing v with
  | zero => rfl
  | succ n ih => simp [leBytes, ih]

theorem getD_leBytes {n i : Nat} (v : Nat) (h : i < n) : (leBytes n v).getD i 0 = BitVec.ofNat 8 (v / 2 ^ (8 * i)) := by
  induction n generalizing v i with
  | zero => omega
  | succ n ih =>
    cases i with
    | zero => simp [leBytes]
    | succ i =>
      have hpow : 2 ^ (8 * (i + 1)) = 256 * 2 ^ (8 * i) := by rw [Nat.mul_succ, Nat.pow_add, Nat.mul_comm]
      rw [hpow, ← Nat.div_div_eq_div_mul]
      exact ih (v / 256) (Nat.lt_of_succ_lt_succ h)

/-- A key that a filter keeps reads as before. -/
theorem tget_filter_of_kept {α : Type} (d : α) (t : Tab α) (p : Nat → Bool) {k : Nat} (h : p k = true) :
    tget d (t.filter (fun e => p e.1)) k = tget d t k := by
  induction t with
  | nil => rfl
  | cons e r ih =>
    obtain ⟨i, v⟩ := e
    by_cases hk : k = i
    · subst hk
      simp [h, tget]
    · cases hp : p i <;> simp [hp, hk, tget, ih]

theorem tget_tclear_of_kept {α : Type} (d : α) (t : Tab α) (p : Nat → Bool) {k : Nat} (h : p k = false) :
    tget d (tclear t p) k = tget d t k :=
  tget_filter_of_kept d t (fun i => !p i) (by simp [h])

/-! ### Writes of the window (R473) -/

/-- The bytes of a write that lie in the window: at most eight, and none beyond its 16 MiB. -/
def stagedBytes (o size : Nat) (data : BitVec 64) : Bytes := (leBytes (min size 8) data.toNat).take (0x1000000 - o)

theorem length_stagedBytes (o size : Nat) (data : BitVec 64) :
    (stagedBytes o size data).length = min (0x1000000 - o) (min size 8) := by
  simp [stagedBytes]

theorem getD_stagedBytes {o size i : Nat} (data : BitVec 64) (hsize : i < min size 8) (hin : o + i < 0x1000000) :
    (stagedBytes o size data).getD i 0 = BitVec.ofNat 8 (data.toNat / 2 ^ (8 * i)) := by
  have htake : i < 0x1000000 - o := by omega
  rw [← getD_leBytes data.toNat hsize]
  simp only [stagedBytes, List.getD_eq_getElem?_getD, List.getElem?_take_of_lt htake]

theorem exec_stagingWrite {o : Nat} (size : Nat) (data : BitVec 64) (s : State) (h : o < 0x1000000) :
    exec (.registerWrite (0x4000000 + o) size (.write data)) s = .next (bar2Write s o size data) := by
  have hwindow : barsWrite s (0x4000000 + o) size data = bar2Write s (0x4000000 + o - 0x4000000) size data := by
    rw [barsWrite, if_neg (by omega), if_pos (by omega)]
  rw [Nat.add_sub_cancel_left] at hwindow
  exact congrArg Host.Outcome.next hwindow

theorem bar2Write_of_ignored {s : State} (o size : Nat) (data : BitVec 64) (h : 1 ≤ s.get BOOT_STATE_STATE)
    (h' : s.get BOOT_STATE_STATE ≤ 4) : bar2Write s o size data = s := by
  rw [bar2Write]
  exact if_pos ⟨h, h'⟩

/-- A write that is accepted stores its bytes, and what they replace is kept for a GO of the same clock (R492). -/
theorem bar2Write_of_accepted {s : State} (o size : Nat) (data : BitVec 64)
    (h : ¬ (1 ≤ s.get BOOT_STATE_STATE ∧ s.get BOOT_STATE_STATE ≤ 4)) :
    ∃ boot, bar2Write s o size data = { s with mem := s.mem.putBytes (bar2A o) (stagedBytes o size data), boot := boot } := by
  rw [bar2Write]
  exact ⟨_, if_neg h⟩

/-! ### Operations of the resets that leave every byte memory alone -/

theorem foldl_mem {α : Type} {f : State → α → State} (hf : ∀ t a, (f t a).mem = t.mem) (l : List α) (s : State) :
    (l.foldl f s).mem = s.mem :=
  List.foldlRecOn (motive := fun t => t.mem = s.mem) l f rfl fun t ht a _ => (hf t a).trans ht

theorem State.eventFrame.mem_eq {s t : State} (h : s.eventFrame t) : t.mem = s.mem := by
  rw [h.1]

@[simp] theorem State.react_mem (s : State) (k bit : Nat) (b : Bool) : (s.react k bit b).mem = s.mem := id rfl

@[simp] theorem setLive_mem (s : State) (k bit : Nat) (b : Bool) : (setLive s k bit b).mem = s.mem :=
  State.set_mem _ _ _

@[simp] theorem record_mem (s : State) (k bit : Nat) (c : Cls) : (record s k bit c).mem = s.mem :=
  (record_frame s k bit c).mem_eq

@[simp] theorem note_mem (s : State) (k bit : Nat) (c : Cls) : (note s k bit c).mem = s.mem :=
  (note_frame s k bit c).mem_eq

@[simp] theorem watchEvent_mem (s : State) (kind inst : Nat) : (watchEvent s kind inst).2.mem = s.mem := id rfl

@[simp] theorem watched_mem (s : State) (k bit kind inst : Nat) : (watched s k bit kind inst).2.mem = s.mem := by
  have h := (admitEvent_frame s k bit false).mem_eq
  unfold watched
  split
  · next e => rwa [e] at h
  · next e =>
    rw [e] at h
    exact (record_mem _ _ _ _).trans ((watchEvent_mem _ _ _).trans h)

@[simp] theorem secClear_mem (s : State) (p : Nat) : (secClear s p).mem = s.mem := by
  simp [secClear]

@[simp] theorem fatalPower_mem (s : State) : (fatalPower s).mem = s.mem := by
  simp [fatalPower, foldl_mem]

@[simp] theorem enterFatal_mem (s : State) : (enterFatal s).mem = s.mem := by
  simp [enterFatal, foldl_mem]

@[simp] theorem fatalEvent_mem (s : State) (bit : Nat) : (fatalEvent s bit).mem = s.mem := by
  unfold fatalEvent
  split <;> simp

theorem raiseDevice_mem (s : State) (bit : Nat) (sev : Sev) (info : Nat) : (raiseDevice s bit sev info).mem = s.mem := by
  unfold raiseDevice
  split
  · exact fatalEvent_mem s bit
  · split
    · simp [nodeRetire, apply_ite State.mem]
    · cases sev <;> simp [apply_ite State.mem]
    · exact note_mem _ _ _ _

/-- Unit 0 is the device, whose events the fatal state does not quieten. -/
theorem raise_device_mem (s : State) (bit : Nat) (sev : Sev) (info : Nat) : (raise s 0 bit sev info).mem = s.mem := by
  unfold raise
  rw [if_neg (by simp [levelOf])]
  split
  · rfl
  · exact raiseDevice_mem s bit sev info

theorem relatch_device_mem (s : State) (bit : Nat) : (relatch s 0 bit).mem = s.mem := by
  unfold relatch
  split
  · exact (raise_device_mem _ _ _ _).trans (State.react_mem _ _ _ _)
  · rfl

theorem relatchLive_device_mem (s : State) : (relatchLive s 0).mem = s.mem :=
  foldl_mem relatch_device_mem _ _

@[simp] theorem ppsFall_mem (s d : State) : (ppsFall s d).mem = d.mem :=
  foldl_mem (fun _ _ => State.emit_mem _ _) _ _

@[simp] theorem bootAccept_mem (s : State) (restarted : Bool) : (bootAccept s restarted).mem = s.mem := by
  simp [bootAccept]

@[simp] theorem restartRun_mem (s : State) (ramOk host : Bool) : (restartRun s ramOk host).mem = s.mem := by
  unfold restartRun
  split
  · cases host <;> simp
  · simp

/-! ### What the resets leave of the byte memories (R363, R485, R486) -/

theorem dark_mem (slots : Tab OwnerSlot) (straps ref : Nat) : (State.dark slots straps ref).mem = [] := rfl

theorem outside_mem (s d : State) : (outside s d).mem = d.mem := rfl

theorem withCollector_mem (d : State) (b : Bool) : { d with collector := b }.mem = d.mem := rfl

/-- A power-on reset leaves the dark state, whose memories are empty (R485). -/
theorem powerOn_mem (s : State) (straps ref : Nat) : (powerOn s straps ref).mem = [] := by
  have hdark : { ppsFall s (outside s (State.dark s.sec.slots straps ref)) with collector := false }.mem = [] := by
    rw [withCollector_mem, ppsFall_mem, outside_mem, dark_mem]
  unfold powerOn
  split
  · rw [setLive_mem, hdark]
  · exact hdark

theorem warmState_mem (s : State) : (warmState s).mem = s.mem.filter (fun e => warmMem e.1) := by
  unfold warmState
  extract_lets d d1 d2
  rw [relatchLive_device_mem, ppsFall_mem]
  rfl

/-- A warm device reset that is not ignored in the fatal state (R448) leaves the memories `warmMem` names, whether or not the
retained image starts. -/
theorem warmReset_mem {s : State} (ramOk : Bool) (h : s.fatal = false) :
    (warmReset s ramOk).mem = s.mem.filter (fun e => warmMem e.1) := by
  have hd := warmState_mem s
  unfold warmReset
  rw [if_neg (by simp [h])]
  dsimp only
  split
  · exact (restartRun_mem _ _ _).trans hd
  · exact hd

theorem warmReset_keeps_bar2 (s : State) (ramOk : Bool) {o : Nat} (h : o < 0x1000000) :
    (warmReset s ramOk).mem.get (0x4000000 + o) = s.mem.get (0x4000000 + o) := by
  cases hf : s.fatal with
  | true => simp [warmReset, hf]
  | false =>
    have hkept : warmMem (0x4000000 + o) = true := by simp [warmMem]; omega
    rw [warmReset_mem ramOk hf]
    exact tget_filter_of_kept 0 s.mem warmMem hkept

/-- The memory an HIR clears is the MSI-X table in BAR4, and GLB_HIR keeps that one too. -/
theorem hirVectors_keeps_below_bar4 (s : State) (cause : HirCause) {a : Nat} (h : a < 0x5000000) :
    (hirVectors s cause).mem.get a = s.mem.get a := by
  unfold hirVectors
  split
  · rfl
  · have hkept : (0x5000000 ≤ a && a < 0x6000000) = false := by simp; omega
    exact tget_tclear_of_kept 0 s.mem (fun i => 0x5000000 ≤ i && i < 0x6000000) hkept

@[simp] theorem shadowBack_mem (s : State) : (shadowBack s).mem = s.mem := by
  unfold shadowBack
  split
  · exact foldl_mem (fun _ _ => State.hostPut_mem _ _ _) _ _
  · rfl

@[simp] theorem hirMessages_mem (s : State) : (hirMessages s).mem = s.mem := by
  refine foldl_mem (fun t k => ?_) _ _
  split
  · exact (sendMsix_frame _ _ _).mem_eq
  · rfl

@[simp] theorem csIdle_mem (s : State) : (csIdle s).mem = s.mem := id rfl

@[simp] theorem unhostFrames_mem (s : State) (p : Nat → Bool) : (unhostFrames s p).mem = s.mem := id rfl

@[simp] theorem freeStamps_mem (s : State) : (freeStamps s).mem = s.mem := id rfl

theorem hirClear_keeps_below_bar4 (s : State) (cause : HirCause) {a : Nat} (h : a < 0x5000000) :
    (hirClear s cause).mem.get a = s.mem.get a := by
  unfold hirClear
  simp [hirVectors_keeps_below_bar4 _ cause h]

theorem hirOp_keeps_bar2 (s : State) (cause : HirCause) {o : Nat} (h : o < 0x1000000) :
    (hirOp s cause).mem.get (0x4000000 + o) = s.mem.get (0x4000000 + o) := by
  unfold hirOp
  split
  · rfl
  · rw [hirMessages_mem]
    exact hirClear_keeps_below_bar4 s cause (by omega)

/-! ### R473 -/

/-- The bytes of an accepted write read back from the window, and every byte outside the write reads as before. -/
theorem accepted_stagingWrite {o size : Nat} (data : BitVec 64) {s : State} (ho : o < 0x1000000) (hsize : size ≤ 8)
    (h : ¬ (1 ≤ s.get BOOT_STATE_STATE ∧ s.get BOOT_STATE_STATE ≤ 4)) :
    ∃ t, exec (.registerWrite (0x4000000 + o) size (.write data)) s = .next t ∧ t = { s with mem := t.mem, boot := t.boot } ∧
      (∀ i < size, o + i < 0x1000000 → t.mem.get (0x4000000 + o + i) = BitVec.ofNat 8 (data.toNat / 2 ^ (8 * i))) ∧
      ∀ a, a < 0x4000000 + o ∨ 0x4000000 + o + size ≤ a ∨ 0x5000000 ≤ a → t.mem.get a = s.mem.get a := by
  have hlen := length_stagedBytes o size data
  obtain ⟨boot, hwrite⟩ := bar2Write_of_accepted o size data h
  refine ⟨_, (exec_stagingWrite size data s ho).trans (congrArg _ hwrite), rfl, fun i hi hin => ?_, fun a ha => ?_⟩
  · have hread := Memory.get_putBytes_in (stagedBytes o size data) s.mem (bar2A o) i (by omega)
    exact hread.trans (getD_stagedBytes data (by omega) hin)
  · exact Memory.get_putBytes_out _ _ _ _ (by rw [bar2A]; omega)

/-- Settles O11: the write by the STATE that accepts or ignores it, the resets by what each leaves of the byte memories. -/
theorem stagingWindowWrites : Obligations.StagingWindowWrites := by
  unfold Obligations.StagingWindowWrites
  refine ⟨fun o size data s ho hsize hstate => accepted_stagingWrite data ho hsize (by omega),
    fun o size data s ho h1 h4 => ?_, fun straps ref s => ⟨_, rfl, fun o _ => ?_⟩,
    fun cause ramOk s => ⟨_, rfl, fun o ho => warmReset_keeps_bar2 s ramOk ho⟩,
    fun cause s => ⟨_, rfl, fun o ho => hirOp_keeps_bar2 s cause ho⟩⟩
  · rw [exec_stagingWrite size data s ho, bar2Write_of_ignored o size data h1 h4]
  · rw [powerOn_mem]
    rfl

end Sys2Proof.Machine
